-- ==== Sys2Proof/Word.lean ====
section
/-!
DEFINITION. The word types and the resource indices of R5: plain bit vectors and bounded naturals.
-/
namespace Sys2Proof

/-- A byte of any of the device's own formats (R9). -/
abbrev Byte := BitVec 8
/-- A 32-bit register word (R13). -/
abbrev Word := BitVec 32
/-- Device time in nanoseconds (R11). -/
abbrev DTime := BitVec 64

/-- CH0–CH191 (R5). -/
abbrev Chan := Fin 192
/-- Q0–Q47 (R5). -/
abbrev Quad := Fin 48
/-- SL0–SL7 (R5). -/
abbrev Slice := Fin 8
/-- H0–H15 (R5). -/
abbrev Heat := Fin 16
/-- E0–E255 (R5). -/
abbrev Engine := Fin 256
/-- T0–T3071 (R5). -/
abbrev Trib := Fin 3072
/-- G0–G2047 (R5). -/
abbrev Group := Fin 2048
/-- FC0–FC767 (R5). -/
abbrev Ctx := Fin 768
/-- Queues Q0–Q4095 (R5). -/
abbrev Queue := Fin 4096
/-- CS0–CS63 (R5). -/
abbrev CapSlot := Fin 64
/-- CK0–CK7 (R5). -/
abbrev CkEng := Fin 8
/-- GDDR7 sites 0–15 (R185). -/
abbrev Site := Fin 16
/-- Recorder drives 0–3 (R302). -/
abbrev Drive := Fin 4
/-- Matrix masters M0–M9 (R284). -/
abbrev MMaster := Fin 10
/-- Matrix targets T0–T9 (R284). -/
abbrev MTarget := Fin 10
/-- Switched power domains d = 0–95 (R384). -/
abbrev Dom := Fin 96
/-- Monitored level l = 0–7 (R71). -/
abbrev Lvl := Fin 8
/-- Defect codes 0–20 (R80). -/
abbrev DefCode := Fin 21

end Sys2Proof
end

