-- ==== Sys2Proof/Syntax.lean ====
section
/-!
DEFINITION. The commands of the block: one constructor per row of spec/opcode_table.json. A command carries, besides
the resource it names, what the outside world supplies with it (received bytes, error counts, messages, readings);
everything the device knows itself is read from the state by its meaning.
-/
namespace Sys2Proof

/-- The nine unit classes of R339, with their codes 1 to 9. -/
inductive UClass where
  | channel | bond | trib | pgroup | fctx | queue | cslot | recorder | pairagent
deriving DecidableEq, Repr

/-- A unit: a class and an index (R339). -/
structure UnitId where
  cls : UClass
  idx : Nat
deriving DecidableEq, Repr

/-- An overhead source: a framed channel (or bond leader) or a tributary (R98). -/
inductive Src where
  | chan (n : Chan)
  | trib (t : Trib)
deriving DecidableEq, Repr

/-- An egress point that keeps an egress frame clock (R419). -/
inductive EgressPt where
  | chan (n : Chan)
  | trib (t : Trib)
deriving DecidableEq, Repr

/-- Where a host write lands: BAR0, with the access size in bytes, or one of the endpoint's own PCIe configuration
fields that the manual's behaviour depends on (R331, R334). -/
inductive WriteTarget where
  | bar0 (off : BitVec 26) (bytes : Nat)
  | busMasterEnable
  | msixEnable
  | msixFunctionMask
  | bar0Base
  | bar2Base
  | powerState
  | maxPayload
  | aerStatus
deriving DecidableEq, Repr

/-- Which PCS lock a change concerns (R50, events 0x0206 and 0x0207). -/
inductive PcsLock where
  | lane | align
deriving DecidableEq, Repr

/-- What overhead extraction finds in one frame period: the six bytes received where FAS bytes 1–6, or the last three A1
and first three A2, are expected (R54; on FlexO empty where the alignment marker is missing, R67), the received
multiframe byte, the generic-AIS pattern flag judged on every tick (R80), the 64 snapshot bytes of R73 as received (the
device fills in bytes 0–7, 43–46 and 52–63 itself, and the signature of an ODU frame), the 64 overhead bytes of
the frame, row by row, of which CH_OH_XSEL selects four (R96) and a group its lap byte (R224), the RDI bit of the FlexO
group layer (R80), the ODU frame of 15,296 bytes (R221, R225; empty on STM-64 and FlexO), and on
an ODUCn the PSI bytes of its OPUC instances (R139; empty elsewhere). -/
structure FrameRx where
  pat    : List Byte
  mf     : Byte
  pn11   : Bool
  bytes  : List Byte
  oh     : List Byte
  rdi    : Bool
  frame  : List Byte
  psi    : List Byte
deriving DecidableEq, Repr

/-- The outcome of reading a cell's 56 data words and header (R200, R202): corrected words, the indices of
uncorrectable words, and whether the header was read back wrong. -/
structure CellRead where
  corrected : Nat
  uncorr    : List Nat
  hdrFault  : Bool
deriving DecidableEq, Repr

/-- The heartbeat paths of R253. -/
inductive PairPath where
  | baton | pacer
deriving DecidableEq, Repr

/-- A matrix request: 44-bit internal address, direction, beats, transaction ID, and whether a write burst is fully
buffered, or a read has room for all its beats (R285, R292–R294). -/
structure MxReq where
  addr : BitVec 44
  write : Bool
  beats : Nat
  id : BitVec 4
  ready : Bool
deriving DecidableEq, Repr

/-- A namespace found on a drive by Identify (R303, R304): its NSID, its size in bytes, its LBA data size, its metadata
size, and whether protection information is enabled. -/
structure NsInfo where
  nsid : Nat
  bytes : Nat
  lba : Nat
  metaSize : Nat
  protInfo : Bool
deriving DecidableEq, Repr

/-- What the recorder reads of one segment slot (R307): the first 64 bytes of its header and of trailers A and B, and the
pages of a segment that is to be repaired, from page 1 on. -/
structure SegScan where
  hdr : List Byte
  trA : List Byte
  trB : List Byte
  pages : List (List Byte)
deriving DecidableEq, Repr

/-- What discovery finds on one link (R317 step 1): link width, Identify results, SMART data, the anchor header and the
index blocks read from it (R306), and, slot by slot of its part of the ring, what the slots hold. -/
structure DriveInfo where
  width : BitVec 2
  vwc : Bool
  dsm : Bool
  serial : List Byte
  nss : List NsInfo
  pctUsed : Byte
  critWarn : Byte
  duw : BitVec 64
  anchor : List Byte
  idx : List (List Byte)
  segs : List SegScan
deriving DecidableEq, Repr

/-- What an NVMe completion brings: success or the status field, and the data of a Get Log Page or of a Read. -/
inductive NvmeResult where
  | ok
  | smart (pctUsed : Byte) (critWarn : Byte) (duw : BitVec 64)
  | segs (l : List SegScan)
  | error (sc : BitVec 16) (retriable : Bool)
deriving DecidableEq, Repr

/-- Why a system reset is asserted from outside the boot sequencer: SYS_RST_L; watchdog, fallback and RESTART assert it
from inside (R381). -/
inductive ResetPin where
  | assert | release
deriving DecidableEq, Repr

/-- The instructions of the TAP (R416). A low TRST_L resets the TAP, which then holds IDCODE (IEEE 1149.1). -/
inductive TapInstr where
  | bypass | idcode | samplePreload | extest | extestPulse | extestTrain | clamp | highz
deriving DecidableEq, Repr

/-- Whether an instruction disturbs operation (R416). -/
def TapInstr.disturbs : TapInstr → Bool
  | .bypass => false
  | .idcode => false
  | .samplePreload => false
  | _ => true

/-- How an attempt to train a site ends (R358, R399): trained, failed, or no device there. -/
inductive Training where
  | trained | failed | absent
deriving DecidableEq, Repr

/-- What a start-up stage finds when its work ends (R358): `ok` is false where the stage's work failed. At the end of S1:
the fused AVS start point `avs` in mV and whether AVSBus answered, the fused key hash, and what the discovery that opens S2
finds: the flash size by SFDP, 0 where the flash fails discovery, and, in `flash`, the bytes of the board's part where they
are not those the device last left in it. At the end of S8: the drives whose bring-up failed. `jnlFail`: a journal
program or erase of this stage failed. -/
structure StageWork where
  ok : Bool
  flashSize : Nat
  flash : Option (List (Nat × BitVec 8))
  avs : Nat
  avsOk : Bool
  fusedHash : List Byte
  drives : BitVec 4
  jnlFail : Bool
deriving DecidableEq, Repr

/-- The commands: operations on the device and the events at its pins, links and clocks, one per row of the table. -/
inductive Instr where
  /-- REGISTER_WRITE (R13): a host write of 4 or 8 bytes to BAR0 (other sizes: Unsupported Request, R331), or of a PCIe
  configuration field. -/
  | registerWrite (tgt : WriteTarget) (value : BitVec 64)
  /-- READ_CLEAR (R13): a host read of BAR0: every RC field of the word returns to its reset value. -/
  | readClear (off : BitVec 26) (bytes : Nat)
  /-- READ_LO_LATCH (R337): a host read of a _LO register, which latches its _HI half. -/
  | readLoLatch (off : BitVec 26)
  /-- MSIX_MODERATION_END (R334): the moderation time of MSI-X vector v ends. -/
  | msixModerationEnd (v : Fin 64)
  /-- EGRESS_FRAME (R419): an egress frame boundary of a channel or tributary egress point. -/
  | egressFrame (pt : EgressPt)
  /-- CHANNEL_DOMAINS_READY (R48): the unit led by channel n finds its slice and quad domains on. -/
  | channelDomainsReady (n : Chan)
  /-- QUAD_PLL_LOCK (R48): the PLL of quad q gains lock. -/
  | quadPllLock (q : Quad)
  /-- QUAD_PLL_UNLOCK (R42): the PLL of quad q loses lock. -/
  | quadPllUnlock (q : Quad)
  /-- RX_CAL_DONE (R42): receiver calibration of channel n ends. -/
  | rxCalDone (n : Chan)
  /-- RX_TRACK (R42): CDR lock and SNR have held for 1 ms; snr is the estimate in 0.1 dB. -/
  | rxTrack (n : Chan) (snr : BitVec 10)
  /-- RX_ACQUIRE_TIMEOUT (R42): ACQUIRE has run its time without TRACK. -/
  | rxAcquireTimeout (n : Chan)
  /-- CDR_LOCK_LOST (R42): the receive CDR of channel n loses lock without LOS. -/
  | cdrLockLost (n : Chan)
  /-- LOS_SET (R44): the amplitude has stayed below los_thr for 10 µs. -/
  | losSet (n : Chan)
  /-- LOS_CLEAR (R44): the amplitude has stayed above los_thr + 3 dB for 100 µs. -/
  | losClear (n : Chan)
  /-- RX_HOLD_EXIT (R42): LOS has been absent for 1 ms in HOLD. -/
  | rxHoldExit (n : Chan)
  /-- TAP_ADAPT (R43): the equaliser moves the named taps one step up (true) or down. -/
  | tapAdapt (n : Chan) (moves : List (Nat × Bool))
  /-- PCS_LOCK_LOST (R36): lane_lock or align_status of channel n falls. -/
  | pcsLockLost (n : Chan) (w : PcsLock)
  /-- PCS_LOCK_REGAINED (R35): lane_lock or align_status of channel n rises. -/
  | pcsLockRegained (n : Chan) (w : PcsLock)
  /-- HI_BER_CHANGE (R35): hi_ber or hi_ser takes the state on. -/
  | hiBerChange (n : Chan) (on : Bool)
  /-- BOND_ALIGNED_SET (R34): the PCS measures skew ns between the members led by n and deskews them. -/
  | bondAlignedSet (n : Chan) (skew : BitVec 16)
  /-- BOND_ALIGNED_CLEAR (R34): a member of the group led by n has lost lock, or the measured skew exceeds the capacity.
  -/
  | bondAlignedClear (n : Chan) (skew : BitVec 16)
  /-- FEC_CODEWORD (R39): a codeword of channel or group n ends with laneErrs symbols in error per lane and bits bit
  errors. -/
  | fecCodeword (n : Chan) (laneErrs : List Nat) (bits : Nat)
  /-- FEC_SNAP (R40): a write of CH_FEC_SNAP[n].snap. -/
  | fecSnap (n : Chan)
  /-- FEC_SNAP_SECOND (R40): a DTIME second boundary meets snap_1s of channel n. -/
  | fecSnapSecond (n : Chan)
  /-- FEC_DEG_WINDOW (R41): a pre-FEC BER window of channel n ends. -/
  | fecDegWindow (n : Chan)
  /-- FRAME_TICK (R52): the frame clock of channel n's aligner ticks. -/
  | frameTick (n : Chan) (rx : FrameRx)
  /-- PATTERN_MATCH (R55): the six bytes pat stand at bit position pos of the stream, followed by mfas; on FlexO the PCS
  reports a marker there (R67). -/
  | patternMatch (n : Chan) (pos : BitVec 21) (pat : List Byte) (mfas : Byte)
  /-- CANDIDATE_CHECK (R55): slot k is checked one frame period after its last check: the six bytes there (on FlexO none
  where the marker is missing), the byte after them, and the parity byte computed on this framing with the one received.
  -/
  | candidateCheck (n : Chan) (k : Fin 4) (pat : List Byte) (mfas : Byte) (par : Byte) (rcv : Byte)
  /-- CANDIDATE_QUALIFY (R56): the run of slot k has reached N in SEARCH. -/
  | candidateQualify (n : Chan) (k : Fin 4)
  /-- MIMIC_FLAGGED (R58): a shadow candidate has reached N while the held frame matched throughout. -/
  | mimicFlagged (n : Chan) (k : Fin 4)
  /-- TIE_END (R59): a TIE end condition of R59 holds. -/
  | tieEnd (n : Chan)
  /-- OOF (R60): the M-th consecutive errored frame has been counted in INFRAME. -/
  | oof (n : Chan)
  /-- MF_REGAIN (R62): mf_run has reached mf_confirm. -/
  | mfRegain (n : Chan)
  /-- MF_LOSS (R62): the mismatch run has reached mf_lose. -/
  | mfLoss (n : Chan)
  /-- DLOF_DECLARE (R64): the dLOF integrator reaches lof_set. -/
  | dlofDeclare (n : Chan)
  /-- DLOF_CLEAR (R64): INFRAME has persisted for lof_clr. -/
  | dlofClear (n : Chan)
  /-- DLOM_DECLARE (R64): the dLOM integrator reaches lom_set. -/
  | dlomDeclare (n : Chan)
  /-- DLOM_CLEAR (R64): MF_IN has persisted for lom_clr. -/
  | dlomClear (n : Chan)
  /-- TRIB_FRAME_TICK (R137): a frame of the LO ODU of tributary t starts. -/
  | tribFrameTick (t : Trib) (rx : FrameRx)
  /-- DEFECT_DECLARE (R80): the set condition of a defect is met. -/
  | defectDeclare (src : Src) (l : Lvl) (code : DefCode)
  /-- DEFECT_CLEAR (R80): the clear condition of a defect is met. -/
  | defectClear (src : Src) (l : Lvl) (code : DefCode)
  /-- DDEG_WINDOW_END (R83): a dDEG window of level l ends. -/
  | ddegWindowEnd (src : Src) (l : Lvl)
  /-- TTI_ACCEPT (R76): the TTI has been the same in 3 multiframes. -/
  | ttiAccept (src : Src) (l : Lvl)
  /-- PT_ACCEPT (R77): the payload type has been the same in 3 PSI multiframes. -/
  | ptAccept (src : Src)
  /-- APS_ACCEPT (R78): APS/PCC or K1/K2 have been identical 3 times. -/
  | apsAccept (src : Src) (l : Lvl)
  /-- FAILURE_DECLARE (R85): a fault cause has persisted for fail_set. -/
  | failureDeclare (src : Src) (l : Lvl) (code : DefCode)
  /-- FAILURE_CLEAR (R85): a fault cause has been absent for fail_clr. -/
  | failureClear (src : Src) (l : Lvl) (code : DefCode)
  /-- TASK_TAKE (R104): engine e, idle, looks for a task. -/
  | taskTake (e : Engine)
  /-- TASK_PART_END (R99): the part that engine e runs ends. -/
  | taskPartEnd (e : Engine)
  /-- TASK_CUT_OFF (R107): the task of engine e exceeds 16,384 cycles. -/
  | taskCutOff (e : Engine)
  /-- HEAT_EPOCH (R115): a 250 µs heat epoch boundary. -/
  | heatEpoch
  /-- HEAT_DRAINED (R116): no engine of the DRAINING heat h runs a task. -/
  | heatDrained (h : Heat)
  /-- SHED_FORCE_WRITE (R110): a write of STR_CTL.shed_force. -/
  | shedForceWrite (v : BitVec 2)
  /-- MSI_ACCEPT (R139): the MSI of server n has been identical in 3 PSI multiframes. -/
  | msiAccept (n : Chan)
  /-- LEARN_ALLOCATE (R143): the LO rate of a new TPN of server n is measured as rate kbit/s. -/
  | learnAllocate (n : Chan) (tpn : Byte) (rate : Nat)
  /-- LEARN_FREE (R143): the TPN of learned tributary t has been absent for learn_free. -/
  | learnFree (t : Trib)
  /-- TRIB_LIVE (R136): the adaptation has locked and the LO frame aligned at the measured rate offset. -/
  | tribLive (t : Trib) (ratePpm : BitVec 16)
  /-- TRIB_REACQUIRE (R136): a LIVE tributary has lost its server, multiframe, MSI or lock. -/
  | tribReacquire (t : Trib)
  /-- ELASTIC_SLIP (R136): an elastic-store slip of tributary t. -/
  | elasticSlip (t : Trib)
  /-- LOFLOM_DECLARE (R137): the dLOFLOM integrator reaches 3 ms. -/
  | loflomDeclare (t : Trib)
  /-- LOFLOM_CLEAR (R137): INFRAME and MF_IN have held for 3 ms. -/
  | loflomClear (t : Trib)
  /-- LOOMFI_DECLARE (R138): OMFI has mismatched 5 times. -/
  | loomfiDeclare (n : Chan)
  /-- LOOMFI_CLEAR (R138): OMFI has incremented correctly twice. -/
  | loomfiClear (n : Chan)
  /-- FLEXE_CA_RECEIVED (R147): the peer of FlexE group j of slice s sends CA. -/
  | flexeCaReceived (s : Slice) (j : Fin 8)
  /-- FLEXE_TX_CAL_SWITCH (R147): the overhead multiframe boundary after CA. -/
  | flexeTxCalSwitch (s : Slice) (j : Fin 8)
  /-- FLEXE_CCC_RECEIVED (R147): the peer's CCC changes. -/
  | flexeCccReceived (s : Slice) (j : Fin 8)
  /-- FLEXE_CA_TIMEOUT (R147): 100 ms have passed without CA. -/
  | flexeCaTimeout (s : Slice) (j : Fin 8)
  /-- FLEXE_GROUP_STATUS (R146): aligned, lof, lom, gnm, pnm, calm of the group take the values st. -/
  | flexeGroupStatus (s : Slice) (j : Fin 8) (st : BitVec 6) (skew : BitVec 10)
  /-- FLEXO_ID_ACCEPT (R148): group ID and PHY map received alike in 3 FlexO multiframes. -/
  | flexoIdAccept (n : Chan) (gid : BitVec 20) (pids : List Byte)
  /-- FILTER_INPUT_SAMPLE (R157): every k-th strobe: the parts of the frequency error over the sample interval, in units
  of 2^−32: of the server's received line phase, of the tributary Cn, of the client's stream, and of the arrival phase
  at the egress elastic store. -/
  | filterInputSample (c : Ctx) (line cn client arrival : Int)
  /-- FILTER_OUTPUT_SAMPLE (R164): the fine path's decimators deliver an output sample. -/
  | filterOutputSample (c : Ctx)
  /-- FILTER_SETTLED (R170): the settling count of R167 is reached with valid input. -/
  | filterSettled (c : Ctx)
  /-- HOLDOVER_EXIT (R170): 16 consecutive valid samples have arrived in HOLDOVER. -/
  | holdoverExit (c : Ctx)
  /-- SYNC_COMMAND (R172): a write of FLT_SYNC_CMD. -/
  | syncCommand (grps : BitVec 8)
  /-- FSYNC_OUT_END (R172): 16 clk_tm ticks after FSYNC_OUT rose. -/
  | fsyncOutEnd
  /-- FSYNC_IN_EDGE (R172): a rising edge on FSYNC_IN is detected. -/
  | fsyncInEdge
  /-- SYNC_RESET (R173): the clk_tm tick at which the due sync reset is applied. -/
  | syncReset
  /-- SWAP_FADE_START (R176): the priming chain reaches its settling count. -/
  | swapFadeStart (c : Ctx)
  /-- SWAP_COMPLETE (R177): the 64th fade sample has been delivered. -/
  | swapComplete (c : Ctx)
  /-- BANK_FLIP (R178): a write of FLT_BANK_FLIP. -/
  | bankFlip (mask : BitVec 16)
  /-- PUSH (R191): the producer of queue q pushes one cell of 448 data bytes. -/
  | push (q : Queue) (data : List Byte)
  /-- POP (R191): the consumer of queue q pops; r is how the cell reads. -/
  | pop (q : Queue) (r : CellRead)
  /-- MARK (R191): the owner issues MARK. -/
  | mark (q : Queue)
  /-- MARK_AT (R191): the owner issues MARK_AT p. -/
  | markAt (q : Queue) (p : Word)
  /-- REWIND (R191): the owner issues REWIND. -/
  | rewind (q : Queue)
  /-- RELEASE_TO (R191): the owner issues RELEASE_TO p. -/
  | releaseTo (q : Queue) (p : Word)
  /-- LAGGED_RELEASE (R192): the end of a cycle of a LAGGED queue. -/
  | laggedRelease (q : Queue)
  /-- STALL_PUSH_PROCEED (R193): the waiting STALL push of queue q finds room. -/
  | stallPushProceed (q : Queue)
  /-- POP_RESUME (R191): the stalled consumer of queue q finds a cell. -/
  | popResume (q : Queue) (r : CellRead)
  /-- POOL_REBUILD (R202): a write of CPL_POOL_CMD.rebuild. -/
  | poolRebuild
  /-- POOL_REBUILD_DONE (R202): the rebuild ends; faults name the cells of the surviving lists whose header it found bad: the
  queue and the place above rel. -/
  | poolRebuildDone (faults : List (Queue × Nat))
  /-- HOST_PUSH (R206): a write of CPL_HOST_OP with op PUSH. -/
  | hostPush (q : Queue)
  /-- HOST_POP (R206): a write of CPL_HOST_OP with op POP; r is how the cell reads. -/
  | hostPop (q : Queue) (r : CellRead)
  /-- HOST_CANCEL (R206): a write of CPL_HOST_OP with op CANCEL. -/
  | hostCancel
  /-- BAR2_READ (R205): a host read of len bytes of BAR2; reads are how the cells touched read, in order. -/
  | bar2Read (off : BitVec 30) (len : Nat) (reads : List CellRead)
  /-- BAR2_WRITE (R205): a host write of BAR2; reads are how the cells touched read, in order, where a word is written in
  part. -/
  | bar2Write (off : BitVec 30) (data : List Byte) (reads : List CellRead)
  /-- SCRUB_CELL (R279): scrubbing reads the next cell, which may have been written since. -/
  | scrubCell (r : CellRead) (raced : Bool)
  /-- CLEAR (R215): the CLEAR command of group g. -/
  | clear (g : Group)
  /-- LOCKOUT_OF_PROTECTION (R215): the LO command of group g. -/
  | lockoutOfProtection (g : Group)
  /-- FORCED_SWITCH (R215): the FS command of group g for signal sig. -/
  | forcedSwitch (g : Group) (sig : BitVec 4)
  /-- MANUAL_SWITCH (R215): the MS command of group g for signal sig. -/
  | manualSwitch (g : Group) (sig : BitVec 4)
  /-- EXERCISE (R215): the EXER command of group g for signal sig. -/
  | exercise (g : Group) (sig : BitVec 4)
  /-- FREEZE (R215): the FREEZE command of group g. -/
  | freeze (g : Group)
  /-- CLEAR_FREEZE (R215): the CLEAR_FREEZE command of group g. -/
  | clearFreeze (g : Group)
  /-- HOLD_OFF_EXPIRE (R216): the hold-off timer of group g expires. -/
  | holdOffExpire (g : Group)
  /-- WTR_EXPIRE (R216): the WTR timer of group g elapses. -/
  | wtrExpire (g : Group)
  /-- SELECTOR_DECISION (R218): the first frame boundary of the reference of group g after a change of request. -/
  | selectorDecision (g : Group)
  /-- SWITCH_NO_BOUNDARY (R218): one nominal frame period after a decision whose new member gives no boundary. -/
  | switchNoBoundary (g : Group)
  /-- PLAIN_SWITCH (R231): the new member's next frame boundary, for a switch that is not switch-safe. -/
  | plainSwitch (g : Group)
  /-- LAP_VALID (R224): the lap of a member has advanced by 1, or failed to, over 3 frames. -/
  | lapValid (g : Group) (late : Bool) (valid : Bool)
  /-- PROBE_TAKEN (R226): 16 early signatures pass the tests of R226. -/
  | probeTaken (g : Group)
  /-- PROBE_FOUND (R226): 16 consecutive late signatures equal the probe. -/
  | probeFound (g : Group)
  /-- PROBE_AMBIGUOUS (R226): the probe repeats before it is found. -/
  | probeAmbiguous (g : Group)
  /-- PROBE_EXPIRE (R226): the probe's late-frame limit passes. -/
  | probeExpire (g : Group)
  /-- ALIGN_CONFIRM (R228): 8 verifiable frames have matched under the candidate offset. -/
  | alignConfirm (g : Group)
  /-- ALIGN_MATCH_RUN (R228): 8 consecutive matches under the offset in RECAL or BLIND. -/
  | alignMatchRun (g : Group)
  /-- ALIGN_MISMATCH_RUN (R228): 8 consecutive mismatches in ALIGNED or BLIND. -/
  | alignMismatchRun (g : Group)
  /-- BLIND_ENTER (R228): 64 consecutive late frames are not distinct. -/
  | blindEnter (g : Group)
  /-- COPY_EPOCH (R243): a copy epoch boundary. -/
  | copyEpoch
  /-- EPOCH_RECEIVED (R250): an EPOCH message arrives, from its header to its trailer. -/
  | epochReceived (bytes : List Byte)
  /-- SNAP_RECEIVED (R263): a SNAP part arrives. -/
  | snapReceived (bytes : List Byte)
  /-- ACK_RECEIVED (R251): an ACK arrives. -/
  | ackReceived (bytes : List Byte)
  /-- PACER_FRAME_RECEIVED (R252): the 16 bytes of a pacer frame arrive. -/
  | pacerFrameReceived (bytes : List Byte)
  /-- PATH_DOWN (R253): a path's silence timer reaches its limit. -/
  | pathDown (p : PairPath)
  /-- ARB_REQ_RISE (R240): ARB_REQ rises after its glitch filter. -/
  | arbReqRise
  /-- ARB_REQ_FALL (R258): ARB_REQ falls after its glitch filter. -/
  | arbReqFall
  /-- TAKE_OVER (R259): the take-over conditions of R255 hold. -/
  | takeOver
  /-- DISCOVER_WINDOW_END (R258): the discovery window ends. -/
  | discoverWindowEnd
  /-- SYNC_PARTNER_ABSENT (R258): no partner has been heard ACTIVE for disc_epochs in SYNC. -/
  | syncPartnerAbsent
  /-- YIELD_TIMEOUT (R258): yield_to epochs have passed in YIELDING. -/
  | yieldTimeout
  /-- RESYNC (R258): a write of PAIR_CMD.resync. -/
  | resync
  /-- BATON_LINK_UP (R238): the four baton lanes are aligned. -/
  | batonLinkUp
  /-- INIT (R268): CHK_CK_CMD with op INIT. -/
  | init (k : CkEng)
  /-- PRESET (R268): CHK_CK_CMD with op PRESET. -/
  | preset (k : CkEng) (p : BitVec 3)
  /-- CK_DIN (R269): a write of CHK_CK_DIN. -/
  | ckDin (k : CkEng) (w : Word)
  /-- CK_DIN8 (R269): a write of CHK_CK_DIN8. -/
  | ckDin8 (k : CkEng) (b : Byte)
  /-- CK_RUN_LOAD (R270): a write of CHK_CK_RUN_HI. -/
  | ckRunLoad (k : CkEng) (hi : Word)
  /-- GO (R271): CHK_SCAN_CMD with op GO. -/
  | go
  /-- SCAN_STOP (R272): CHK_SCAN_CMD with op STOP; pos is the element the job had reached, data the bytes it fed until
  then (outside the pool), ue the uncorrectable words, reads the cells scrubbed. -/
  | scanStop (pos : Nat) (data : List Byte) (ue : Nat) (reads : List CellRead) (raced : List Nat)
  /-- SCAN_JOB_END (R272): the scan engine reads the rest of its job: the bytes it feeds (outside the pool), the
  uncorrectable words, the cells scrubbed, and those whose write-back is dropped. -/
  | scanJobEnd (data : List Byte) (ue : Nat) (reads : List CellRead) (raced : List Nat)
  /-- TABLE_CHECK_BLOCK (R276): the next table block is recomputed; fault is the value read where the stored table has
  been hit. -/
  | tableCheckBlock (fault : Option Word)
  /-- REFERENCE_INJECT (R282): a write of CHK_TBL_INJ. -/
  | referenceInject (b : BitVec 10) (refA : Bool) (refB : Bool)
  /-- MATRIX_REQUEST (R287): master m issues a request. -/
  | matrixRequest (m : MMaster) (r : MxReq)
  /-- TARGET_ARBITRATION (R290): target t arbitrates among the requests waiting for it. -/
  | targetArbitration (t : MTarget)
  /-- TRANSACTION_COMPLETE (R294): the response of the oldest transaction of id reaches master m. -/
  | transactionComplete (m : MMaster) (id : BitVec 4)
  /-- HELD_REQUEST_ISSUE (R295): the condition that holds master m's request ends. -/
  | heldRequestIssue (m : MMaster)
  /-- MODE_TO_LAYERED (R289): a write of mode_req = 1. -/
  | modeToLayered
  /-- MODE_TO_NORMAL (R289): a write of mode_req = 0. -/
  | modeToNormal
  /-- NORMAL_SWITCH (R289): the bridge holds no transaction during a change to NORMAL. -/
  | normalSwitch
  /-- MODE_CHANGE_REFUSED (R289): the bridge is still occupied after hang_lim cycles. -/
  | modeChangeRefused
  /-- HANG_DETECT (R299): a transaction of master m has been outstanding for hang_lim cycles. -/
  | hangDetect (m : MMaster) (id : BitVec 4)
  /-- HANG_RECENT_CLEAR (R299): one DTIME second after the latest hang detection. -/
  | hangRecentClear
  /-- MASTER_RESET (R296): master m receives its domain reset. -/
  | masterReset (m : MMaster)
  /-- RECORD_STAGE (R313): the next waiting record enters staging, and staged records enter the page; reads are how the
  cells read on the way read, in order. -/
  | recordStage (reads : List CellRead)
  /-- PAGE_WRITE (R308): a full page is written; reads are how the staging cells read on the way read, in order. -/
  | pageWrite (reads : List CellRead)
  /-- FLUSH_INTERVAL (R308): rec_flush seconds have passed since the last page write. -/
  | flushInterval
  /-- SEGMENT_COMMIT (R308): the open segment is full, or CLOSE is due; reads are how the staging cells read on the way
  read, in order. -/
  | segmentCommit (reads : List CellRead)
  /-- NVME_COMPLETION (R303): an NVMe command of drive d completes. -/
  | nvmeCompletion (d : Drive) (r : NvmeResult)
  /-- NVME_TIMEOUT (R304): a command of drive d fails or has no completion within 5 s. -/
  | nvmeTimeout (d : Drive)
  /-- SMART_POLL (R303): 60 s have passed since the SMART log of drive d was read. -/
  | smartPoll (d : Drive)
  /-- RECORDER_DISCOVERY (R317): the recorder starts; found is what lies on the links 0 to 3. -/
  | recorderDiscovery (found : List (Option DriveInfo))
  /-- FORMAT (R320): REC_CMD with op FORMAT. -/
  | format (key : BitVec 16)
  /-- RESCAN (R320): REC_CMD with op RESCAN. -/
  | rescan
  /-- REBUILD (R320): REC_CMD with op REBUILD. -/
  | rebuild
  /-- CLOSE (R320): REC_CMD with op CLOSE. -/
  | close
  /-- READ (R322): REC_RD_CMD with op READ. -/
  | read
  /-- ANCHOR (R322): REC_RD_CMD with op ANCHOR. -/
  | anchor
  /-- LOOKUP (R322): REC_RD_CMD with op LOOKUP. -/
  | lookup
  /-- READ_CANCEL (R322): REC_RD_CMD with op CANCEL. -/
  | readCancel
  /-- READ_COMPLETE (R322): the read service operation ends with the blocks read, or with the NVMe status sc. -/
  | readComplete (blocks : List (List Byte)) (sc : BitVec 16)
  /-- ARM (R326): REC_CS_CMD with op ARM. -/
  | arm (k : CapSlot)
  /-- TRIGGER (R325): REC_CS_CMD with op TRIGGER. -/
  | trigger (k : CapSlot)
  /-- DISARM (R326): REC_CS_CMD with op DISARM. -/
  | disarm (k : CapSlot)
  /-- CAPTURE_ADMIT (R324): slot k in WAIT is examined against R324. -/
  | captureAdmit (k : CapSlot)
  /-- CAPTURE_FRAME (R323): the hook delivers one frame to slot k. -/
  | captureFrame (k : CapSlot) (data : List Byte)
  /-- CAPTURE_TRIGGER (R325): a defect, event or slot trigger of slot k arrives, with its DTIME. -/
  | captureTrigger (k : CapSlot) (at_ : DTime)
  /-- CAPTURE_POST_DONE (R326): frame trigger + post of slot k is written. -/
  | capturePostDone (k : CapSlot)
  /-- CAPTURE_COPY_DONE (R326): the last fragment of slot k is staged. -/
  | captureCopyDone (k : CapSlot)
  /-- STOP (R340): the STOP unit operation. -/
  | stop (u : UnitId)
  /-- COMMIT (R340): the COMMIT unit operation. -/
  | commit (u : UnitId)
  /-- START (R340): the START unit operation. -/
  | start (u : UnitId)
  /-- UNIT_STOPPED (R341): the stopping effect of a STOPPING unit is in place. -/
  | unitStopped (u : UnitId)
  /-- UNIT_RUN (R341): the start condition of a STARTING unit is met. -/
  | unitRun (u : UnitId)
  /-- HOST_ACCESS_TIMEOUT (R332): a host request to matrix target tgt has had no response within host_to. -/
  | hostAccessTimeout (tgt : BitVec 4)
  /-- PERST (R333): PERST_L is asserted. -/
  | perst
  /-- FUNCTION_LEVEL_RESET (R333): the host issues a Function Level Reset. -/
  | functionLevelReset
  /-- PCIE_LINK_UP (R347): the PCIe link trains. -/
  | pcieLinkUp (speed : BitVec 3) (width : BitVec 2)
  /-- PCIE_LINK_DOWN (R347): the PCIe link is lost. -/
  | pcieLinkDown
  /-- I2C_READ (R336): an I2C read transfer of n bytes at 7-bit address adr, from the offset set. -/
  | i2cRead (adr : BitVec 7) (n : Nat)
  /-- I2C_WRITE (R336): an I2C write transfer at 7-bit address adr: offset bytes, then data. -/
  | i2cWrite (adr : BitVec 7) (off : BitVec 16) (data : List Byte)
  /-- STAGE_END (R358): the work of the open start-up stage ends. -/
  | stageEnd (w : StageWork)
  /-- QUAD_BATCH_DONE (R358): the current batch of S5 has ended. -/
  | quadBatchDone
  /-- SITE_TRAINING_DONE (R358): an attempt to train site k ends. -/
  | siteTrainingDone (k : Site) (ok : Training) (clamshell : Bool) (density : BitVec 3)
  /-- START_WATCHDOG (R358): the open stage exceeds its limit. -/
  | startWatchdog
  /-- JOURNAL_ERASE (R364): the next journal sector is erased in the background. -/
  | journalErase (ok : Bool)
  /-- CLEAR_HISTORY (R365): BOOT_CMD with op CLEAR_HISTORY. -/
  | clearHistory (ok : Bool)
  /-- RESTART (R369): BOOT_CMD with op RESTART. -/
  | restart
  /-- FLASH_READ (R369): BOOT_FLASH_CMD with op READ. -/
  | flashRead
  /-- FLASH_ERASE (R369): BOOT_FLASH_CMD with op ERASE. -/
  | flashErase
  /-- FLASH_PROGRAM (R369): BOOT_FLASH_CMD with op PROGRAM. -/
  | flashProgram
  /-- FLASH_COMMAND_END (R369): the flash command in progress ends. -/
  | flashCommandEnd (fail : Bool)
  /-- REFCLK_BAD (R371): REFCLK_A (false) or REFCLK_B (true) fails a monitor test. -/
  | refclkBad (b : Bool)
  /-- REFCLK_GOOD (R371): the reference has passed both tests for 100 ms. -/
  | refclkGood (b : Bool)
  /-- ROOT_PLL_LOCK (R372): the root PLL locks on the reference it tries. -/
  | rootPllLock
  /-- ROOT_PLL_ACQUIRE_TIMEOUT (R372): no root lock within 2 ms. -/
  | rootPllAcquireTimeout
  /-- REFERENCE_REVERT (R372): the preferred reference has been good for 10 s. -/
  | referenceRevert
  /-- ROOT_PLL_UNLOCK (R372): the VCO control is at its range limit. -/
  | rootPllUnlock
  /-- PPS_EDGE (R376): a rising edge on PPS_IN passes its glitch filter. -/
  | ppsEdge
  /-- TIME_SOURCE_LOST (R375): the time source has gone 2 s without an accepted measurement. -/
  | timeSourceLost
  /-- DTIME_LOAD (R378): a write of GLB_DTIME_LOAD_HI. -/
  | dtimeLoad (hi : Word)
  /-- FP_PULSE (R380): DTIME mod fp_period equals fp_phase of output k. -/
  | fpPulse (k : Fin 2)
  /-- PWRON (R381): PWRON_L is asserted and released with MGT_ADDR at mgt. -/
  | pwron (mgt : BitVec 2)
  /-- SYSTEM_RESET (R382): SYS_RST_L is asserted, or released. -/
  | systemReset (p : ResetPin)
  /-- DOMAIN_RESET (R383): a write of GLB_PD_RST. -/
  | domainReset (d : BitVec 7) (key : BitVec 16)
  /-- UNIT_RESET (R383): a write of GLB_URST. -/
  | unitReset (cls : BitVec 4) (idx : BitVec 12) (key : BitVec 16)
  /-- PD_SWITCH_ON (R386): a request to switch domain d on. -/
  | pdSwitchOn (d : Dom)
  /-- PD_SWITCH_OFF (R386): a request to switch domain d off. -/
  | pdSwitchOff (d : Dom)
  /-- PD_SWITCH_DONE (R386): the switch sequence of domain d ends. -/
  | pdSwitchDone (d : Dom)
  /-- AVS_ADJUST (R387): the speed monitors ask for 5 mV more, less or nothing; answered: an AVSBus response came within
  three retries. -/
  | avsAdjust (up : Option Bool) (answered : Bool)
  /-- THERMAL_SAMPLE (R389): the sixteen sensors are read. -/
  | thermalSample (temps : List (BitVec 16))
  /-- THERMAL_TRIP (R391): a sensor has stayed at or above 115 °C for 100 µs. -/
  | thermalTrip (sensor : Fin 16)
  /-- TAP_DISTURB (R417): the TAP loads an instruction that disturbs operation. -/
  | tapDisturb (i : TapInstr)
  /-- TAP_RELEASE (R417): the TAP loads an instruction that does not. -/
  | tapRelease (i : TapInstr)
  /-- PHY_PLL_UNLOCKED (R374): a PHY PLL loses lock: sites 0–15, 16 host, 17 recorder, 18 baton. -/
  | phyPllUnlocked (i : Fin 19)
  /-- QUAD_PLL_LOCK_TIMEOUT (R358): quad q has no PLL lock 2 ms after PD_Qq came on. -/
  | quadPllLockTimeout (q : Quad)
  /-- BATON_HEADER_RECEIVED (R253): the 64 bytes of a baton header arrive. -/
  | batonHeaderReceived (bytes : List Byte)
  /-- BATON_LINK_DOWN (R238): the baton link loses lane alignment. -/
  | batonLinkDown
  /-- FP_PULSE_END (R380): fp_width ticks after the pulse of output k began. -/
  | fpPulseEnd (k : Fin 2)
  /-- PCIE_UNCORRECTABLE_ERROR (R347): AER logs an uncorrectable error with first error pointer ptr. -/
  | pcieUncorrectableError (ptr : BitVec 5)
  /-- FLEXE_CR_RECEIVED (R145): the FlexE peer requests calendar cal with CR. -/
  | flexeCrReceived (s : Slice) (j : Fin 8) (cal : Bool)
deriving DecidableEq, Repr

end Sys2Proof
end

