-- ==== Sys2Proof/Decode.lean ====
section
/-!
DEFINITION. The command a table word spells. No row of the opcode table gives its command any bits (the device is
commanded by register accesses, pins and links, not by an instruction word), so no word spells one.
-/
namespace Sys2Proof

/-- The command a word of nbits bits spells: none, since the table gives no row any bits. -/
def decodeTableWord (nbits w : Nat) : Option Instr :=
  match nbits, w with
  | _, _ => none

end Sys2Proof
end

