-- ==== Sys2Proof/Config.lean ====
section
/-!
DEFINITION. What an implementation fixes and the spec leaves open: constants without a body, so that no proof can lean
on their values. Each is named in the assumption log.
-/
namespace Sys2Proof

/-- The k-th free value the model draws where the spec states no value (log entry 2). -/
opaque Config.freeWord : Nat → Word
/-- The fused reset value of GLB_CLK_CTL.ref_pref (R372, R392; log entry 6). -/
opaque Config.refPrefFuse : BitVec 1
/-- The PCIe vendor identifier, and the device serial number that the fuses hold (R330). -/
opaque Config.vendorId : BitVec 16
opaque Config.serialNumber : BitVec 64
/-- The manufacturer identity of the IDCODE (R416). -/
opaque Config.manufacturer : BitVec 11
/-- Proportional gain of a preset and class, from the device's preset table (R166; log entry 7). -/
opaque Config.presetKp : Nat → Nat → BitVec 16
/-- Integral gain of a preset and class (R166; log entry 7). -/
opaque Config.presetKi : Nat → Nat → BitVec 16
/-- Loop output shift of a preset and class (R166, R168; log entry 7). -/
opaque Config.presetShLoop : Nat → Nat → BitVec 5
/-- Candidates for the fixed half-band coefficients, Q1.17, of which the spec gives the DC gain and Σ|h| (R159; log entry
8). -/
opaque Config.halfBand : Nat → BitVec 18
/-- The seq field of the header of a cell that no queue has written (R187; log entry 11). -/
opaque Config.freeCellSeq : Nat → BitVec 16
/-- CRC-32C of the 4,096 bytes of table block b, as a function of the active words that lie in it: the spec gives the
sizes of the tables and no byte layout (R274, R275; log entry 9). -/
opaque Config.blockCrc : Nat → List Word → Word
/-- The register words (key and value) that a TABLE_BLOCK record sets, by table id, byte offset and data (R354; log entry
9). -/
opaque Config.tableWords : Nat → Nat → List Byte → List (Nat × Word)
/-- Frames of a window of the Poisson method of G.783 for an exponent, and the B2 violations in it at which it detects, and
below which it clears (R81; log entry 56). -/
opaque Config.msFrames : Nat → Nat
opaque Config.msDetect : Nat → Nat
opaque Config.msClear : Nat → Nat
/-- The payload type of the IMP adaptation into ODUflex (R127; log entry 57). -/
opaque Config.impPt : BitVec 8
/-- SHA-384 (R355; log entry 10). -/
opaque Config.sha384 : List Byte → List Byte
/-- ECDSA P-384 verification of key, signature and signed bytes (R355; log entry 10). -/
opaque Config.ecdsaValid : List Byte → List Byte → List Byte → Bool

end Sys2Proof
end

