-- ==== Sys2Proof/Machine/Flags.lean ====
section
/-!
DEFINITION. Check values: the parametric CRC model of R267, the CRC-32C and the cell-header CRC-16 the formats use,
and byte-order helpers (R9).
-/
namespace Sys2Proof.Machine

/-- The low w bits of n, reversed. -/
def reflect (w n : Nat) : Nat :=
  (List.range w).foldl (fun a i => if n.testBit i then a ||| (1 <<< (w - 1 - i)) else a) 0

/-- Parameters of the CRC model (R267). -/
structure CrcParams where
  width : Nat
  poly : Nat
  init : Nat
  refin : Bool
  refout : Bool
  xorout : Nat
deriving DecidableEq, Repr

/-- One bit of the register, shifting toward bit 0 (reflected, `poly` already reflected). -/
def crcBitR (rpoly run : Nat) : Nat :=
  if run.testBit 0 then (run >>> 1) ^^^ rpoly else run >>> 1

/-- One bit of the register, shifting toward bit w − 1. -/
def crcBitL (w poly run : Nat) : Nat :=
  if run.testBit (w - 1) then ((run <<< 1) % 2 ^ w) ^^^ poly else (run <<< 1) % 2 ^ w

/-- One message bit into the register (R267): least-significant first with refin, else most-significant first. -/
def crcMsgBit (p : CrcParams) (run : Nat) (b : Bool) : Nat :=
  if p.refin then
    crcBitR (reflect p.width p.poly) (run ^^^ (if b then 1 else 0))
  else
    crcBitL p.width p.poly (run ^^^ (if b then 1 <<< (p.width - 1) else 0))

/-- Feed one byte. -/
def crcByte (p : CrcParams) (run : Nat) (b : Byte) : Nat :=
  (if p.refin then [0, 1, 2, 3, 4, 5, 6, 7] else [7, 6, 5, 4, 3, 2, 1, 0]).foldl
    (fun r i => crcMsgBit p r (b.toNat.testBit i)) run

/-- Feed bytes in order. -/
def crcBytes (p : CrcParams) (run : Nat) (bs : List Byte) : Nat := bs.foldl (crcByte p) run

/-- The result of a running value (R267). -/
def crcResult (p : CrcParams) (run : Nat) : Nat :=
  (if p.refin = p.refout then run else reflect p.width run) ^^^ p.xorout

/-- The presets of R268. -/
def crcPreset : Nat → Option CrcParams
  | 1 => some ⟨32, 0x1EDC6F41, 0xFFFFFFFF, true, true, 0xFFFFFFFF⟩
  | 2 => some ⟨32, 0x04C11DB7, 0xFFFFFFFF, true, true, 0xFFFFFFFF⟩
  | 3 => some ⟨16, 0x1021, 0xFFFF, false, false, 0⟩
  | 4 => some ⟨64, 0x42F0E1EBA9EA3693, 0xFFFFFFFFFFFFFFFF, true, true, 0xFFFFFFFFFFFFFFFF⟩
  | _ => none

/-- CRC-32C (R268, preset 1). -/
def crc32c (bs : List Byte) : Word :=
  let p : CrcParams := ⟨32, 0x1EDC6F41, 0xFFFFFFFF, true, true, 0xFFFFFFFF⟩
  BitVec.ofNat 32 (crcResult p (crcBytes p p.init bs))

/-- 1 for true. -/
def bitNat (b : Bool) : Nat := if b then 1 else 0

/-- A value with bit b set from a condition. -/
def putBit (v b : Nat) (on : Bool) : Nat := if on then v ||| 2 ^ b else if v.testBit b then v - 2 ^ b else v

/-- The n bytes of a value, least significant first (R9). -/
def leBytes : Nat → Nat → List Byte
  | 0, _ => []
  | k + 1, v => BitVec.ofNat 8 v :: leBytes k (v / 256)

/-- The value of bytes, least significant first (R9). -/
def leVal : List Byte → Nat
  | [] => 0
  | b :: r => b.toNat + 256 * leVal r

/-- The byte at place i, 0 beyond the end. -/
def byteAt (bs : List Byte) (i : Nat) : Byte := bs.getD i 0

/-- Bytes from to from + n − 1, little-endian. -/
def leField (bs : List Byte) (lo n : Nat) : Nat := leVal ((bs.drop lo).take n)

/-- The header check of a cell (R187): CRC-16 over next, seq and the cell's own pointer. -/
def cellCheck (next seq ptr : Nat) : Nat :=
  let p : CrcParams := ⟨16, 0x1021, 0xFFFF, false, false, 0⟩
  crcResult p (crcBytes p p.init (leBytes 4 next ++ leBytes 2 seq ++ leBytes 4 ptr))

end Sys2Proof.Machine
end

