-- ==== Sys2Proof/Machine/Registers.lean ====
section
/-!
DEFINITION. Every register the spec gives the device (the register tables of its chapters): name, BAR0 place, array
dimensions, reset domain, owning unit and fields, as data; and one named descriptor per field.
-/
namespace Sys2Proof.Machine

/-- Field types of R13. -/
inductive FType where
  | rw | ro | w1c | rc | wo | rws
deriving DecidableEq, Repr

/-- Which power domain a PD register of an array lies in (R15, R384): `q` the quad of its channel, `s` the slice of its
channel, `hs` the slice of its heat, `t` the slice of its tributary's carrying channel, `sp` and `s3840` slice arrays,
`port` the slice of its switch port, `f` the filter array, `g` the memory site, and the single named domains. -/
inductive PdMap where
  | q | s | hs | t | sp | s8 | s3840 | s1 | port | f | g | scan | recEng | capt
deriving DecidableEq, Repr

/-- Reset domains of R15. -/
inductive RDom where
  | aon | sys | host | unit | pd (m : PdMap)
deriving DecidableEq, Repr

/-- The unit that owns a UNIT register (R338): `ch` CHANNEL or BOND of the channel, `sp` the channel 24s + p, `fg` the
CHANNEL of a FlexE group's lowest-numbered PHY, `fc` the TRIB that binds the FlexE client, `port` the unit of a switch
port, and the remaining classes by index. -/
inductive Owner where
  | none | ch | tr | sp | fg | fc | port | fx | qu | pg | pa | re | cs
deriving DecidableEq, Repr

/-- One field: least significant bit, width, type, reset value. -/
structure FieldInfo where
  lo : Nat
  w : Nat
  ty : FType
  rst : Nat
deriving DecidableEq, Repr

/-- One register or register array: base offset in BAR0, dimensions (count, stride in bytes) outermost first. -/
structure RegInfo where
  base : Nat
  dims : List (Nat × Nat)
  dom : RDom
  own : Owner
  fields : List FieldInfo
deriving DecidableEq, Repr

/-- The registers, by the names of the register tables. -/
inductive Reg where
  | CH_MODE | CH_SDS_CTL | CH_SDS_TXFFE | CH_SDS_STAT | CH_SDS_EVT | CH_SDS_PRBS_ERR
  | CH_PCS_CTL | CH_PCS_STAT | CH_PCS_ERRBLK | CH_BOND_STAT | CH_FEC_CTL | CH_FEC_DEGTHR
  | CH_FEC_SNAP | CH_FEC_CW_LO | CH_FEC_CW_HI | CH_FEC_CSYM_LO | CH_FEC_CSYM_HI | CH_FEC_CBIT_LO
  | CH_FEC_CBIT_HI | CH_FEC_UNC | CH_FEC_LSYM | CH_FEC_STAT | CH_FEC_HIST | CH_ALN_CTL
  | CH_ALN_TIME | CH_ALN_STAT | CH_ALN_CAND | CH_ALN_MIMIC | CH_ALN_OOF_CNT | CH_ALN_ACQ_CNT
  | CH_ALN_CAND_CNT | CH_ALN_VFAIL_CNT | CH_ALN_TIE_CNT | CH_ALN_EVICT_CNT | CH_ALN_ERRFRM_CNT | CH_ALN_MFERR_CNT
  | CH_ALN_MIMIC_CNT | CH_ALN_EVT | CH_OH_CTL | CH_OH_XSEL | CH_OH_FAIL_TIME | CH_OH_LVL_CTL
  | CH_OH_DEGTHR | CH_OH_DEF | CH_OH_FAIL | CH_OH_ACC | CH_OH_ACT | CH_OH_EVT
  | CH_OH_LAST | CH_OH_TTI_EXP | CH_OH_TTI_ACC | CH_OH_TTI_TX | CH_PM_CTL | CH_PM_SEC
  | ODU_OH_CTL | ODU_OH_XSEL | ODU_OH_FAIL_TIME | ODU_OH_LVL_CTL | ODU_OH_DEGTHR | ODU_OH_DEF
  | ODU_OH_FAIL | ODU_OH_ACC | ODU_OH_ACT | ODU_OH_EVT | ODU_OH_LAST | ODU_OH_TTI_EXP
  | ODU_OH_TTI_ACC | ODU_OH_TTI_TX | ODU_PM_CTL | ODU_PM_SEC | STR_CTL | STR_FW_VER
  | STR_MAPS | STR_EPOCH | STR_TASKS_SEC | STR_HEAT_CTL | STR_HEAT_STAT | STR_HEAT_QMAX
  | STR_HEAT_RUN | STR_HEAT_STOLEN | STR_HEAT_MISS | STR_HEAT_LATE | STR_HEAT_SHED | STR_HEAT_LOST
  | STR_HEAT_BUSY | STR_HEAT_TLOG | STR_HEAT_EVT | STR_MISS_DESC | ODU_CFG | ODU_MAP
  | ODU_TS | ODU_STAT | ODU_RATE | ODU_CNT | SL_SRV_CTL | SL_LEARN
  | SL_SRV_STAT | SL_FLXO_EXP0 | SL_FLXO_EXP1 | SL_FLXO_EXP2 | SL_FLXE_GRP0 | SL_FLXE_GRP1
  | SL_FLXE_GRP2 | SL_FLXE_GRP3 | SL_FLXE_GRP_STAT | SL_FLXE_CLI0 | SL_FLXE_CLIS | SL_MSI_ACC
  | SSW_CONN | SSW_PORT | SSW_SLICE | SSW_BRIDGE | FLT_CTX_CTL | FLT_CTX_STG
  | FLT_CTX_SHIFT | FLT_CTX_LOOP | FLT_CTX_RUN_STG | FLT_CTX_RUN_SHIFT | FLT_CTX_RUN_LOOP | FLT_CTX_STAT
  | FLT_CTX_SRC | FLT_CTX_WORD | FLT_CTX_SPRINT | FLT_CTX_DCEST | FLT_CTX_SAT0 | FLT_CTX_SAT1
  | FLT_CTX_EVT | FLT_SYNC_CTL | FLT_SYNC_CMD | FLT_SYNC_LAST | FLT_BANK_FLIP | FLT_BANK_BUSY
  | FLT_BANK_GROW | FLT_CLKOUT | FLT_CLKOUT_F | FLT_ARRAY_STAT | FLT_COEF | CPL_Q_CFG
  | CPL_Q_QUOTA | CPL_Q_HURDLE | CPL_Q_LAG | CPL_Q_CMD | CPL_Q_ARG | CPL_Q_STAT
  | CPL_Q_OCC | CPL_Q_WR | CPL_Q_RD | CPL_Q_REL | CPL_Q_MARK | CPL_Q_RDPTR
  | CPL_Q_CNT_A | CPL_Q_CNT_B | CPL_Q_EVT | CPL_POOL_STAT | CPL_POOL_CELLS | CPL_POOL_FREE
  | CPL_POOL_QSUM | CPL_POOL_STRAND | CPL_POOL_CMD | CPL_BAR2_BASE | CPL_BAR2_STAT | CPL_CE_THR
  | CPL_HOST_OP | CPL_HOST_DATA | CPL_SITE_STAT | CPL_SITE_CE | CPL_SITE_UE | CPL_SITE_RET
  | PRT_GRP_CFG | PRT_GRP_TMR | PRT_GRP_ALN | PRT_GRP_MEM | PRT_GRP_CMD | PRT_GRP_STAT
  | PRT_GRP_SFSD | PRT_GRP_APS_TX | PRT_GRP_APS_RX | PRT_ALN_STAT | PRT_ALN_OFFSET | PRT_ALN_DELAY
  | PRT_ALN_DMIN | PRT_ALN_DMAX | PRT_ALN_NEED | PRT_GRP_SW | PRT_GRP_SWQ | PRT_ALN_CNT
  | PRT_ALN_CNT2 | PRT_GRP_HIT | PRT_GRP_EVT | PRT_HL_BUDGET | PRT_LAP_TX | PAIR_CTL
  | PAIR_HEALTH_CTL | PAIR_BATON_CTL | PAIR_STAT | PAIR_HEALTH | PAIR_EPOCH_SENT | PAIR_EPOCH_APPL
  | PAIR_EPOCH_ACK | PAIR_MSG_LEN | PAIR_SYNC_STAT | PAIR_CMD | PAIR_CNT_APPL | PAIR_CNT_DISC
  | PAIR_CNT_DOWN | PAIR_CNT_TKO | PAIR_CNT_YIELD | PAIR_EVT | CHK_CK_CFG | CHK_CK_POLY_LO
  | CHK_CK_POLY_HI | CHK_CK_INIT_LO | CHK_CK_INIT_HI | CHK_CK_XOR_LO | CHK_CK_XOR_HI | CHK_CK_RUN_LO
  | CHK_CK_RUN_HI | CHK_CK_RES_LO | CHK_CK_RES_HI | CHK_CK_DIN | CHK_CK_DIN8 | CHK_CK_CMD
  | CHK_CK_STAT | CHK_CK_BYTES | CHK_SCAN_CTL | CHK_SCAN_START_LO | CHK_SCAN_START_HI | CHK_SCAN_COUNT
  | CHK_SCAN_STRIDE | CHK_SCAN_CMD | CHK_SCAN_POS | CHK_SCAN_FLAGS | CHK_TBL_CTL | CHK_TBL_LAST
  | CHK_TBL_CNT | CHK_TBL_BAD | CHK_TBL_INJ | CHK_DIGEST | CHK_SCRUB_CTL | CHK_SCRUB_POS
  | CHK_SCRUB_PASS | CHK_SCRUB_CNT | CHK_ALIVE_CNT_A | CHK_ALIVE_CNT_B | CHK_REF_A | CHK_REF_B
  | MTX_MODE | MTX_HANG_LIM | MTX_MRST | MTX_STAT | MTX_PRIO_LO | MTX_PRIO_HI
  | MTX_MSTAT | MTX_HANG_REC | MTX_HANG_ADDR_LO | MTX_HANG_ADDR_HI | MTX_HANG_DTIME | MTX_CNT_A
  | MTX_CNT_B | MTX_CNT_C | MTX_EVT | REC_CTL | REC_STAT | REC_RING_ID_LO
  | REC_RING_ID_HI | REC_SLOTS | REC_SEG_CUR | REC_SEG_SEQ_LO | REC_SEG_SEQ_HI | REC_OLDEST
  | REC_RATE | REC_CNT | REC_REBUILD | REC_CMD | REC_DRV_STAT | REC_DRV_SLOTS
  | REC_DRV_DUW_LO | REC_DRV_DUW_HI | REC_RD_CMD | REC_RD_ARG0 | REC_RD_ARG1 | REC_RD_RES
  | REC_RD_BAD | REC_RD_APER | REC_CAP_BUDGET | REC_EVT | REC_CS_CFG | REC_CS_TRIG
  | REC_CS_TARG | REC_CS_DEPTH | REC_CS_CMD | REC_CS_STAT | REC_CS_CNT | REC_CS_LAST
  | GLB_ID | GLB_STAT | GLB_SCRATCH | GLB_HOST_CTL | GLB_HOST_STAT | GLB_READY_FN
  | GLB_READY_Q_LO | GLB_READY_Q_HI | GLB_READY_SITE | GLB_DTIME_LO | GLB_DTIME_HI | GLB_UC_CMD
  | GLB_UC_STAT | GLB_UC_ST | GLB_EVT_WR | GLB_EVT_RD | GLB_EVT_LOST | GLB_EVT_INT_EN
  | GLB_EVT_PEND | GLB_EVT_MOD | GLB_EVT_VEC | GLB_MSIX_TABLE | GLB_MSIX_PBA | GLB_EVT_RING
  | BOOT_STAT | BOOT_START | BOOT_IMG | BOOT_IMG_CRC | BOOT_JSEQ | BOOT_HIST_SITE
  | BOOT_HIST_QSKIP_LO | BOOT_HIST_QSKIP_HI | BOOT_HIST_QALT_LO | BOOT_HIST_QALT_HI | BOOT_HIST_DRV | BOOT_IMG_BAD
  | BOOT_FS | BOOT_CTL | BOOT_AON | BOOT_CMD | BOOT_FLASH_CMD | BOOT_FLASH_ADDR
  | BOOT_FLASH_DATA | GLB_CLK_CTL | GLB_CLK_STAT | GLB_GDDR_PLL | GLB_TIME_CTL | GLB_PPS_DLY
  | GLB_PAIR_DLY | GLB_DTIME_LOAD_LO | GLB_DTIME_LOAD_HI | GLB_TIME_STAT | GLB_TIME_ERR | GLB_FP_CTL
  | GLB_FP_PERIOD | GLB_FP_PHASE | GLB_PD_RST | GLB_URST | GLB_PD_CMD | GLB_PD_STAT
  | GLB_PD_BOOT | GLB_AVS_CTL | GLB_AVS_STAT | GLB_THERM_CTL | GLB_THERM_STAT | GLB_THERM_T
deriving DecidableEq, Repr

/-- The register tables. R346 gives GLB_UC_ST no bound for w: 256 words a class, those beyond the class's last unit reading
STOPPED (DESIGN CHOICE, log entry 96). -/
def Reg.info : Reg → RegInfo
  -- chapter 02, R49
  | .CH_MODE => ⟨0x01000000, [(192, 0x10000)], .unit, .ch, [⟨0, 8, .rws, 0⟩, ⟨8, 2, .rws, 0⟩, ⟨12, 1, .rws, 0⟩, ⟨16, 10, .rws, 0⟩]⟩
  | .CH_SDS_CTL => ⟨0x01000004, [(192, 0x10000)], .unit, .ch, [⟨0, 1, .rws, 0⟩, ⟨1, 1, .rws, 0⟩, ⟨2, 2, .rws, 0⟩, ⟨4, 1, .rws, 0⟩, ⟨5, 1, .rws, 0⟩, ⟨8, 4, .rws, 0⟩, ⟨12, 4, .rws, 0⟩, ⟨16, 8, .rws, 40⟩]⟩
  | .CH_SDS_TXFFE => ⟨0x01000008, [(192, 0x10000)], .unit, .ch, [⟨0, 8, .rws, 0⟩, ⟨8, 8, .rws, 0xFC⟩, ⟨16, 8, .rws, 0x38⟩, ⟨24, 8, .rws, 0⟩]⟩
  | .CH_SDS_STAT => ⟨0x0100000C, [(192, 0x10000)], (.pd .q), .none, [⟨0, 3, .ro, 0⟩, ⟨3, 1, .ro, 0⟩, ⟨4, 1, .ro, 0⟩, ⟨5, 1, .ro, 0⟩, ⟨6, 1, .ro, 0⟩, ⟨7, 1, .ro, 0⟩, ⟨8, 8, .ro, 0⟩, ⟨16, 10, .ro, 0⟩]⟩
  | .CH_SDS_EVT => ⟨0x01000010, [(192, 0x10000)], (.pd .q), .none, [⟨0, 1, .w1c, 0⟩, ⟨1, 1, .w1c, 0⟩, ⟨2, 1, .w1c, 0⟩, ⟨3, 1, .w1c, 0⟩, ⟨4, 1, .w1c, 0⟩, ⟨5, 1, .w1c, 0⟩]⟩
  | .CH_SDS_PRBS_ERR => ⟨0x01000014, [(192, 0x10000)], (.pd .q), .none, [⟨0, 32, .rc, 0⟩]⟩
  | .CH_PCS_CTL => ⟨0x01000100, [(192, 0x10000)], .unit, .ch, [⟨0, 1, .rws, 0⟩]⟩
  | .CH_PCS_STAT => ⟨0x01000104, [(192, 0x10000)], (.pd .q), .none, [⟨0, 1, .ro, 0⟩, ⟨1, 1, .ro, 0⟩, ⟨2, 1, .ro, 0⟩, ⟨3, 1, .ro, 0⟩, ⟨4, 1, .ro, 0⟩]⟩
  | .CH_PCS_ERRBLK => ⟨0x01000108, [(192, 0x10000)], (.pd .q), .none, [⟨0, 32, .rc, 0⟩]⟩
  | .CH_BOND_STAT => ⟨0x0100010C, [(192, 0x10000)], (.pd .q), .none, [⟨0, 1, .ro, 0⟩, ⟨1, 1, .ro, 0⟩, ⟨8, 8, .ro, 0⟩, ⟨16, 16, .ro, 0⟩]⟩
  | .CH_FEC_CTL => ⟨0x01001000, [(192, 0x10000)], .unit, .ch, [⟨0, 2, .rws, 0⟩, ⟨4, 7, .rws, 10⟩, ⟨12, 4, .rws, 3⟩, ⟨16, 4, .rws, 3⟩, ⟨20, 1, .rws, 1⟩]⟩
  | .CH_FEC_DEGTHR => ⟨0x01001004, [(192, 0x10000)], .unit, .ch, [⟨0, 4, .rws, 1⟩, ⟨4, 4, .rws, 4⟩, ⟨8, 4, .rws, 2⟩, ⟨12, 4, .rws, 5⟩]⟩
  | .CH_FEC_SNAP => ⟨0x01001008, [(192, 0x10000)], (.pd .s), .none, [⟨0, 1, .wo, 0⟩, ⟨1, 1, .ro, 0⟩]⟩
  | .CH_FEC_CW_LO => ⟨0x01001010, [(192, 0x10000)], (.pd .s), .none, [⟨0, 32, .ro, 0⟩]⟩
  | .CH_FEC_CW_HI => ⟨0x01001014, [(192, 0x10000)], (.pd .s), .none, [⟨0, 16, .ro, 0⟩]⟩
  | .CH_FEC_CSYM_LO => ⟨0x01001018, [(192, 0x10000)], (.pd .s), .none, [⟨0, 32, .ro, 0⟩]⟩
  | .CH_FEC_CSYM_HI => ⟨0x0100101C, [(192, 0x10000)], (.pd .s), .none, [⟨0, 16, .ro, 0⟩]⟩
  | .CH_FEC_CBIT_LO => ⟨0x01001020, [(192, 0x10000)], (.pd .s), .none, [⟨0, 32, .ro, 0⟩]⟩
  | .CH_FEC_CBIT_HI => ⟨0x01001024, [(192, 0x10000)], (.pd .s), .none, [⟨0, 16, .ro, 0⟩]⟩
  | .CH_FEC_UNC => ⟨0x01001028, [(192, 0x10000)], (.pd .s), .none, [⟨0, 32, .ro, 0⟩]⟩
  | .CH_FEC_LSYM => ⟨0x0100102C, [(192, 0x10000)], (.pd .s), .none, [⟨0, 32, .ro, 0⟩]⟩
  | .CH_FEC_STAT => ⟨0x01001030, [(192, 0x10000)], (.pd .s), .none, [⟨0, 1, .ro, 0⟩, ⟨4, 4, .ro, 0⟩, ⟨8, 4, .ro, 0⟩]⟩
  | .CH_FEC_HIST => ⟨0x01001040, [(192, 0x10000), (16, 0x4)], (.pd .s), .none, [⟨0, 32, .ro, 0⟩]⟩
  -- chapter 03, R69
  | .CH_ALN_CTL => ⟨0x01002000, [(192, 0x10000)], .unit, .ch, [⟨0, 1, .rws, 1⟩, ⟨1, 1, .rws, 0⟩, ⟨2, 1, .rws, 1⟩, ⟨4, 4, .rws, 0⟩, ⟨8, 4, .rws, 0⟩, ⟨12, 3, .rws, 2⟩, ⟨16, 4, .rws, 4⟩, ⟨20, 4, .rws, 2⟩, ⟨24, 4, .rws, 5⟩]⟩
  | .CH_ALN_TIME => ⟨0x01002004, [(192, 0x10000)], .unit, .ch, [⟨0, 8, .rws, 30⟩, ⟨8, 8, .rws, 30⟩, ⟨16, 8, .rws, 30⟩, ⟨24, 8, .rws, 30⟩]⟩
  | .CH_ALN_STAT => ⟨0x01002008, [(192, 0x10000)], (.pd .s), .none, [⟨0, 2, .ro, 0⟩, ⟨2, 2, .ro, 0⟩, ⟨4, 1, .ro, 0⟩, ⟨5, 1, .ro, 0⟩, ⟨6, 1, .ro, 0⟩, ⟨7, 1, .ro, 0⟩, ⟨8, 4, .ro, 0⟩, ⟨12, 4, .ro, 0⟩, ⟨16, 8, .ro, 0⟩]⟩
  | .CH_ALN_CAND => ⟨0x01002010, [(192, 0x10000), (4, 0x4)], (.pd .s), .none, [⟨0, 21, .ro, 0⟩, ⟨21, 4, .ro, 0⟩, ⟨25, 1, .ro, 0⟩, ⟨26, 1, .ro, 0⟩, ⟨27, 1, .ro, 0⟩, ⟨28, 1, .ro, 0⟩]⟩
  | .CH_ALN_MIMIC => ⟨0x01002020, [(192, 0x10000)], (.pd .s), .none, [⟨0, 21, .ro, 0⟩]⟩
  | .CH_ALN_OOF_CNT => ⟨0x01002030, [(192, 0x10000)], (.pd .s), .none, [⟨0, 32, .rc, 0⟩]⟩
  | .CH_ALN_ACQ_CNT => ⟨0x01002034, [(192, 0x10000)], (.pd .s), .none, [⟨0, 32, .rc, 0⟩]⟩
  | .CH_ALN_CAND_CNT => ⟨0x01002038, [(192, 0x10000)], (.pd .s), .none, [⟨0, 32, .rc, 0⟩]⟩
  | .CH_ALN_VFAIL_CNT => ⟨0x0100203C, [(192, 0x10000)], (.pd .s), .none, [⟨0, 32, .rc, 0⟩]⟩
  | .CH_ALN_TIE_CNT => ⟨0x01002040, [(192, 0x10000)], (.pd .s), .none, [⟨0, 16, .rc, 0⟩, ⟨16, 16, .rc, 0⟩]⟩
  | .CH_ALN_EVICT_CNT => ⟨0x01002044, [(192, 0x10000)], (.pd .s), .none, [⟨0, 16, .rc, 0⟩, ⟨16, 16, .rc, 0⟩]⟩
  | .CH_ALN_ERRFRM_CNT => ⟨0x01002048, [(192, 0x10000)], (.pd .s), .none, [⟨0, 32, .rc, 0⟩]⟩
  | .CH_ALN_MFERR_CNT => ⟨0x0100204C, [(192, 0x10000)], (.pd .s), .none, [⟨0, 32, .rc, 0⟩]⟩
  | .CH_ALN_MIMIC_CNT => ⟨0x01002050, [(192, 0x10000)], (.pd .s), .none, [⟨0, 32, .rc, 0⟩]⟩
  | .CH_ALN_EVT => ⟨0x01002060, [(192, 0x10000)], (.pd .s), .none, [⟨0, 1, .w1c, 0⟩, ⟨1, 1, .w1c, 0⟩, ⟨2, 1, .w1c, 0⟩, ⟨3, 1, .w1c, 0⟩, ⟨4, 1, .w1c, 0⟩, ⟨5, 1, .w1c, 0⟩, ⟨6, 1, .w1c, 0⟩, ⟨7, 1, .w1c, 0⟩]⟩
  -- chapter 04, R96
  | .CH_OH_CTL => ⟨0x01003000, [(192, 0x10000)], .unit, .ch, [⟨0, 8, .rws, 0⟩, ⟨8, 1, .rws, 0⟩, ⟨9, 2, .rws, 0⟩, ⟨11, 1, .rws, 0⟩]⟩
  | .CH_OH_XSEL => ⟨0x01003004, [(192, 0x10000)], .unit, .ch, [⟨0, 6, .rws, 0⟩, ⟨7, 1, .rws, 0⟩, ⟨8, 6, .rws, 0⟩, ⟨15, 1, .rws, 0⟩, ⟨16, 6, .rws, 0⟩, ⟨23, 1, .rws, 0⟩, ⟨24, 6, .rws, 0⟩, ⟨31, 1, .rws, 0⟩]⟩
  | .CH_OH_FAIL_TIME => ⟨0x01003008, [(192, 0x10000)], .unit, .ch, [⟨0, 8, .rws, 25⟩, ⟨8, 8, .rws, 100⟩]⟩
  | .CH_OH_LVL_CTL => ⟨0x01003010, [(192, 0x10000), (8, 0x4)], .unit, .ch, [⟨0, 2, .rws, 0⟩, ⟨2, 2, .rws, 0⟩, ⟨4, 1, .rws, 0⟩, ⟨5, 1, .rws, 1⟩, ⟨6, 1, .rws, 0⟩, ⟨7, 1, .rws, 0⟩, ⟨8, 2, .rws, 0⟩, ⟨10, 4, .rws, 7⟩, ⟨14, 1, .rws, 0⟩]⟩
  | .CH_OH_DEGTHR => ⟨0x01003030, [(192, 0x10000), (8, 0x4)], .unit, .ch, [⟨0, 20, .rws, 1000⟩, ⟨20, 4, .rws, 6⟩, ⟨24, 4, .rws, 3⟩]⟩
  | .CH_OH_DEF => ⟨0x01003050, [(192, 0x10000), (8, 0x4)], (.pd .s), .none, [⟨0, 21, .ro, 0⟩]⟩
  | .CH_OH_FAIL => ⟨0x01003070, [(192, 0x10000), (8, 0x4)], (.pd .s), .none, [⟨0, 21, .ro, 0⟩]⟩
  | .CH_OH_ACC => ⟨0x01003090, [(192, 0x10000)], (.pd .s), .none, [⟨0, 8, .ro, 0⟩, ⟨8, 1, .ro, 0⟩]⟩
  | .CH_OH_ACT => ⟨0x01003094, [(192, 0x10000)], (.pd .s), .none, [⟨0, 8, .ro, 0⟩, ⟨8, 8, .ro, 0⟩, ⟨16, 8, .ro, 0⟩, ⟨24, 3, .ro, 5⟩, ⟨27, 1, .ro, 0⟩]⟩
  | .CH_OH_EVT => ⟨0x010030A0, [(192, 0x10000)], (.pd .s), .none, [⟨0, 8, .w1c, 0⟩, ⟨8, 1, .w1c, 0⟩, ⟨9, 1, .w1c, 0⟩, ⟨10, 1, .w1c, 0⟩]⟩
  | .CH_OH_LAST => ⟨0x01003100, [(192, 0x10000), (16, 0x4)], (.pd .s), .none, [⟨0, 32, .ro, 0⟩]⟩
  | .CH_OH_TTI_EXP => ⟨0x01003400, [(192, 0x10000), (8, 0x40), (16, 0x4)], .unit, .ch, [⟨0, 32, .rws, 0⟩]⟩
  | .CH_OH_TTI_ACC => ⟨0x01003600, [(192, 0x10000), (8, 0x40), (16, 0x4)], (.pd .s), .none, [⟨0, 32, .ro, 0⟩]⟩
  | .CH_OH_TTI_TX => ⟨0x01003800, [(192, 0x10000), (8, 0x40), (16, 0x4)], .unit, .ch, [⟨0, 32, .rws, 0⟩]⟩
  | .CH_PM_CTL => ⟨0x01004000, [(192, 0x10000)], .unit, .ch, [⟨0, 7, .rws, 15⟩, ⟨8, 8, .rws, 0xFF⟩]⟩
  | .CH_PM_SEC => ⟨0x01004100, [(192, 0x10000), (8, 0x20), (8, 0x4)], (.pd .s), .none, [⟨0, 32, .ro, 0⟩]⟩
  | .ODU_OH_CTL => ⟨0x02000400, [(3072, 0x1000)], .unit, .tr, [⟨0, 8, .rws, 0⟩, ⟨8, 1, .rws, 0⟩, ⟨9, 2, .rws, 0⟩, ⟨11, 1, .rws, 0⟩]⟩
  | .ODU_OH_XSEL => ⟨0x02000404, [(3072, 0x1000)], .unit, .tr, [⟨0, 6, .rws, 0⟩, ⟨7, 1, .rws, 0⟩, ⟨8, 6, .rws, 0⟩, ⟨15, 1, .rws, 0⟩, ⟨16, 6, .rws, 0⟩, ⟨23, 1, .rws, 0⟩, ⟨24, 6, .rws, 0⟩, ⟨31, 1, .rws, 0⟩]⟩
  | .ODU_OH_FAIL_TIME => ⟨0x02000408, [(3072, 0x1000)], .unit, .tr, [⟨0, 8, .rws, 25⟩, ⟨8, 8, .rws, 100⟩]⟩
  | .ODU_OH_LVL_CTL => ⟨0x02000410, [(3072, 0x1000), (8, 0x4)], .unit, .tr, [⟨0, 2, .rws, 0⟩, ⟨2, 2, .rws, 0⟩, ⟨4, 1, .rws, 0⟩, ⟨5, 1, .rws, 1⟩, ⟨6, 1, .rws, 0⟩, ⟨7, 1, .rws, 0⟩, ⟨8, 2, .rws, 0⟩, ⟨10, 4, .rws, 7⟩, ⟨14, 1, .rws, 0⟩]⟩
  | .ODU_OH_DEGTHR => ⟨0x02000430, [(3072, 0x1000), (8, 0x4)], .unit, .tr, [⟨0, 20, .rws, 1000⟩, ⟨20, 4, .rws, 6⟩, ⟨24, 4, .rws, 3⟩]⟩
  | .ODU_OH_DEF => ⟨0x02000450, [(3072, 0x1000), (8, 0x4)], (.pd .t), .none, [⟨0, 21, .ro, 0⟩]⟩
  | .ODU_OH_FAIL => ⟨0x02000470, [(3072, 0x1000), (8, 0x4)], (.pd .t), .none, [⟨0, 21, .ro, 0⟩]⟩
  | .ODU_OH_ACC => ⟨0x02000490, [(3072, 0x1000)], (.pd .t), .none, [⟨0, 8, .ro, 0⟩, ⟨8, 1, .ro, 0⟩]⟩
  | .ODU_OH_ACT => ⟨0x02000494, [(3072, 0x1000)], (.pd .t), .none, [⟨0, 8, .ro, 0⟩, ⟨8, 8, .ro, 0⟩, ⟨16, 8, .ro, 0⟩, ⟨24, 3, .ro, 5⟩, ⟨27, 1, .ro, 0⟩]⟩
  | .ODU_OH_EVT => ⟨0x020004A0, [(3072, 0x1000)], (.pd .t), .none, [⟨0, 8, .w1c, 0⟩, ⟨8, 1, .w1c, 0⟩, ⟨9, 1, .w1c, 0⟩, ⟨10, 1, .w1c, 0⟩]⟩
  | .ODU_OH_LAST => ⟨0x02000500, [(3072, 0x1000), (16, 0x4)], (.pd .t), .none, [⟨0, 32, .ro, 0⟩]⟩
  | .ODU_OH_TTI_EXP => ⟨0x02000800, [(3072, 0x1000), (8, 0x40), (16, 0x4)], .unit, .tr, [⟨0, 32, .rws, 0⟩]⟩
  | .ODU_OH_TTI_ACC => ⟨0x02000A00, [(3072, 0x1000), (8, 0x40), (16, 0x4)], (.pd .t), .none, [⟨0, 32, .ro, 0⟩]⟩
  | .ODU_OH_TTI_TX => ⟨0x02000C00, [(3072, 0x1000), (8, 0x40), (16, 0x4)], .unit, .tr, [⟨0, 32, .rws, 0⟩]⟩
  | .ODU_PM_CTL => ⟨0x02000E00, [(3072, 0x1000)], .unit, .tr, [⟨0, 7, .rws, 15⟩, ⟨8, 8, .rws, 0xFF⟩]⟩
  | .ODU_PM_SEC => ⟨0x02000F00, [(3072, 0x1000), (8, 0x20), (8, 0x4)], (.pd .t), .none, [⟨0, 32, .ro, 0⟩]⟩
  -- chapter 05, R120
  | .STR_CTL => ⟨0x00800000, [], .sys, .none, [⟨0, 2, .rw, 2⟩, ⟨2, 2, .rw, 0⟩]⟩
  | .STR_FW_VER => ⟨0x00800004, [], .sys, .none, [⟨0, 8, .ro, 0⟩, ⟨8, 8, .ro, 0⟩, ⟨16, 8, .ro, 0⟩, ⟨24, 8, .ro, 0⟩]⟩
  | .STR_MAPS => ⟨0x00800008, [], .sys, .none, [⟨0, 16, .ro, 0⟩, ⟨16, 16, .ro, 0⟩]⟩
  | .STR_EPOCH => ⟨0x0080000C, [], .sys, .none, [⟨0, 32, .ro, 0⟩]⟩
  | .STR_TASKS_SEC => ⟨0x00800010, [], .sys, .none, [⟨0, 32, .ro, 0⟩]⟩
  | .STR_HEAT_CTL => ⟨0x00800100, [(16, 0x40)], .sys, .none, [⟨0, 1, .rw, 1⟩, ⟨8, 10, .rw, 384⟩, ⟨18, 10, .rw, 768⟩, ⟨28, 4, .rw, 4⟩]⟩
  | .STR_HEAT_STAT => ⟨0x00800104, [(16, 0x40)], .sys, .none, [⟨0, 3, .ro, 0⟩, ⟨3, 1, .ro, 0⟩, ⟨4, 2, .ro, 0⟩, ⟨16, 11, .ro, 0⟩, ⟨27, 5, .ro, 0⟩]⟩
  | .STR_HEAT_QMAX => ⟨0x00800108, [(16, 0x40)], (.pd .hs), .none, [⟨0, 11, .rc, 0⟩]⟩
  | .STR_HEAT_RUN => ⟨0x0080010C, [(16, 0x40)], (.pd .hs), .none, [⟨0, 32, .rc, 0⟩]⟩
  | .STR_HEAT_STOLEN => ⟨0x00800110, [(16, 0x40)], (.pd .hs), .none, [⟨0, 16, .rc, 0⟩, ⟨16, 16, .rc, 0⟩]⟩
  | .STR_HEAT_MISS => ⟨0x00800114, [(16, 0x40)], (.pd .hs), .none, [⟨0, 16, .rc, 0⟩, ⟨16, 16, .rc, 0⟩]⟩
  | .STR_HEAT_LATE => ⟨0x00800118, [(16, 0x40)], (.pd .hs), .none, [⟨0, 16, .rc, 0⟩, ⟨16, 16, .rc, 0⟩]⟩
  | .STR_HEAT_SHED => ⟨0x0080011C, [(16, 0x40)], (.pd .hs), .none, [⟨0, 16, .rc, 0⟩, ⟨16, 16, .rc, 0⟩]⟩
  | .STR_HEAT_LOST => ⟨0x00800120, [(16, 0x40)], (.pd .hs), .none, [⟨0, 16, .rc, 0⟩, ⟨16, 16, .rc, 0⟩]⟩
  | .STR_HEAT_BUSY => ⟨0x00800124, [(16, 0x40)], (.pd .hs), .none, [⟨0, 32, .rc, 0⟩]⟩
  | .STR_HEAT_TLOG => ⟨0x00800128, [(16, 0x40)], (.pd .hs), .none, [⟨0, 32, .rc, 0⟩]⟩
  | .STR_HEAT_EVT => ⟨0x0080012C, [(16, 0x40)], .sys, .none, [⟨0, 1, .w1c, 0⟩, ⟨1, 1, .w1c, 0⟩, ⟨2, 1, .w1c, 0⟩, ⟨3, 1, .w1c, 0⟩, ⟨4, 1, .w1c, 0⟩, ⟨5, 1, .w1c, 0⟩]⟩
  | .STR_MISS_DESC => ⟨0x00800130, [(16, 0x40), (4, 0x4)], (.pd .hs), .none, [⟨0, 32, .ro, 0⟩]⟩
  -- chapter 06, R150
  | .ODU_CFG => ⟨0x02000000, [(3072, 0x1000)], .unit, .tr, [⟨0, 4, .rws, 0⟩, ⟨4, 2, .rws, 0⟩, ⟨6, 1, .rws, 0⟩, ⟨8, 8, .rws, 0⟩, ⟨16, 8, .rws, 0⟩, ⟨24, 8, .rws, 0⟩]⟩
  | .ODU_MAP => ⟨0x02000004, [(3072, 0x1000)], .unit, .tr, [⟨0, 1, .rws, 0⟩, ⟨1, 1, .rws, 0⟩, ⟨2, 10, .rws, 0⟩, ⟨12, 1, .rws, 0⟩, ⟨13, 8, .rws, 0⟩]⟩
  | .ODU_TS => ⟨0x02000010, [(3072, 0x1000), (5, 0x4)], .unit, .tr, [⟨0, 32, .rws, 0⟩]⟩
  | .ODU_STAT => ⟨0x02000040, [(3072, 0x1000)], (.pd .t), .none, [⟨0, 2, .ro, 0⟩, ⟨2, 1, .ro, 0⟩, ⟨3, 1, .ro, 0⟩, ⟨4, 1, .ro, 0⟩, ⟨5, 1, .ro, 0⟩, ⟨8, 8, .ro, 0⟩, ⟨16, 10, .ro, 0⟩]⟩
  | .ODU_RATE => ⟨0x02000044, [(3072, 0x1000)], (.pd .t), .none, [⟨0, 16, .ro, 0⟩]⟩
  | .ODU_CNT => ⟨0x02000048, [(3072, 0x1000)], (.pd .t), .none, [⟨0, 16, .rc, 0⟩, ⟨16, 16, .rc, 0⟩]⟩
  | .SL_SRV_CTL => ⟨0x01C00000, [(8, 0x80000), (24, 0x4)], .unit, .sp, [⟨0, 2, .rws, 0⟩, ⟨2, 1, .rws, 0⟩, ⟨3, 1, .rws, 0⟩, ⟨4, 8, .rws, 0⟩, ⟨12, 10, .rws, 0⟩, ⟨22, 1, .rws, 0⟩, ⟨23, 2, .rws, 1⟩]⟩
  | .SL_LEARN => ⟨0x01C00080, [(8, 0x80000), (24, 0x4)], .unit, .sp, [⟨0, 12, .rws, 0⟩, ⟨12, 12, .rws, 0⟩, ⟨24, 8, .rws, 10⟩]⟩
  | .SL_SRV_STAT => ⟨0x01C00100, [(8, 0x80000), (24, 0x4)], (.pd .sp), .none, [⟨0, 1, .ro, 0⟩, ⟨1, 1, .ro, 0⟩, ⟨2, 1, .ro, 0⟩, ⟨3, 1, .ro, 0⟩, ⟨4, 8, .ro, 0⟩, ⟨12, 8, .ro, 0⟩, ⟨20, 8, .ro, 0⟩]⟩
  | .SL_FLXO_EXP0 => ⟨0x01C00200, [(8, 0x80000), (24, 0x10)], .unit, .sp, [⟨0, 20, .rws, 0⟩]⟩
  | .SL_FLXO_EXP1 => ⟨0x01C00204, [(8, 0x80000), (24, 0x10)], .unit, .sp, [⟨0, 32, .rws, 0⟩]⟩
  | .SL_FLXO_EXP2 => ⟨0x01C00208, [(8, 0x80000), (24, 0x10)], .unit, .sp, [⟨0, 32, .rws, 0⟩]⟩
  | .SL_FLXE_GRP0 => ⟨0x01C00400, [(8, 0x80000), (8, 0x20)], .unit, .fg, [⟨0, 24, .rws, 0⟩, ⟨24, 1, .rws, 0⟩]⟩
  | .SL_FLXE_GRP1 => ⟨0x01C00404, [(8, 0x80000), (8, 0x20)], .unit, .fg, [⟨0, 20, .rws, 0⟩]⟩
  | .SL_FLXE_GRP2 => ⟨0x01C00408, [(8, 0x80000), (8, 0x20)], .unit, .fg, [⟨0, 32, .rws, 0⟩]⟩
  | .SL_FLXE_GRP3 => ⟨0x01C0040C, [(8, 0x80000), (8, 0x20)], .unit, .fg, [⟨0, 32, .rws, 0⟩]⟩
  | .SL_FLXE_GRP_STAT => ⟨0x01C00410, [(8, 0x80000), (8, 0x20)], (.pd .s8), .none, [⟨0, 1, .ro, 0⟩, ⟨1, 1, .ro, 0⟩, ⟨2, 1, .ro, 0⟩, ⟨3, 1, .ro, 0⟩, ⟨4, 1, .ro, 0⟩, ⟨5, 1, .ro, 0⟩, ⟨6, 1, .ro, 0⟩, ⟨7, 1, .ro, 0⟩, ⟨8, 10, .ro, 0⟩]⟩
  | .SL_FLXE_CLI0 => ⟨0x01C00800, [(8, 0x80000), (32, 0x20)], .unit, .fc, [⟨0, 3, .rws, 0⟩, ⟨3, 1, .rws, 0⟩]⟩
  | .SL_FLXE_CLIS => ⟨0x01C00804, [(8, 0x80000), (32, 0x20), (5, 0x4)], .unit, .fc, [⟨0, 32, .rws, 0⟩]⟩
  | .SL_MSI_ACC => ⟨0x01C04000, [(8, 0x80000), (24, 0x400), (160, 0x4)], (.pd .s3840), .none, [⟨0, 8, .ro, 0⟩, ⟨8, 1, .ro, 0⟩]⟩
  | .SSW_CONN => ⟨0x02C00000, [(3264, 0x4)], .unit, .port, [⟨0, 1, .rws, 0⟩, ⟨1, 1, .rws, 0⟩, ⟨2, 12, .rws, 0⟩]⟩
  | .SSW_PORT => ⟨0x02C04000, [(3264, 0x4)], (.pd .port), .none, [⟨0, 10, .ro, 0⟩, ⟨10, 2, .ro, 0⟩, ⟨12, 1, .ro, 0⟩]⟩
  | .SSW_SLICE => ⟨0x02C08000, [(8, 0x4)], (.pd .s1), .none, [⟨0, 12, .ro, 0⟩, ⟨12, 12, .ro, 0⟩]⟩
  | .SSW_BRIDGE => ⟨0x02C08020, [(8, 0x4)], (.pd .s1), .none, [⟨0, 11, .ro, 0⟩]⟩
  -- chapter 07, R183
  | .FLT_CTX_CTL => ⟨0x00400000, [(768, 0x100)], .unit, .fx, [⟨0, 1, .rws, 0⟩, ⟨1, 3, .rws, 2⟩, ⟨4, 1, .rws, 1⟩, ⟨5, 1, .rws, 0⟩, ⟨6, 1, .rws, 0⟩, ⟨8, 3, .rws, 0⟩, ⟨11, 1, .rws, 0⟩, ⟨12, 1, .rws, 0⟩, ⟨14, 5, .rws, 20⟩]⟩
  | .FLT_CTX_STG => ⟨0x00400004, [(768, 0x100)], .unit, .fx, [⟨0, 7, .rws, 16⟩, ⟨7, 2, .rws, 2⟩, ⟨9, 2, .rws, 1⟩, ⟨11, 4, .rws, 1⟩]⟩
  | .FLT_CTX_SHIFT => ⟨0x00400008, [(768, 0x100)], .unit, .fx, [⟨0, 5, .rws, 1⟩, ⟨5, 5, .rws, 16⟩, ⟨10, 5, .rws, 18⟩, ⟨15, 5, .rws, 18⟩, ⟨20, 5, .rws, 18⟩, ⟨25, 5, .rws, 24⟩]⟩
  | .FLT_CTX_LOOP => ⟨0x0040000C, [(768, 0x100)], .unit, .fx, [⟨0, 16, .rws, 0x2000⟩, ⟨16, 16, .rws, 0x40⟩]⟩
  | .FLT_CTX_RUN_STG => ⟨0x00400010, [(768, 0x100)], (.pd .f), .none, [⟨0, 32, .ro, 0⟩]⟩
  | .FLT_CTX_RUN_SHIFT => ⟨0x00400014, [(768, 0x100)], (.pd .f), .none, [⟨0, 32, .ro, 0⟩]⟩
  | .FLT_CTX_RUN_LOOP => ⟨0x00400018, [(768, 0x100)], (.pd .f), .none, [⟨0, 32, .ro, 0⟩]⟩
  | .FLT_CTX_STAT => ⟨0x00400020, [(768, 0x100)], (.pd .f), .none, [⟨0, 2, .ro, 0⟩, ⟨2, 2, .ro, 0⟩, ⟨4, 1, .ro, 0⟩, ⟨5, 1, .ro, 0⟩, ⟨6, 2, .ro, 2⟩, ⟨8, 1, .ro, 0⟩, ⟨9, 1, .ro, 0⟩, ⟨10, 1, .ro, 0⟩, ⟨11, 1, .ro, 0⟩, ⟨12, 2, .ro, 3⟩, ⟨16, 8, .ro, 0⟩, ⟨24, 3, .ro, 0⟩]⟩
  | .FLT_CTX_SRC => ⟨0x00400024, [(768, 0x100)], (.pd .f), .none, [⟨0, 12, .ro, 0⟩, ⟨12, 2, .ro, 0⟩]⟩
  | .FLT_CTX_WORD => ⟨0x00400028, [(768, 0x100)], (.pd .f), .none, [⟨0, 32, .ro, 0⟩]⟩
  | .FLT_CTX_SPRINT => ⟨0x0040002C, [(768, 0x100)], (.pd .f), .none, [⟨0, 32, .ro, 0⟩]⟩
  | .FLT_CTX_DCEST => ⟨0x00400030, [(768, 0x100)], (.pd .f), .none, [⟨0, 24, .ro, 0⟩]⟩
  | .FLT_CTX_SAT0 => ⟨0x00400040, [(768, 0x100)], (.pd .f), .none, [⟨0, 8, .rc, 0⟩, ⟨8, 8, .rc, 0⟩, ⟨16, 8, .rc, 0⟩, ⟨24, 8, .rc, 0⟩]⟩
  | .FLT_CTX_SAT1 => ⟨0x00400044, [(768, 0x100)], (.pd .f), .none, [⟨0, 8, .rc, 0⟩, ⟨8, 8, .rc, 0⟩, ⟨16, 8, .rc, 0⟩]⟩
  | .FLT_CTX_EVT => ⟨0x00400048, [(768, 0x100)], (.pd .f), .none, [⟨0, 1, .w1c, 0⟩, ⟨1, 1, .w1c, 0⟩, ⟨2, 1, .w1c, 0⟩, ⟨3, 1, .w1c, 0⟩, ⟨4, 1, .w1c, 0⟩]⟩
  | .FLT_SYNC_CTL => ⟨0x00430000, [], .sys, .none, [⟨0, 8, .rw, 0⟩, ⟨8, 8, .rw, 0⟩, ⟨16, 1, .rw, 0⟩]⟩
  | .FLT_SYNC_CMD => ⟨0x00430004, [], .sys, .none, [⟨0, 8, .wo, 0⟩, ⟨8, 1, .ro, 0⟩]⟩
  | .FLT_SYNC_LAST => ⟨0x00430008, [], .sys, .none, [⟨0, 32, .ro, 0⟩]⟩
  | .FLT_BANK_FLIP => ⟨0x00430010, [], .sys, .none, [⟨0, 16, .wo, 0⟩, ⟨16, 16, .ro, 0⟩]⟩
  | .FLT_BANK_BUSY => ⟨0x00430014, [], .sys, .none, [⟨0, 16, .ro, 0⟩]⟩
  | .FLT_BANK_GROW => ⟨0x00430020, [(16, 0x4)], .sys, .none, [⟨0, 5, .ro, 17⟩, ⟨5, 5, .ro, 17⟩, ⟨10, 5, .ro, 17⟩, ⟨16, 5, .ro, 17⟩, ⟨21, 5, .ro, 17⟩, ⟨26, 5, .ro, 17⟩]⟩
  | .FLT_CLKOUT => ⟨0x00430040, [(8, 0x4)], .sys, .none, [⟨0, 10, .rw, 0⟩, ⟨10, 1, .rw, 0⟩, ⟨11, 1, .rw, 0⟩]⟩
  | .FLT_CLKOUT_F => ⟨0x00430060, [(8, 0x4)], .sys, .none, [⟨0, 28, .rw, 10000000⟩]⟩
  | .FLT_ARRAY_STAT => ⟨0x00430080, [(2, 0x4)], .sys, .none, [⟨0, 10, .ro, 0⟩, ⟨10, 6, .ro, 0⟩, ⟨16, 7, .ro, 0⟩, ⟨23, 7, .ro, 0⟩]⟩
  | .FLT_COEF => ⟨0x00440000, [(16, 0x200), (2, 0x100), (64, 0x4)], .sys, .none, [⟨0, 18, .rw, 0⟩]⟩
  -- chapter 08, R207
  | .CPL_Q_CFG => ⟨0x00500000, [(4096, 0x40)], .unit, .qu, [⟨0, 1, .rws, 0⟩, ⟨1, 2, .rws, 0⟩, ⟨3, 1, .rws, 0⟩, ⟨4, 1, .rws, 0⟩, ⟨8, 11, .rws, 0⟩, ⟨19, 1, .rws, 0⟩]⟩
  | .CPL_Q_QUOTA => ⟨0x00500004, [(4096, 0x40)], .unit, .qu, [⟨0, 30, .rws, 0⟩]⟩
  | .CPL_Q_HURDLE => ⟨0x00500008, [(4096, 0x40)], .unit, .qu, [⟨0, 30, .rws, 0⟩]⟩
  | .CPL_Q_LAG => ⟨0x0050000C, [(4096, 0x40)], .unit, .qu, [⟨0, 16, .rws, 64⟩, ⟨16, 16, .rws, 4⟩]⟩
  | .CPL_Q_CMD => ⟨0x00500010, [(4096, 0x40)], .sys, .none, [⟨0, 3, .wo, 0⟩]⟩
  | .CPL_Q_ARG => ⟨0x00500014, [(4096, 0x40)], .sys, .none, [⟨0, 32, .rw, 0⟩]⟩
  | .CPL_Q_STAT => ⟨0x00500018, [(4096, 0x40)], .sys, .none, [⟨0, 1, .ro, 0⟩, ⟨1, 2, .ro, 0⟩, ⟨3, 1, .ro, 0⟩, ⟨4, 1, .ro, 0⟩, ⟨5, 1, .ro, 1⟩]⟩
  | .CPL_Q_OCC => ⟨0x0050001C, [(4096, 0x40)], .sys, .none, [⟨0, 30, .ro, 0⟩]⟩
  | .CPL_Q_WR => ⟨0x00500020, [(4096, 0x40)], .sys, .none, [⟨0, 32, .ro, 0⟩]⟩
  | .CPL_Q_RD => ⟨0x00500024, [(4096, 0x40)], .sys, .none, [⟨0, 32, .ro, 0⟩]⟩
  | .CPL_Q_REL => ⟨0x00500028, [(4096, 0x40)], .sys, .none, [⟨0, 32, .ro, 0⟩]⟩
  | .CPL_Q_MARK => ⟨0x0050002C, [(4096, 0x40)], .sys, .none, [⟨0, 32, .ro, 0⟩]⟩
  | .CPL_Q_RDPTR => ⟨0x00500030, [(4096, 0x40)], .sys, .none, [⟨0, 32, .ro, 0xFFFFFFFF⟩]⟩
  | .CPL_Q_CNT_A => ⟨0x00500034, [(4096, 0x40)], .sys, .none, [⟨0, 24, .rc, 0⟩, ⟨24, 8, .rc, 0⟩]⟩
  | .CPL_Q_CNT_B => ⟨0x00500038, [(4096, 0x40)], .sys, .none, [⟨0, 24, .rc, 0⟩, ⟨24, 8, .rc, 0⟩]⟩
  | .CPL_Q_EVT => ⟨0x0050003C, [(4096, 0x40)], .sys, .none, [⟨0, 1, .w1c, 0⟩, ⟨1, 1, .w1c, 0⟩, ⟨2, 1, .w1c, 0⟩, ⟨3, 1, .w1c, 0⟩, ⟨4, 1, .w1c, 0⟩, ⟨5, 1, .w1c, 0⟩]⟩
  | .CPL_POOL_STAT => ⟨0x00540000, [], .sys, .none, [⟨0, 1, .ro, 0⟩, ⟨1, 1, .ro, 0⟩, ⟨2, 1, .ro, 0⟩, ⟨16, 16, .ro, 0⟩]⟩
  | .CPL_POOL_CELLS => ⟨0x00540004, [], .sys, .none, [⟨0, 30, .ro, 0⟩]⟩
  | .CPL_POOL_FREE => ⟨0x00540008, [], .sys, .none, [⟨0, 30, .ro, 0⟩]⟩
  | .CPL_POOL_QSUM => ⟨0x0054000C, [], .sys, .none, [⟨0, 30, .ro, 0⟩]⟩
  | .CPL_POOL_STRAND => ⟨0x00540010, [], .sys, .none, [⟨0, 30, .ro, 0⟩]⟩
  | .CPL_POOL_CMD => ⟨0x00540014, [], .sys, .none, [⟨0, 1, .wo, 0⟩]⟩
  | .CPL_BAR2_BASE => ⟨0x00540020, [], .host, .none, [⟨0, 18, .rw, 0⟩]⟩
  | .CPL_BAR2_STAT => ⟨0x00540024, [], .host, .none, [⟨0, 1, .w1c, 0⟩, ⟨1, 1, .w1c, 0⟩]⟩
  | .CPL_CE_THR => ⟨0x00540028, [], .sys, .none, [⟨0, 32, .rw, 1000⟩]⟩
  | .CPL_HOST_OP => ⟨0x00540200, [], .host, .none, [⟨0, 2, .wo, 0⟩, ⟨4, 12, .rw, 0⟩, ⟨16, 1, .ro, 0⟩, ⟨17, 1, .w1c, 0⟩, ⟨18, 1, .w1c, 0⟩]⟩
  | .CPL_HOST_DATA => ⟨0x00540400, [(112, 0x4)], .host, .none, [⟨0, 32, .rw, 0⟩]⟩
  | .CPL_SITE_STAT => ⟨0x00540100, [(16, 0x10)], .sys, .none, [⟨0, 2, .ro, 0⟩, ⟨2, 1, .ro, 0⟩, ⟨3, 3, .ro, 0⟩, ⟨8, 8, .ro, 0⟩]⟩
  | .CPL_SITE_CE => ⟨0x00540104, [(16, 0x10)], (.pd .g), .none, [⟨0, 32, .rc, 0⟩]⟩
  | .CPL_SITE_UE => ⟨0x00540108, [(16, 0x10)], (.pd .g), .none, [⟨0, 16, .rc, 0⟩, ⟨16, 16, .rc, 0⟩]⟩
  | .CPL_SITE_RET => ⟨0x0054010C, [(16, 0x10)], (.pd .g), .none, [⟨0, 25, .ro, 0⟩]⟩
  -- chapter 09, R235
  | .PRT_GRP_CFG => ⟨0x00200000, [(2048, 0x100)], .unit, .pg, [⟨0, 1, .rws, 0⟩, ⟨1, 2, .rws, 0⟩, ⟨3, 1, .rws, 0⟩, ⟨4, 1, .rws, 1⟩, ⟨5, 3, .rws, 1⟩, ⟨8, 1, .rws, 1⟩, ⟨9, 1, .rws, 0⟩, ⟨10, 1, .rws, 0⟩, ⟨11, 3, .rws, 0⟩, ⟨14, 1, .rws, 0⟩, ⟨15, 2, .rws, 0⟩, ⟨17, 4, .rws, 1⟩]⟩
  | .PRT_GRP_TMR => ⟨0x00200004, [(2048, 0x100)], .unit, .pg, [⟨0, 7, .rws, 0⟩, ⟨8, 10, .rws, 300⟩]⟩
  | .PRT_GRP_ALN => ⟨0x00200008, [(2048, 0x100)], .unit, .pg, [⟨0, 6, .rws, 56⟩, ⟨8, 10, .rws, 640⟩]⟩
  | .PRT_GRP_MEM => ⟨0x00200010, [(2048, 0x100), (16, 0x4)], .unit, .pg, [⟨0, 12, .rws, 0⟩]⟩
  | .PRT_GRP_CMD => ⟨0x00200050, [(2048, 0x100)], .sys, .none, [⟨0, 3, .wo, 0⟩, ⟨3, 4, .wo, 0⟩]⟩
  | .PRT_GRP_STAT => ⟨0x00200054, [(2048, 0x100)], .sys, .none, [⟨0, 4, .ro, 0⟩, ⟨4, 4, .ro, 0⟩, ⟨8, 4, .ro, 0⟩, ⟨12, 4, .ro, 0⟩, ⟨16, 1, .ro, 0⟩, ⟨17, 1, .ro, 0⟩, ⟨18, 1, .ro, 0⟩, ⟨20, 4, .ro, 0⟩]⟩
  | .PRT_GRP_SFSD => ⟨0x00200058, [(2048, 0x100)], .sys, .none, [⟨0, 16, .ro, 0⟩, ⟨16, 16, .ro, 0⟩]⟩
  | .PRT_GRP_APS_TX => ⟨0x0020005C, [(2048, 0x100)], .sys, .none, [⟨0, 32, .ro, 0⟩]⟩
  | .PRT_GRP_APS_RX => ⟨0x00200060, [(2048, 0x100)], .sys, .none, [⟨0, 32, .ro, 0⟩]⟩
  | .PRT_ALN_STAT => ⟨0x00200070, [(2048, 0x100)], .sys, .none, [⟨0, 3, .ro, 0⟩, ⟨3, 1, .ro, 0⟩, ⟨4, 1, .ro, 0⟩, ⟨5, 1, .ro, 0⟩, ⟨6, 1, .ro, 0⟩, ⟨7, 1, .ro, 0⟩, ⟨8, 4, .ro, 0⟩, ⟨12, 4, .ro, 0⟩]⟩
  | .PRT_ALN_OFFSET => ⟨0x00200074, [(2048, 0x100)], .sys, .none, [⟨0, 32, .ro, 0⟩]⟩
  | .PRT_ALN_DELAY => ⟨0x00200078, [(2048, 0x100)], .sys, .none, [⟨0, 32, .ro, 0⟩]⟩
  | .PRT_ALN_DMIN => ⟨0x0020007C, [(2048, 0x100)], .sys, .none, [⟨0, 32, .rc, 0xFFFFFFFF⟩]⟩
  | .PRT_ALN_DMAX => ⟨0x00200080, [(2048, 0x100)], .sys, .none, [⟨0, 32, .rc, 0⟩]⟩
  | .PRT_ALN_NEED => ⟨0x00200084, [(2048, 0x100)], .sys, .none, [⟨0, 30, .ro, 0⟩]⟩
  | .PRT_GRP_SW => ⟨0x00200088, [(2048, 0x100)], .sys, .none, [⟨0, 16, .rc, 0⟩, ⟨16, 16, .rc, 0⟩]⟩
  | .PRT_GRP_SWQ => ⟨0x0020008C, [(2048, 0x100)], .sys, .none, [⟨0, 16, .rc, 0⟩, ⟨16, 16, .rc, 0⟩]⟩
  | .PRT_ALN_CNT => ⟨0x00200090, [(2048, 0x100)], .sys, .none, [⟨0, 16, .rc, 0⟩, ⟨16, 16, .rc, 0⟩]⟩
  | .PRT_ALN_CNT2 => ⟨0x00200094, [(2048, 0x100)], .sys, .none, [⟨0, 16, .rc, 0⟩, ⟨16, 16, .rc, 0⟩]⟩
  | .PRT_GRP_HIT => ⟨0x00200098, [(2048, 0x100)], .sys, .none, [⟨0, 32, .rc, 0⟩]⟩
  | .PRT_GRP_EVT => ⟨0x002000A0, [(2048, 0x100)], .sys, .none, [⟨0, 1, .w1c, 0⟩, ⟨1, 1, .w1c, 0⟩, ⟨2, 1, .w1c, 0⟩, ⟨3, 1, .w1c, 0⟩, ⟨4, 1, .w1c, 0⟩, ⟨5, 1, .w1c, 0⟩, ⟨6, 1, .w1c, 0⟩]⟩
  | .PRT_HL_BUDGET => ⟨0x00280000, [], .sys, .none, [⟨0, 16, .ro, 0⟩, ⟨16, 16, .ro, 0⟩]⟩
  | .PRT_LAP_TX => ⟨0x00284000, [(3264, 0x4)], .unit, .port, [⟨0, 1, .rws, 0⟩, ⟨1, 6, .rws, 56⟩]⟩
  -- chapter 10, R265
  | .PAIR_CTL => ⟨0x00300000, [], .unit, .pa, [⟨0, 1, .rws, 0⟩, ⟨1, 1, .rws, 0⟩, ⟨2, 1, .rws, 0⟩, ⟨4, 4, .rws, 3⟩, ⟨8, 4, .rws, 8⟩, ⟨12, 4, .rws, 4⟩, ⟨16, 8, .rws, 0xFF⟩]⟩
  | .PAIR_HEALTH_CTL => ⟨0x00300004, [], .unit, .pa, [⟨0, 8, .rws, 0x3F⟩]⟩
  | .PAIR_BATON_CTL => ⟨0x00300008, [], .unit, .pa, [⟨0, 4, .rws, 0⟩, ⟨4, 4, .rws, 0⟩]⟩
  | .PAIR_STAT => ⟨0x00300010, [], .sys, .none, [⟨0, 4, .ro, 0⟩, ⟨4, 4, .ro, 0⟩, ⟨8, 1, .ro, 0⟩, ⟨9, 1, .ro, 0⟩, ⟨10, 2, .ro, 0⟩, ⟨12, 1, .ro, 0⟩, ⟨13, 1, .ro, 0⟩, ⟨14, 1, .ro, 0⟩, ⟨15, 1, .ro, 0⟩, ⟨16, 4, .ro, 0⟩]⟩
  | .PAIR_HEALTH => ⟨0x00300014, [], .sys, .none, [⟨0, 8, .ro, 0⟩, ⟨8, 8, .ro, 0⟩]⟩
  | .PAIR_EPOCH_SENT => ⟨0x00300018, [], .sys, .none, [⟨0, 32, .ro, 0⟩]⟩
  | .PAIR_EPOCH_APPL => ⟨0x0030001C, [], .sys, .none, [⟨0, 32, .ro, 0⟩]⟩
  | .PAIR_EPOCH_ACK => ⟨0x00300020, [], .sys, .none, [⟨0, 32, .ro, 0⟩]⟩
  | .PAIR_MSG_LEN => ⟨0x00300024, [], .sys, .none, [⟨0, 21, .ro, 0⟩]⟩
  | .PAIR_SYNC_STAT => ⟨0x00300028, [], .sys, .none, [⟨0, 3, .ro, 0⟩, ⟨3, 3, .ro, 0⟩]⟩
  | .PAIR_CMD => ⟨0x0030002C, [], .sys, .none, [⟨0, 1, .wo, 0⟩]⟩
  | .PAIR_CNT_APPL => ⟨0x00300040, [], .sys, .none, [⟨0, 32, .rc, 0⟩]⟩
  | .PAIR_CNT_DISC => ⟨0x00300044, [], .sys, .none, [⟨0, 16, .rc, 0⟩, ⟨16, 16, .rc, 0⟩]⟩
  | .PAIR_CNT_DOWN => ⟨0x00300048, [], .sys, .none, [⟨0, 16, .rc, 0⟩, ⟨16, 16, .rc, 0⟩]⟩
  | .PAIR_CNT_TKO => ⟨0x0030004C, [], .sys, .none, [⟨0, 16, .rc, 0⟩, ⟨16, 16, .rc, 0⟩]⟩
  | .PAIR_CNT_YIELD => ⟨0x00300050, [], .sys, .none, [⟨0, 16, .rc, 0⟩, ⟨16, 16, .rc, 0⟩]⟩
  | .PAIR_EVT => ⟨0x00300060, [], .sys, .none, [⟨0, 1, .w1c, 0⟩, ⟨1, 1, .w1c, 0⟩, ⟨2, 1, .w1c, 0⟩, ⟨3, 1, .w1c, 0⟩, ⟨4, 1, .w1c, 0⟩, ⟨5, 1, .w1c, 0⟩, ⟨6, 1, .w1c, 0⟩, ⟨7, 1, .w1c, 0⟩]⟩
  -- chapter 11, R282
  | .CHK_CK_CFG => ⟨0x00600000, [(8, 0x40)], (.pd .scan), .none, [⟨0, 7, .rw, 32⟩, ⟨7, 1, .rw, 1⟩, ⟨8, 1, .rw, 1⟩]⟩
  | .CHK_CK_POLY_LO => ⟨0x00600004, [(8, 0x40)], (.pd .scan), .none, [⟨0, 32, .rw, 0x1EDC6F41⟩]⟩
  | .CHK_CK_POLY_HI => ⟨0x00600008, [(8, 0x40)], (.pd .scan), .none, [⟨0, 32, .rw, 0⟩]⟩
  | .CHK_CK_INIT_LO => ⟨0x0060000C, [(8, 0x40)], (.pd .scan), .none, [⟨0, 32, .rw, 0xFFFFFFFF⟩]⟩
  | .CHK_CK_INIT_HI => ⟨0x00600010, [(8, 0x40)], (.pd .scan), .none, [⟨0, 32, .rw, 0⟩]⟩
  | .CHK_CK_XOR_LO => ⟨0x00600014, [(8, 0x40)], (.pd .scan), .none, [⟨0, 32, .rw, 0xFFFFFFFF⟩]⟩
  | .CHK_CK_XOR_HI => ⟨0x00600018, [(8, 0x40)], (.pd .scan), .none, [⟨0, 32, .rw, 0⟩]⟩
  | .CHK_CK_RUN_LO => ⟨0x0060001C, [(8, 0x40)], (.pd .scan), .none, [⟨0, 32, .rw, 0⟩]⟩
  | .CHK_CK_RUN_HI => ⟨0x00600020, [(8, 0x40)], (.pd .scan), .none, [⟨0, 32, .rw, 0⟩]⟩
  | .CHK_CK_RES_LO => ⟨0x00600024, [(8, 0x40)], (.pd .scan), .none, [⟨0, 32, .ro, 0⟩]⟩
  | .CHK_CK_RES_HI => ⟨0x00600028, [(8, 0x40)], (.pd .scan), .none, [⟨0, 32, .ro, 0⟩]⟩
  | .CHK_CK_DIN => ⟨0x0060002C, [(8, 0x40)], (.pd .scan), .none, [⟨0, 32, .wo, 0⟩]⟩
  | .CHK_CK_DIN8 => ⟨0x00600030, [(8, 0x40)], (.pd .scan), .none, [⟨0, 8, .wo, 0⟩]⟩
  | .CHK_CK_CMD => ⟨0x00600034, [(8, 0x40)], (.pd .scan), .none, [⟨0, 2, .wo, 0⟩, ⟨4, 3, .wo, 0⟩]⟩
  | .CHK_CK_STAT => ⟨0x00600038, [(8, 0x40)], (.pd .scan), .none, [⟨0, 1, .ro, 0⟩, ⟨1, 1, .w1c, 0⟩]⟩
  | .CHK_CK_BYTES => ⟨0x0060003C, [(8, 0x40)], (.pd .scan), .none, [⟨0, 32, .ro, 0⟩]⟩
  | .CHK_SCAN_CTL => ⟨0x00600200, [], (.pd .scan), .none, [⟨0, 8, .rw, 0⟩, ⟨8, 3, .rw, 0⟩, ⟨11, 1, .rw, 0⟩, ⟨12, 10, .rw, 128⟩]⟩
  | .CHK_SCAN_START_LO => ⟨0x00600204, [], (.pd .scan), .none, [⟨0, 32, .rw, 0⟩]⟩
  | .CHK_SCAN_START_HI => ⟨0x00600208, [], (.pd .scan), .none, [⟨0, 6, .rw, 0⟩]⟩
  | .CHK_SCAN_COUNT => ⟨0x0060020C, [], (.pd .scan), .none, [⟨0, 32, .rw, 0⟩]⟩
  | .CHK_SCAN_STRIDE => ⟨0x00600210, [], (.pd .scan), .none, [⟨0, 32, .rw, 512⟩]⟩
  | .CHK_SCAN_CMD => ⟨0x00600214, [], (.pd .scan), .none, [⟨0, 2, .wo, 0⟩, ⟨2, 1, .ro, 0⟩, ⟨3, 2, .ro, 0⟩]⟩
  | .CHK_SCAN_POS => ⟨0x00600218, [], (.pd .scan), .none, [⟨0, 32, .ro, 0⟩]⟩
  | .CHK_SCAN_FLAGS => ⟨0x0060021C, [], (.pd .scan), .none, [⟨0, 16, .rc, 0⟩, ⟨16, 16, .rc, 0⟩]⟩
  | .CHK_TBL_CTL => ⟨0x00600300, [], .sys, .none, [⟨0, 1, .rw, 1⟩, ⟨8, 8, .rw, 10⟩]⟩
  | .CHK_TBL_LAST => ⟨0x00600304, [], (.pd .scan), .none, [⟨0, 10, .ro, 0⟩, ⟨16, 16, .ro, 0⟩]⟩
  | .CHK_TBL_CNT => ⟨0x00600308, [], (.pd .scan), .none, [⟨0, 16, .rc, 0⟩, ⟨16, 8, .rc, 0⟩, ⟨24, 8, .rc, 0⟩]⟩
  | .CHK_TBL_BAD => ⟨0x0060030C, [], (.pd .scan), .none, [⟨0, 10, .ro, 0⟩]⟩
  | .CHK_TBL_INJ => ⟨0x00600310, [], (.pd .scan), .none, [⟨0, 10, .wo, 0⟩, ⟨10, 1, .wo, 0⟩, ⟨11, 1, .wo, 0⟩]⟩
  | .CHK_DIGEST => ⟨0x00600314, [], .aon, .none, [⟨0, 32, .ro, 0⟩]⟩
  | .CHK_SCRUB_CTL => ⟨0x00600400, [], (.pd .scan), .none, [⟨0, 7, .rw, 64⟩]⟩
  | .CHK_SCRUB_POS => ⟨0x00600404, [], (.pd .scan), .none, [⟨0, 32, .ro, 0⟩]⟩
  | .CHK_SCRUB_PASS => ⟨0x00600408, [], (.pd .scan), .none, [⟨0, 32, .ro, 0⟩]⟩
  | .CHK_SCRUB_CNT => ⟨0x0060040C, [], (.pd .scan), .none, [⟨0, 16, .rc, 0⟩, ⟨16, 16, .rc, 0⟩]⟩
  | .CHK_ALIVE_CNT_A => ⟨0x00600500, [(3, 0x8)], .sys, .none, [⟨0, 16, .rc, 0⟩, ⟨16, 16, .rc, 0⟩]⟩
  | .CHK_ALIVE_CNT_B => ⟨0x00600504, [(3, 0x8)], .sys, .none, [⟨0, 16, .rc, 0⟩, ⟨16, 16, .rc, 0⟩]⟩
  | .CHK_REF_A => ⟨0x00601000, [(912, 0x4)], .aon, .none, [⟨0, 32, .ro, 0⟩]⟩
  | .CHK_REF_B => ⟨0x00602000, [(912, 0x4)], .aon, .none, [⟨0, 32, .ro, 0⟩]⟩
  -- chapter 12, R300
  | .MTX_MODE => ⟨0x00100000, [], .sys, .none, [⟨0, 1, .rw, 1⟩, ⟨8, 1, .ro, 1⟩, ⟨9, 1, .ro, 0⟩]⟩
  | .MTX_HANG_LIM => ⟨0x00100004, [], .sys, .none, [⟨0, 24, .rw, 65536⟩]⟩
  | .MTX_MRST => ⟨0x00100008, [], .sys, .none, [⟨5, 1, .wo, 0⟩, ⟨6, 1, .wo, 0⟩, ⟨9, 1, .wo, 0⟩]⟩
  | .MTX_STAT => ⟨0x0010000C, [], .sys, .none, [⟨0, 10, .ro, 0⟩, ⟨16, 1, .ro, 0⟩, ⟨17, 1, .ro, 0⟩]⟩
  | .MTX_PRIO_LO => ⟨0x00100100, [(10, 0x8)], .sys, .none, [⟨0, 4, .rw, 8⟩, ⟨4, 4, .rw, 8⟩, ⟨8, 4, .rw, 8⟩, ⟨12, 4, .rw, 8⟩, ⟨16, 4, .rw, 8⟩, ⟨20, 4, .rw, 8⟩, ⟨24, 4, .rw, 8⟩, ⟨28, 4, .rw, 8⟩]⟩
  | .MTX_PRIO_HI => ⟨0x00100104, [(10, 0x8)], .sys, .none, [⟨0, 4, .rw, 8⟩, ⟨4, 4, .rw, 8⟩]⟩
  | .MTX_MSTAT => ⟨0x00100200, [(10, 0x4)], .sys, .none, [⟨0, 5, .ro, 0⟩, ⟨5, 1, .ro, 0⟩, ⟨6, 1, .ro, 0⟩, ⟨7, 1, .ro, 0⟩]⟩
  | .MTX_HANG_REC => ⟨0x00100300, [], .sys, .none, [⟨0, 1, .w1c, 0⟩, ⟨1, 1, .ro, 0⟩, ⟨2, 1, .ro, 0⟩, ⟨3, 1, .ro, 0⟩, ⟨4, 4, .ro, 0⟩, ⟨8, 4, .ro, 0⟩, ⟨12, 4, .ro, 0⟩, ⟨16, 5, .ro, 0⟩]⟩
  | .MTX_HANG_ADDR_LO => ⟨0x00100304, [], .sys, .none, [⟨0, 32, .ro, 0⟩]⟩
  | .MTX_HANG_ADDR_HI => ⟨0x00100308, [], .sys, .none, [⟨0, 12, .ro, 0⟩]⟩
  | .MTX_HANG_DTIME => ⟨0x0010030C, [], .sys, .none, [⟨0, 32, .ro, 0⟩]⟩
  | .MTX_CNT_A => ⟨0x00100320, [], .sys, .none, [⟨0, 16, .rc, 0⟩, ⟨16, 16, .rc, 0⟩]⟩
  | .MTX_CNT_B => ⟨0x00100324, [], .sys, .none, [⟨0, 16, .rc, 0⟩, ⟨16, 16, .rc, 0⟩]⟩
  | .MTX_CNT_C => ⟨0x00100328, [], .sys, .none, [⟨0, 16, .rc, 0⟩, ⟨16, 16, .rc, 0⟩]⟩
  | .MTX_EVT => ⟨0x00100340, [], .sys, .none, [⟨0, 1, .w1c, 0⟩, ⟨1, 1, .w1c, 0⟩, ⟨2, 1, .w1c, 0⟩, ⟨3, 1, .w1c, 0⟩, ⟨4, 1, .w1c, 0⟩, ⟨5, 1, .w1c, 0⟩, ⟨6, 1, .w1c, 0⟩]⟩
  -- chapter 13, R328
  | .REC_CTL => ⟨0x00700000, [], .unit, .re, [⟨0, 1, .rws, 1⟩, ⟨1, 2, .rws, 0⟩, ⟨3, 1, .rws, 1⟩, ⟨4, 6, .rws, 1⟩, ⟨10, 8, .rws, 20⟩, ⟨18, 7, .rws, 80⟩]⟩
  | .REC_STAT => ⟨0x00700004, [], (.pd .recEng), .none, [⟨0, 3, .ro, 0⟩, ⟨3, 1, .ro, 0⟩, ⟨4, 1, .ro, 0⟩, ⟨5, 1, .ro, 0⟩, ⟨8, 4, .ro, 0⟩]⟩
  | .REC_RING_ID_LO => ⟨0x00700008, [], (.pd .recEng), .none, [⟨0, 32, .ro, 0⟩]⟩
  | .REC_RING_ID_HI => ⟨0x0070000C, [], (.pd .recEng), .none, [⟨0, 32, .ro, 0⟩]⟩
  | .REC_SLOTS => ⟨0x00700010, [], (.pd .recEng), .none, [⟨0, 19, .ro, 0⟩]⟩
  | .REC_SEG_CUR => ⟨0x00700014, [], (.pd .recEng), .none, [⟨0, 19, .ro, 0⟩]⟩
  | .REC_SEG_SEQ_LO => ⟨0x00700018, [], (.pd .recEng), .none, [⟨0, 32, .ro, 0⟩]⟩
  | .REC_SEG_SEQ_HI => ⟨0x0070001C, [], (.pd .recEng), .none, [⟨0, 32, .ro, 0⟩]⟩
  | .REC_OLDEST => ⟨0x00700020, [], (.pd .recEng), .none, [⟨0, 32, .ro, 0⟩]⟩
  | .REC_RATE => ⟨0x00700024, [], (.pd .recEng), .none, [⟨0, 32, .ro, 0⟩]⟩
  | .REC_CNT => ⟨0x00700028, [], (.pd .recEng), .none, [⟨0, 16, .rc, 0⟩, ⟨16, 16, .rc, 0⟩]⟩
  | .REC_REBUILD => ⟨0x0070002C, [], (.pd .recEng), .none, [⟨0, 19, .ro, 0⟩, ⟨19, 1, .ro, 0⟩, ⟨20, 8, .ro, 0⟩]⟩
  | .REC_CMD => ⟨0x00700030, [], .sys, .none, [⟨0, 3, .wo, 0⟩, ⟨16, 16, .wo, 0⟩]⟩
  | .REC_DRV_STAT => ⟨0x00700040, [(4, 0x10)], (.pd .recEng), .none, [⟨0, 2, .ro, 0⟩, ⟨2, 2, .ro, 0⟩, ⟨4, 1, .ro, 0⟩, ⟨5, 1, .ro, 0⟩, ⟨8, 4, .ro, 0⟩, ⟨12, 8, .ro, 0⟩, ⟨20, 8, .ro, 0⟩]⟩
  | .REC_DRV_SLOTS => ⟨0x00700044, [(4, 0x10)], (.pd .recEng), .none, [⟨0, 19, .ro, 0⟩]⟩
  | .REC_DRV_DUW_LO => ⟨0x00700048, [(4, 0x10)], (.pd .recEng), .none, [⟨0, 32, .ro, 0⟩]⟩
  | .REC_DRV_DUW_HI => ⟨0x0070004C, [(4, 0x10)], (.pd .recEng), .none, [⟨0, 32, .ro, 0⟩]⟩
  | .REC_RD_CMD => ⟨0x00700080, [], .sys, .none, [⟨0, 3, .wo, 0⟩, ⟨3, 1, .ro, 0⟩, ⟨4, 3, .ro, 0⟩, ⟨7, 1, .rw, 0⟩, ⟨8, 8, .rw, 1⟩, ⟨16, 16, .ro, 0⟩]⟩
  | .REC_RD_ARG0 => ⟨0x00700084, [], .sys, .none, [⟨0, 32, .rw, 0⟩]⟩
  | .REC_RD_ARG1 => ⟨0x00700088, [], .sys, .none, [⟨0, 14, .rw, 0⟩]⟩
  | .REC_RD_RES => ⟨0x0070008C, [], .sys, .none, [⟨0, 19, .ro, 0⟩, ⟨19, 1, .ro, 0⟩]⟩
  | .REC_RD_BAD => ⟨0x00700090, [(4, 0x4)], .sys, .none, [⟨0, 32, .ro, 0⟩]⟩
  | .REC_RD_APER => ⟨0x00780000, [(131072, 0x4)], .sys, .none, [⟨0, 32, .ro, 0⟩]⟩
  | .REC_CAP_BUDGET => ⟨0x00700100, [], .sys, .none, [⟨0, 16, .ro, 0⟩, ⟨16, 16, .ro, 448⟩]⟩
  | .REC_EVT => ⟨0x007000C0, [], .sys, .none, [⟨0, 1, .w1c, 0⟩, ⟨1, 1, .w1c, 0⟩, ⟨2, 1, .w1c, 0⟩, ⟨3, 1, .w1c, 0⟩, ⟨4, 1, .w1c, 0⟩, ⟨5, 1, .w1c, 0⟩, ⟨6, 1, .w1c, 0⟩]⟩
  | .REC_CS_CFG => ⟨0x00701000, [(64, 0x40)], .unit, .cs, [⟨0, 1, .rws, 0⟩, ⟨1, 1, .rws, 0⟩, ⟨2, 2, .rws, 0⟩, ⟨8, 8, .rws, 0⟩]⟩
  | .REC_CS_TRIG => ⟨0x00701004, [(64, 0x40)], .unit, .cs, [⟨0, 32, .rws, 0⟩]⟩
  | .REC_CS_TARG => ⟨0x00701008, [(64, 0x40)], .unit, .cs, [⟨0, 32, .rws, 0⟩]⟩
  | .REC_CS_DEPTH => ⟨0x0070100C, [(64, 0x40)], .unit, .cs, [⟨0, 16, .rws, 0⟩, ⟨16, 16, .rws, 0⟩]⟩
  | .REC_CS_CMD => ⟨0x00701010, [(64, 0x40)], .sys, .none, [⟨0, 2, .wo, 0⟩]⟩
  | .REC_CS_STAT => ⟨0x00701014, [(64, 0x40)], (.pd .capt), .none, [⟨0, 3, .ro, 0⟩, ⟨3, 5, .ro, 0⟩, ⟨16, 16, .ro, 0⟩]⟩
  | .REC_CS_CNT => ⟨0x00701018, [(64, 0x40)], (.pd .capt), .none, [⟨0, 16, .rc, 0⟩, ⟨16, 16, .rc, 0⟩]⟩
  | .REC_CS_LAST => ⟨0x0070101C, [(64, 0x40)], (.pd .capt), .none, [⟨0, 16, .ro, 0⟩, ⟨16, 1, .ro, 0⟩, ⟨17, 1, .ro, 0⟩]⟩
  -- chapter 14, R346
  | .GLB_ID => ⟨0x00000000, [], .aon, .none, [⟨0, 8, .ro, 0x11⟩, ⟨8, 16, .ro, 0x9192⟩, ⟨24, 8, .ro, 1⟩]⟩
  | .GLB_STAT => ⟨0x00000004, [], .sys, .none, [⟨0, 1, .ro, 0⟩, ⟨1, 1, .ro, 0⟩, ⟨2, 1, .ro, 0⟩, ⟨3, 1, .ro, 0⟩]⟩
  | .GLB_SCRATCH => ⟨0x00000008, [], .sys, .none, [⟨0, 32, .rw, 0⟩]⟩
  | .GLB_HOST_CTL => ⟨0x00000010, [], .host, .none, [⟨0, 14, .rw, 40⟩, ⟨14, 1, .rw, 1⟩]⟩
  | .GLB_HOST_STAT => ⟨0x00000014, [], .host, .none, [⟨0, 1, .ro, 0⟩, ⟨1, 3, .ro, 0⟩, ⟨4, 2, .ro, 0⟩, ⟨6, 1, .ro, 0⟩, ⟨7, 1, .ro, 0⟩, ⟨8, 1, .ro, 0⟩]⟩
  | .GLB_READY_FN => ⟨0x00000100, [], .sys, .none, [⟨0, 1, .ro, 0⟩, ⟨1, 1, .ro, 0⟩, ⟨2, 1, .ro, 0⟩, ⟨3, 1, .ro, 0⟩, ⟨4, 1, .ro, 0⟩, ⟨5, 1, .ro, 0⟩, ⟨6, 1, .ro, 0⟩, ⟨7, 1, .ro, 0⟩, ⟨8, 1, .ro, 0⟩, ⟨9, 1, .ro, 0⟩, ⟨10, 1, .ro, 0⟩, ⟨11, 1, .ro, 0⟩, ⟨12, 1, .ro, 0⟩]⟩
  | .GLB_READY_Q_LO => ⟨0x00000104, [], .sys, .none, [⟨0, 32, .ro, 0⟩]⟩
  | .GLB_READY_Q_HI => ⟨0x00000108, [], .sys, .none, [⟨0, 16, .ro, 0⟩]⟩
  | .GLB_READY_SITE => ⟨0x0000010C, [], .sys, .none, [⟨0, 16, .ro, 0⟩]⟩
  | .GLB_DTIME_LO => ⟨0x00000200, [], .aon, .none, [⟨0, 32, .ro, 0⟩]⟩
  | .GLB_DTIME_HI => ⟨0x00000204, [], .aon, .none, [⟨0, 32, .ro, 0⟩]⟩
  | .GLB_UC_CMD => ⟨0x00001000, [], .sys, .none, [⟨0, 2, .wo, 0⟩, ⟨4, 4, .wo, 0⟩, ⟨8, 12, .wo, 0⟩]⟩
  | .GLB_UC_STAT => ⟨0x00001004, [], .sys, .none, [⟨0, 1, .ro, 0⟩, ⟨1, 3, .ro, 0⟩, ⟨4, 1, .w1c, 0⟩, ⟨8, 8, .ro, 0⟩, ⟨16, 4, .ro, 0⟩, ⟨20, 12, .ro, 0⟩]⟩
  | .GLB_UC_ST => ⟨0x00002400, [(9, 0x400), (256, 0x4)], .sys, .none, [⟨0, 32, .ro, 0xAAAAAAAA⟩]⟩
  | .GLB_EVT_WR => ⟨0x00008000, [], .sys, .none, [⟨0, 32, .ro, 0⟩]⟩
  | .GLB_EVT_RD => ⟨0x00008004, [], .sys, .none, [⟨0, 32, .rw, 0⟩]⟩
  | .GLB_EVT_LOST => ⟨0x00008008, [], .sys, .none, [⟨0, 32, .rc, 0⟩]⟩
  | .GLB_EVT_INT_EN => ⟨0x0000800C, [], .host, .none, [⟨1, 15, .rw, 0⟩]⟩
  | .GLB_EVT_PEND => ⟨0x00008010, [], .sys, .none, [⟨1, 15, .w1c, 0⟩]⟩
  | .GLB_EVT_MOD => ⟨0x00008014, [], .host, .none, [⟨0, 16, .rw, 0⟩]⟩
  | .GLB_EVT_VEC => ⟨0x00008044, [(15, 0x4)], .host, .none, [⟨0, 6, .rw, 0⟩]⟩
  | .GLB_MSIX_TABLE => ⟨0x0000C000, [(64, 0x10), (4, 0x4)], .host, .none, [⟨0, 32, .rw, 0⟩]⟩
  | .GLB_MSIX_PBA => ⟨0x0000D000, [(2, 0x4)], .host, .none, [⟨0, 32, .ro, 0⟩]⟩
  | .GLB_EVT_RING => ⟨0x00040000, [(4096, 0x20), (8, 0x4)], .sys, .none, [⟨0, 32, .ro, 0⟩]⟩
  -- chapter 15, R369
  | .BOOT_STAT => ⟨0x00900000, [], .sys, .none, [⟨0, 4, .ro, 0⟩, ⟨4, 2, .ro, 0⟩, ⟨6, 1, .ro, 0⟩, ⟨7, 1, .ro, 0⟩, ⟨8, 1, .ro, 0⟩, ⟨9, 1, .ro, 0⟩, ⟨10, 6, .ro, 0⟩]⟩
  | .BOOT_START => ⟨0x00900004, [], .sys, .none, [⟨0, 32, .ro, 0⟩]⟩
  | .BOOT_IMG => ⟨0x00900008, [], .sys, .none, [⟨0, 32, .ro, 0⟩]⟩
  | .BOOT_IMG_CRC => ⟨0x0090000C, [], .sys, .none, [⟨0, 32, .ro, 0⟩]⟩
  | .BOOT_JSEQ => ⟨0x00900010, [], .sys, .none, [⟨0, 32, .ro, 0⟩]⟩
  | .BOOT_HIST_SITE => ⟨0x00900014, [], .sys, .none, [⟨0, 16, .ro, 0⟩, ⟨16, 8, .ro, 0⟩]⟩
  | .BOOT_HIST_QSKIP_LO => ⟨0x00900018, [], .sys, .none, [⟨0, 32, .ro, 0⟩]⟩
  | .BOOT_HIST_QSKIP_HI => ⟨0x0090001C, [], .sys, .none, [⟨0, 16, .ro, 0⟩]⟩
  | .BOOT_HIST_QALT_LO => ⟨0x00900020, [], .sys, .none, [⟨0, 32, .ro, 0⟩]⟩
  | .BOOT_HIST_QALT_HI => ⟨0x00900024, [], .sys, .none, [⟨0, 16, .ro, 0⟩]⟩
  | .BOOT_HIST_DRV => ⟨0x00900028, [], .sys, .none, [⟨0, 4, .ro, 0⟩]⟩
  | .BOOT_IMG_BAD => ⟨0x0090002C, [], .sys, .none, [⟨0, 2, .ro, 0⟩]⟩
  | .BOOT_FS => ⟨0x00900040, [(10, 0x4)], .sys, .none, [⟨0, 2, .ro, 0⟩, ⟨2, 4, .ro, 0⟩, ⟨6, 3, .ro, 0⟩]⟩
  | .BOOT_CTL => ⟨0x00900100, [], .aon, .none, [⟨0, 2, .rw, 0⟩, ⟨2, 1, .rw, 1⟩]⟩
  | .BOOT_AON => ⟨0x00900104, [], .aon, .none, [⟨0, 4, .ro, 0⟩, ⟨4, 1, .ro, 0⟩, ⟨5, 3, .ro, 0⟩, ⟨8, 1, .ro, 0⟩]⟩
  | .BOOT_CMD => ⟨0x00900108, [], .sys, .none, [⟨0, 2, .wo, 0⟩, ⟨16, 16, .wo, 0⟩]⟩
  | .BOOT_FLASH_CMD => ⟨0x00900200, [], .sys, .none, [⟨0, 2, .wo, 0⟩, ⟨2, 1, .ro, 0⟩, ⟨3, 1, .w1c, 0⟩, ⟨4, 1, .w1c, 0⟩]⟩
  | .BOOT_FLASH_ADDR => ⟨0x00900204, [], .sys, .none, [⟨0, 28, .rw, 0⟩]⟩
  | .BOOT_FLASH_DATA => ⟨0x00900300, [(64, 0x4)], .sys, .none, [⟨0, 32, .rw, 0⟩]⟩
  -- chapter 16, R392
  | .GLB_CLK_CTL => ⟨0x00080000, [], .aon, .none, [⟨0, 1, .rw, 0⟩, ⟨1, 1, .rw, 1⟩, ⟨2, 1, .rw, 0⟩]⟩
  | .GLB_CLK_STAT => ⟨0x00080004, [], .aon, .none, [⟨0, 2, .ro, 0⟩, ⟨2, 1, .ro, 0⟩, ⟨3, 1, .ro, 0⟩, ⟨4, 1, .ro, 0⟩, ⟨16, 1, .ro, 0⟩, ⟨17, 1, .ro, 0⟩, ⟨18, 1, .ro, 0⟩]⟩
  | .GLB_GDDR_PLL => ⟨0x00080008, [], .aon, .none, [⟨0, 16, .ro, 0⟩]⟩
  | .GLB_TIME_CTL => ⟨0x00080100, [], .aon, .none, [⟨0, 2, .rw, 0⟩, ⟨2, 2, .rw, 0⟩, ⟨4, 1, .rw, 0⟩, ⟨8, 20, .rw, 1000⟩]⟩
  | .GLB_PPS_DLY => ⟨0x00080104, [], .aon, .none, [⟨0, 16, .rw, 0⟩]⟩
  | .GLB_PAIR_DLY => ⟨0x00080108, [], .aon, .none, [⟨0, 16, .rw, 0⟩]⟩
  | .GLB_DTIME_LOAD_LO => ⟨0x0008010C, [], .aon, .none, [⟨0, 32, .rw, 0⟩]⟩
  | .GLB_DTIME_LOAD_HI => ⟨0x00080110, [], .aon, .none, [⟨0, 32, .rw, 0⟩]⟩
  | .GLB_TIME_STAT => ⟨0x00080114, [], .aon, .none, [⟨0, 1, .ro, 0⟩, ⟨1, 1, .ro, 0⟩, ⟨2, 2, .ro, 0⟩, ⟨4, 1, .w1c, 0⟩, ⟨5, 1, .ro, 0⟩]⟩
  | .GLB_TIME_ERR => ⟨0x00080118, [], .aon, .none, [⟨0, 32, .ro, 0⟩]⟩
  | .GLB_FP_CTL => ⟨0x00080140, [(2, 0x10)], .aon, .none, [⟨0, 1, .rw, 0⟩, ⟨8, 8, .rw, 25⟩]⟩
  | .GLB_FP_PERIOD => ⟨0x00080144, [(2, 0x10)], .aon, .none, [⟨0, 30, .rw, 1000000000⟩]⟩
  | .GLB_FP_PHASE => ⟨0x00080148, [(2, 0x10)], .aon, .none, [⟨0, 30, .rw, 0⟩]⟩
  | .GLB_PD_RST => ⟨0x00080200, [], .sys, .none, [⟨0, 7, .wo, 0⟩, ⟨16, 16, .wo, 0⟩]⟩
  | .GLB_URST => ⟨0x00080204, [], .sys, .none, [⟨0, 4, .wo, 0⟩, ⟨4, 12, .wo, 0⟩, ⟨16, 16, .wo, 0⟩]⟩
  | .GLB_PD_CMD => ⟨0x00080300, [], .sys, .none, [⟨0, 7, .wo, 0⟩, ⟨7, 1, .wo, 0⟩, ⟨8, 1, .ro, 0⟩, ⟨9, 1, .w1c, 0⟩]⟩
  | .GLB_PD_STAT => ⟨0x00080310, [(3, 0x4)], .sys, .none, [⟨0, 32, .ro, 0⟩]⟩
  | .GLB_PD_BOOT => ⟨0x00080320, [(3, 0x4)], .sys, .none, [⟨0, 32, .rw, 0⟩]⟩
  | .GLB_AVS_CTL => ⟨0x00080400, [], .sys, .none, [⟨0, 1, .rw, 1⟩, ⟨8, 10, .rw, 680⟩, ⟨18, 10, .rw, 800⟩]⟩
  | .GLB_AVS_STAT => ⟨0x00080404, [], .sys, .none, [⟨0, 10, .ro, 750⟩, ⟨10, 1, .ro, 0⟩]⟩
  | .GLB_THERM_CTL => ⟨0x00080500, [], .sys, .none, [⟨0, 8, .rw, 100⟩, ⟨8, 4, .rw, 5⟩]⟩
  | .GLB_THERM_STAT => ⟨0x00080504, [], .sys, .none, [⟨0, 1, .ro, 0⟩, ⟨1, 1, .ro, 0⟩, ⟨4, 4, .ro, 0⟩, ⟨16, 16, .ro, 0⟩]⟩
  | .GLB_THERM_T => ⟨0x00080510, [(16, 0x4)], .sys, .none, [⟨0, 16, .ro, 0⟩, ⟨16, 16, .rc, 0⟩]⟩

/-- Registers 0 to 29 in table order. -/
def Reg.table0 : List Reg :=
  [.CH_MODE, .CH_SDS_CTL, .CH_SDS_TXFFE, .CH_SDS_STAT, .CH_SDS_EVT, .CH_SDS_PRBS_ERR, .CH_PCS_CTL, .CH_PCS_STAT, .CH_PCS_ERRBLK, .CH_BOND_STAT, .CH_FEC_CTL, .CH_FEC_DEGTHR, .CH_FEC_SNAP, .CH_FEC_CW_LO, .CH_FEC_CW_HI, .CH_FEC_CSYM_LO, .CH_FEC_CSYM_HI, .CH_FEC_CBIT_LO, .CH_FEC_CBIT_HI, .CH_FEC_UNC, .CH_FEC_LSYM, .CH_FEC_STAT, .CH_FEC_HIST, .CH_ALN_CTL, .CH_ALN_TIME, .CH_ALN_STAT, .CH_ALN_CAND, .CH_ALN_MIMIC, .CH_ALN_OOF_CNT, .CH_ALN_ACQ_CNT]

/-- Registers 30 to 59 in table order. -/
def Reg.table1 : List Reg :=
  [.CH_ALN_CAND_CNT, .CH_ALN_VFAIL_CNT, .CH_ALN_TIE_CNT, .CH_ALN_EVICT_CNT, .CH_ALN_ERRFRM_CNT, .CH_ALN_MFERR_CNT, .CH_ALN_MIMIC_CNT, .CH_ALN_EVT, .CH_OH_CTL, .CH_OH_XSEL, .CH_OH_FAIL_TIME, .CH_OH_LVL_CTL, .CH_OH_DEGTHR, .CH_OH_DEF, .CH_OH_FAIL, .CH_OH_ACC, .CH_OH_ACT, .CH_OH_EVT, .CH_OH_LAST, .CH_OH_TTI_EXP, .CH_OH_TTI_ACC, .CH_OH_TTI_TX, .CH_PM_CTL, .CH_PM_SEC, .ODU_OH_CTL, .ODU_OH_XSEL, .ODU_OH_FAIL_TIME, .ODU_OH_LVL_CTL, .ODU_OH_DEGTHR, .ODU_OH_DEF]

/-- Registers 60 to 89 in table order. -/
def Reg.table2 : List Reg :=
  [.ODU_OH_FAIL, .ODU_OH_ACC, .ODU_OH_ACT, .ODU_OH_EVT, .ODU_OH_LAST, .ODU_OH_TTI_EXP, .ODU_OH_TTI_ACC, .ODU_OH_TTI_TX, .ODU_PM_CTL, .ODU_PM_SEC, .STR_CTL, .STR_FW_VER, .STR_MAPS, .STR_EPOCH, .STR_TASKS_SEC, .STR_HEAT_CTL, .STR_HEAT_STAT, .STR_HEAT_QMAX, .STR_HEAT_RUN, .STR_HEAT_STOLEN, .STR_HEAT_MISS, .STR_HEAT_LATE, .STR_HEAT_SHED, .STR_HEAT_LOST, .STR_HEAT_BUSY, .STR_HEAT_TLOG, .STR_HEAT_EVT, .STR_MISS_DESC, .ODU_CFG, .ODU_MAP]

/-- Registers 90 to 119 in table order. -/
def Reg.table3 : List Reg :=
  [.ODU_TS, .ODU_STAT, .ODU_RATE, .ODU_CNT, .SL_SRV_CTL, .SL_LEARN, .SL_SRV_STAT, .SL_FLXO_EXP0, .SL_FLXO_EXP1, .SL_FLXO_EXP2, .SL_FLXE_GRP0, .SL_FLXE_GRP1, .SL_FLXE_GRP2, .SL_FLXE_GRP3, .SL_FLXE_GRP_STAT, .SL_FLXE_CLI0, .SL_FLXE_CLIS, .SL_MSI_ACC, .SSW_CONN, .SSW_PORT, .SSW_SLICE, .SSW_BRIDGE, .FLT_CTX_CTL, .FLT_CTX_STG, .FLT_CTX_SHIFT, .FLT_CTX_LOOP, .FLT_CTX_RUN_STG, .FLT_CTX_RUN_SHIFT, .FLT_CTX_RUN_LOOP, .FLT_CTX_STAT]

/-- Registers 120 to 149 in table order. -/
def Reg.table4 : List Reg :=
  [.FLT_CTX_SRC, .FLT_CTX_WORD, .FLT_CTX_SPRINT, .FLT_CTX_DCEST, .FLT_CTX_SAT0, .FLT_CTX_SAT1, .FLT_CTX_EVT, .FLT_SYNC_CTL, .FLT_SYNC_CMD, .FLT_SYNC_LAST, .FLT_BANK_FLIP, .FLT_BANK_BUSY, .FLT_BANK_GROW, .FLT_CLKOUT, .FLT_CLKOUT_F, .FLT_ARRAY_STAT, .FLT_COEF, .CPL_Q_CFG, .CPL_Q_QUOTA, .CPL_Q_HURDLE, .CPL_Q_LAG, .CPL_Q_CMD, .CPL_Q_ARG, .CPL_Q_STAT, .CPL_Q_OCC, .CPL_Q_WR, .CPL_Q_RD, .CPL_Q_REL, .CPL_Q_MARK, .CPL_Q_RDPTR]

/-- Registers 150 to 179 in table order. -/
def Reg.table5 : List Reg :=
  [.CPL_Q_CNT_A, .CPL_Q_CNT_B, .CPL_Q_EVT, .CPL_POOL_STAT, .CPL_POOL_CELLS, .CPL_POOL_FREE, .CPL_POOL_QSUM, .CPL_POOL_STRAND, .CPL_POOL_CMD, .CPL_BAR2_BASE, .CPL_BAR2_STAT, .CPL_CE_THR, .CPL_HOST_OP, .CPL_HOST_DATA, .CPL_SITE_STAT, .CPL_SITE_CE, .CPL_SITE_UE, .CPL_SITE_RET, .PRT_GRP_CFG, .PRT_GRP_TMR, .PRT_GRP_ALN, .PRT_GRP_MEM, .PRT_GRP_CMD, .PRT_GRP_STAT, .PRT_GRP_SFSD, .PRT_GRP_APS_TX, .PRT_GRP_APS_RX, .PRT_ALN_STAT, .PRT_ALN_OFFSET, .PRT_ALN_DELAY]

/-- Registers 180 to 209 in table order. -/
def Reg.table6 : List Reg :=
  [.PRT_ALN_DMIN, .PRT_ALN_DMAX, .PRT_ALN_NEED, .PRT_GRP_SW, .PRT_GRP_SWQ, .PRT_ALN_CNT, .PRT_ALN_CNT2, .PRT_GRP_HIT, .PRT_GRP_EVT, .PRT_HL_BUDGET, .PRT_LAP_TX, .PAIR_CTL, .PAIR_HEALTH_CTL, .PAIR_BATON_CTL, .PAIR_STAT, .PAIR_HEALTH, .PAIR_EPOCH_SENT, .PAIR_EPOCH_APPL, .PAIR_EPOCH_ACK, .PAIR_MSG_LEN, .PAIR_SYNC_STAT, .PAIR_CMD, .PAIR_CNT_APPL, .PAIR_CNT_DISC, .PAIR_CNT_DOWN, .PAIR_CNT_TKO, .PAIR_CNT_YIELD, .PAIR_EVT, .CHK_CK_CFG, .CHK_CK_POLY_LO]

/-- Registers 210 to 239 in table order. -/
def Reg.table7 : List Reg :=
  [.CHK_CK_POLY_HI, .CHK_CK_INIT_LO, .CHK_CK_INIT_HI, .CHK_CK_XOR_LO, .CHK_CK_XOR_HI, .CHK_CK_RUN_LO, .CHK_CK_RUN_HI, .CHK_CK_RES_LO, .CHK_CK_RES_HI, .CHK_CK_DIN, .CHK_CK_DIN8, .CHK_CK_CMD, .CHK_CK_STAT, .CHK_CK_BYTES, .CHK_SCAN_CTL, .CHK_SCAN_START_LO, .CHK_SCAN_START_HI, .CHK_SCAN_COUNT, .CHK_SCAN_STRIDE, .CHK_SCAN_CMD, .CHK_SCAN_POS, .CHK_SCAN_FLAGS, .CHK_TBL_CTL, .CHK_TBL_LAST, .CHK_TBL_CNT, .CHK_TBL_BAD, .CHK_TBL_INJ, .CHK_DIGEST, .CHK_SCRUB_CTL, .CHK_SCRUB_POS]

/-- Registers 240 to 269 in table order. -/
def Reg.table8 : List Reg :=
  [.CHK_SCRUB_PASS, .CHK_SCRUB_CNT, .CHK_ALIVE_CNT_A, .CHK_ALIVE_CNT_B, .CHK_REF_A, .CHK_REF_B, .MTX_MODE, .MTX_HANG_LIM, .MTX_MRST, .MTX_STAT, .MTX_PRIO_LO, .MTX_PRIO_HI, .MTX_MSTAT, .MTX_HANG_REC, .MTX_HANG_ADDR_LO, .MTX_HANG_ADDR_HI, .MTX_HANG_DTIME, .MTX_CNT_A, .MTX_CNT_B, .MTX_CNT_C, .MTX_EVT, .REC_CTL, .REC_STAT, .REC_RING_ID_LO, .REC_RING_ID_HI, .REC_SLOTS, .REC_SEG_CUR, .REC_SEG_SEQ_LO, .REC_SEG_SEQ_HI, .REC_OLDEST]

/-- Registers 270 to 299 in table order. -/
def Reg.table9 : List Reg :=
  [.REC_RATE, .REC_CNT, .REC_REBUILD, .REC_CMD, .REC_DRV_STAT, .REC_DRV_SLOTS, .REC_DRV_DUW_LO, .REC_DRV_DUW_HI, .REC_RD_CMD, .REC_RD_ARG0, .REC_RD_ARG1, .REC_RD_RES, .REC_RD_BAD, .REC_RD_APER, .REC_CAP_BUDGET, .REC_EVT, .REC_CS_CFG, .REC_CS_TRIG, .REC_CS_TARG, .REC_CS_DEPTH, .REC_CS_CMD, .REC_CS_STAT, .REC_CS_CNT, .REC_CS_LAST, .GLB_ID, .GLB_STAT, .GLB_SCRATCH, .GLB_HOST_CTL, .GLB_HOST_STAT, .GLB_READY_FN]

/-- Registers 300 to 329 in table order. -/
def Reg.table10 : List Reg :=
  [.GLB_READY_Q_LO, .GLB_READY_Q_HI, .GLB_READY_SITE, .GLB_DTIME_LO, .GLB_DTIME_HI, .GLB_UC_CMD, .GLB_UC_STAT, .GLB_UC_ST, .GLB_EVT_WR, .GLB_EVT_RD, .GLB_EVT_LOST, .GLB_EVT_INT_EN, .GLB_EVT_PEND, .GLB_EVT_MOD, .GLB_EVT_VEC, .GLB_MSIX_TABLE, .GLB_MSIX_PBA, .GLB_EVT_RING, .BOOT_STAT, .BOOT_START, .BOOT_IMG, .BOOT_IMG_CRC, .BOOT_JSEQ, .BOOT_HIST_SITE, .BOOT_HIST_QSKIP_LO, .BOOT_HIST_QSKIP_HI, .BOOT_HIST_QALT_LO, .BOOT_HIST_QALT_HI, .BOOT_HIST_DRV, .BOOT_IMG_BAD]

/-- Registers 330 to 359 in table order. -/
def Reg.table11 : List Reg :=
  [.BOOT_FS, .BOOT_CTL, .BOOT_AON, .BOOT_CMD, .BOOT_FLASH_CMD, .BOOT_FLASH_ADDR, .BOOT_FLASH_DATA, .GLB_CLK_CTL, .GLB_CLK_STAT, .GLB_GDDR_PLL, .GLB_TIME_CTL, .GLB_PPS_DLY, .GLB_PAIR_DLY, .GLB_DTIME_LOAD_LO, .GLB_DTIME_LOAD_HI, .GLB_TIME_STAT, .GLB_TIME_ERR, .GLB_FP_CTL, .GLB_FP_PERIOD, .GLB_FP_PHASE, .GLB_PD_RST, .GLB_URST, .GLB_PD_CMD, .GLB_PD_STAT, .GLB_PD_BOOT, .GLB_AVS_CTL, .GLB_AVS_STAT, .GLB_THERM_CTL, .GLB_THERM_STAT, .GLB_THERM_T]

/-- Every register, in table order. -/
def Reg.all : List Reg :=
  Reg.table0 ++ Reg.table1 ++ Reg.table2 ++ Reg.table3 ++ Reg.table4 ++ Reg.table5 ++ Reg.table6 ++ Reg.table7 ++ Reg.table8 ++ Reg.table9 ++ Reg.table10 ++ Reg.table11

/-- A named field of a register. -/
structure Fld where
  reg : Reg
  lo : Nat
  w : Nat
deriving DecidableEq, Repr

def Fld.CH_MODE_mode : Fld := ⟨.CH_MODE, 0, 8⟩
def Fld.CH_MODE_bond_size : Fld := ⟨.CH_MODE, 8, 2⟩
def Fld.CH_MODE_tx_clk_src : Fld := ⟨.CH_MODE, 12, 1⟩
def Fld.CH_MODE_tx_fctx : Fld := ⟨.CH_MODE, 16, 10⟩
def Fld.CH_SDS_CTL_rx_pol_inv : Fld := ⟨.CH_SDS_CTL, 0, 1⟩
def Fld.CH_SDS_CTL_tx_pol_inv : Fld := ⟨.CH_SDS_CTL, 1, 1⟩
def Fld.CH_SDS_CTL_loopback : Fld := ⟨.CH_SDS_CTL, 2, 2⟩
def Fld.CH_SDS_CTL_tx_disable : Fld := ⟨.CH_SDS_CTL, 4, 1⟩
def Fld.CH_SDS_CTL_adapt_freeze : Fld := ⟨.CH_SDS_CTL, 5, 1⟩
def Fld.CH_SDS_CTL_prbs_gen : Fld := ⟨.CH_SDS_CTL, 8, 4⟩
def Fld.CH_SDS_CTL_prbs_chk : Fld := ⟨.CH_SDS_CTL, 12, 4⟩
def Fld.CH_SDS_CTL_los_thr : Fld := ⟨.CH_SDS_CTL, 16, 8⟩
def Fld.CH_SDS_TXFFE_pre2 : Fld := ⟨.CH_SDS_TXFFE, 0, 8⟩
def Fld.CH_SDS_TXFFE_pre1 : Fld := ⟨.CH_SDS_TXFFE, 8, 8⟩
def Fld.CH_SDS_TXFFE_main : Fld := ⟨.CH_SDS_TXFFE, 16, 8⟩
def Fld.CH_SDS_TXFFE_post1 : Fld := ⟨.CH_SDS_TXFFE, 24, 8⟩
def Fld.CH_SDS_STAT_adapt_state : Fld := ⟨.CH_SDS_STAT, 0, 3⟩
def Fld.CH_SDS_STAT_cdr_lock : Fld := ⟨.CH_SDS_STAT, 3, 1⟩
def Fld.CH_SDS_STAT_los : Fld := ⟨.CH_SDS_STAT, 4, 1⟩
def Fld.CH_SDS_STAT_quad_pll_lock : Fld := ⟨.CH_SDS_STAT, 5, 1⟩
def Fld.CH_SDS_STAT_tx_on : Fld := ⟨.CH_SDS_STAT, 6, 1⟩
def Fld.CH_SDS_STAT_adapt_frozen : Fld := ⟨.CH_SDS_STAT, 7, 1⟩
def Fld.CH_SDS_STAT_acq_retries : Fld := ⟨.CH_SDS_STAT, 8, 8⟩
def Fld.CH_SDS_STAT_snr : Fld := ⟨.CH_SDS_STAT, 16, 10⟩
def Fld.CH_SDS_EVT_los_set : Fld := ⟨.CH_SDS_EVT, 0, 1⟩
def Fld.CH_SDS_EVT_los_clr : Fld := ⟨.CH_SDS_EVT, 1, 1⟩
def Fld.CH_SDS_EVT_cdr_loss : Fld := ⟨.CH_SDS_EVT, 2, 1⟩
def Fld.CH_SDS_EVT_track_reached : Fld := ⟨.CH_SDS_EVT, 3, 1⟩
def Fld.CH_SDS_EVT_acq_timeout : Fld := ⟨.CH_SDS_EVT, 4, 1⟩
def Fld.CH_SDS_EVT_quad_pll_unlock : Fld := ⟨.CH_SDS_EVT, 5, 1⟩
def Fld.CH_SDS_PRBS_ERR_prbs_err : Fld := ⟨.CH_SDS_PRBS_ERR, 0, 32⟩
def Fld.CH_PCS_CTL_err_ind_bypass : Fld := ⟨.CH_PCS_CTL, 0, 1⟩
def Fld.CH_PCS_STAT_lane_lock : Fld := ⟨.CH_PCS_STAT, 0, 1⟩
def Fld.CH_PCS_STAT_align_status : Fld := ⟨.CH_PCS_STAT, 1, 1⟩
def Fld.CH_PCS_STAT_hi_ber : Fld := ⟨.CH_PCS_STAT, 2, 1⟩
def Fld.CH_PCS_STAT_lf_rx : Fld := ⟨.CH_PCS_STAT, 3, 1⟩
def Fld.CH_PCS_STAT_rf_rx : Fld := ⟨.CH_PCS_STAT, 4, 1⟩
def Fld.CH_PCS_ERRBLK_err_blocks : Fld := ⟨.CH_PCS_ERRBLK, 0, 32⟩
def Fld.CH_BOND_STAT_bond_aligned : Fld := ⟨.CH_BOND_STAT, 0, 1⟩
def Fld.CH_BOND_STAT_skew_over : Fld := ⟨.CH_BOND_STAT, 1, 1⟩
def Fld.CH_BOND_STAT_member_lock : Fld := ⟨.CH_BOND_STAT, 8, 8⟩
def Fld.CH_BOND_STAT_skew_max : Fld := ⟨.CH_BOND_STAT, 16, 16⟩
def Fld.CH_FEC_CTL_fec_mode : Fld := ⟨.CH_FEC_CTL, 0, 2⟩
def Fld.CH_FEC_CTL_deg_win : Fld := ⟨.CH_FEC_CTL, 4, 7⟩
def Fld.CH_FEC_CTL_deg_set_n : Fld := ⟨.CH_FEC_CTL, 12, 4⟩
def Fld.CH_FEC_CTL_deg_clr_n : Fld := ⟨.CH_FEC_CTL, 16, 4⟩
def Fld.CH_FEC_CTL_snap_1s : Fld := ⟨.CH_FEC_CTL, 20, 1⟩
def Fld.CH_FEC_DEGTHR_set_m : Fld := ⟨.CH_FEC_DEGTHR, 0, 4⟩
def Fld.CH_FEC_DEGTHR_set_e : Fld := ⟨.CH_FEC_DEGTHR, 4, 4⟩
def Fld.CH_FEC_DEGTHR_clr_m : Fld := ⟨.CH_FEC_DEGTHR, 8, 4⟩
def Fld.CH_FEC_DEGTHR_clr_e : Fld := ⟨.CH_FEC_DEGTHR, 12, 4⟩
def Fld.CH_FEC_SNAP_snap : Fld := ⟨.CH_FEC_SNAP, 0, 1⟩
def Fld.CH_FEC_SNAP_snap_busy : Fld := ⟨.CH_FEC_SNAP, 1, 1⟩
def Fld.CH_FEC_CW_LO_cw_lo : Fld := ⟨.CH_FEC_CW_LO, 0, 32⟩
def Fld.CH_FEC_CW_HI_cw_hi : Fld := ⟨.CH_FEC_CW_HI, 0, 16⟩
def Fld.CH_FEC_CSYM_LO_csym_lo : Fld := ⟨.CH_FEC_CSYM_LO, 0, 32⟩
def Fld.CH_FEC_CSYM_HI_csym_hi : Fld := ⟨.CH_FEC_CSYM_HI, 0, 16⟩
def Fld.CH_FEC_CBIT_LO_cbit_lo : Fld := ⟨.CH_FEC_CBIT_LO, 0, 32⟩
def Fld.CH_FEC_CBIT_HI_cbit_hi : Fld := ⟨.CH_FEC_CBIT_HI, 0, 16⟩
def Fld.CH_FEC_UNC_unc : Fld := ⟨.CH_FEC_UNC, 0, 32⟩
def Fld.CH_FEC_LSYM_lsym : Fld := ⟨.CH_FEC_LSYM, 0, 32⟩
def Fld.CH_FEC_STAT_fec_deg : Fld := ⟨.CH_FEC_STAT, 0, 1⟩
def Fld.CH_FEC_STAT_ber_m : Fld := ⟨.CH_FEC_STAT, 4, 4⟩
def Fld.CH_FEC_STAT_ber_e : Fld := ⟨.CH_FEC_STAT, 8, 4⟩
def Fld.CH_FEC_HIST_hist : Fld := ⟨.CH_FEC_HIST, 0, 32⟩
def Fld.CH_ALN_CTL_mf_mode : Fld := ⟨.CH_ALN_CTL, 0, 1⟩
def Fld.CH_ALN_CTL_cmp_width : Fld := ⟨.CH_ALN_CTL, 1, 1⟩
def Fld.CH_ALN_CTL_mfas_verify : Fld := ⟨.CH_ALN_CTL, 2, 1⟩
def Fld.CH_ALN_CTL_conf_n : Fld := ⟨.CH_ALN_CTL, 4, 4⟩
def Fld.CH_ALN_CTL_lose_m : Fld := ⟨.CH_ALN_CTL, 8, 4⟩
def Fld.CH_ALN_CTL_loss_tol : Fld := ⟨.CH_ALN_CTL, 12, 3⟩
def Fld.CH_ALN_CTL_tie_ext : Fld := ⟨.CH_ALN_CTL, 16, 4⟩
def Fld.CH_ALN_CTL_mf_confirm : Fld := ⟨.CH_ALN_CTL, 20, 4⟩
def Fld.CH_ALN_CTL_mf_lose : Fld := ⟨.CH_ALN_CTL, 24, 4⟩
def Fld.CH_ALN_TIME_lof_set : Fld := ⟨.CH_ALN_TIME, 0, 8⟩
def Fld.CH_ALN_TIME_lof_clr : Fld := ⟨.CH_ALN_TIME, 8, 8⟩
def Fld.CH_ALN_TIME_lom_set : Fld := ⟨.CH_ALN_TIME, 16, 8⟩
def Fld.CH_ALN_TIME_lom_clr : Fld := ⟨.CH_ALN_TIME, 24, 8⟩
def Fld.CH_ALN_STAT_aln_state : Fld := ⟨.CH_ALN_STAT, 0, 2⟩
def Fld.CH_ALN_STAT_mf_state : Fld := ⟨.CH_ALN_STAT, 2, 2⟩
def Fld.CH_ALN_STAT_oof : Fld := ⟨.CH_ALN_STAT, 4, 1⟩
def Fld.CH_ALN_STAT_dlof : Fld := ⟨.CH_ALN_STAT, 5, 1⟩
def Fld.CH_ALN_STAT_oom : Fld := ⟨.CH_ALN_STAT, 6, 1⟩
def Fld.CH_ALN_STAT_dlom : Fld := ⟨.CH_ALN_STAT, 7, 1⟩
def Fld.CH_ALN_STAT_live_slots : Fld := ⟨.CH_ALN_STAT, 8, 4⟩
def Fld.CH_ALN_STAT_err_run : Fld := ⟨.CH_ALN_STAT, 12, 4⟩
def Fld.CH_ALN_STAT_flywheel : Fld := ⟨.CH_ALN_STAT, 16, 8⟩
def Fld.CH_ALN_CAND_pos : Fld := ⟨.CH_ALN_CAND, 0, 21⟩
def Fld.CH_ALN_CAND_run : Fld := ⟨.CH_ALN_CAND, 21, 4⟩
def Fld.CH_ALN_CAND_live : Fld := ⟨.CH_ALN_CAND, 25, 1⟩
def Fld.CH_ALN_CAND_mimic : Fld := ⟨.CH_ALN_CAND, 26, 1⟩
def Fld.CH_ALN_CAND_contender : Fld := ⟨.CH_ALN_CAND, 27, 1⟩
def Fld.CH_ALN_CAND_held : Fld := ⟨.CH_ALN_CAND, 28, 1⟩
def Fld.CH_ALN_MIMIC_mimic_pos : Fld := ⟨.CH_ALN_MIMIC, 0, 21⟩
def Fld.CH_ALN_OOF_CNT_oof_cnt : Fld := ⟨.CH_ALN_OOF_CNT, 0, 32⟩
def Fld.CH_ALN_ACQ_CNT_acq_cnt : Fld := ⟨.CH_ALN_ACQ_CNT, 0, 32⟩
def Fld.CH_ALN_CAND_CNT_cand_cnt : Fld := ⟨.CH_ALN_CAND_CNT, 0, 32⟩
def Fld.CH_ALN_VFAIL_CNT_vfail_cnt : Fld := ⟨.CH_ALN_VFAIL_CNT, 0, 32⟩
def Fld.CH_ALN_TIE_CNT_tie_cnt : Fld := ⟨.CH_ALN_TIE_CNT, 0, 16⟩
def Fld.CH_ALN_TIE_CNT_tie_order_cnt : Fld := ⟨.CH_ALN_TIE_CNT, 16, 16⟩
def Fld.CH_ALN_EVICT_CNT_evict_cnt : Fld := ⟨.CH_ALN_EVICT_CNT, 0, 16⟩
def Fld.CH_ALN_EVICT_CNT_full_cnt : Fld := ⟨.CH_ALN_EVICT_CNT, 16, 16⟩
def Fld.CH_ALN_ERRFRM_CNT_errfrm_cnt : Fld := ⟨.CH_ALN_ERRFRM_CNT, 0, 32⟩
def Fld.CH_ALN_MFERR_CNT_mferr_cnt : Fld := ⟨.CH_ALN_MFERR_CNT, 0, 32⟩
def Fld.CH_ALN_MIMIC_CNT_mimic_cnt : Fld := ⟨.CH_ALN_MIMIC_CNT, 0, 32⟩
def Fld.CH_ALN_EVT_oof_set : Fld := ⟨.CH_ALN_EVT, 0, 1⟩
def Fld.CH_ALN_EVT_inframe : Fld := ⟨.CH_ALN_EVT, 1, 1⟩
def Fld.CH_ALN_EVT_dlof_chg : Fld := ⟨.CH_ALN_EVT, 2, 1⟩
def Fld.CH_ALN_EVT_oom_set : Fld := ⟨.CH_ALN_EVT, 3, 1⟩
def Fld.CH_ALN_EVT_mf_regain : Fld := ⟨.CH_ALN_EVT, 4, 1⟩
def Fld.CH_ALN_EVT_dlom_chg : Fld := ⟨.CH_ALN_EVT, 5, 1⟩
def Fld.CH_ALN_EVT_tie : Fld := ⟨.CH_ALN_EVT, 6, 1⟩
def Fld.CH_ALN_EVT_mimic : Fld := ⟨.CH_ALN_EVT, 7, 1⟩
def Fld.CH_OH_CTL_exp_pt : Fld := ⟨.CH_OH_CTL, 0, 8⟩
def Fld.CH_OH_CTL_plm_en : Fld := ⟨.CH_OH_CTL, 8, 1⟩
def Fld.CH_OH_CTL_ins_force : Fld := ⟨.CH_OH_CTL, 9, 2⟩
def Fld.CH_OH_CTL_fdeg_sd : Fld := ⟨.CH_OH_CTL, 11, 1⟩
def Fld.CH_OH_XSEL_pos0 : Fld := ⟨.CH_OH_XSEL, 0, 6⟩
def Fld.CH_OH_XSEL_en0 : Fld := ⟨.CH_OH_XSEL, 7, 1⟩
def Fld.CH_OH_XSEL_pos1 : Fld := ⟨.CH_OH_XSEL, 8, 6⟩
def Fld.CH_OH_XSEL_en1 : Fld := ⟨.CH_OH_XSEL, 15, 1⟩
def Fld.CH_OH_XSEL_pos2 : Fld := ⟨.CH_OH_XSEL, 16, 6⟩
def Fld.CH_OH_XSEL_en2 : Fld := ⟨.CH_OH_XSEL, 23, 1⟩
def Fld.CH_OH_XSEL_pos3 : Fld := ⟨.CH_OH_XSEL, 24, 6⟩
def Fld.CH_OH_XSEL_en3 : Fld := ⟨.CH_OH_XSEL, 31, 1⟩
def Fld.CH_OH_FAIL_TIME_fail_set : Fld := ⟨.CH_OH_FAIL_TIME, 0, 8⟩
def Fld.CH_OH_FAIL_TIME_fail_clr : Fld := ⟨.CH_OH_FAIL_TIME, 8, 8⟩
def Fld.CH_OH_LVL_CTL_lvl_mode : Fld := ⟨.CH_OH_LVL_CTL, 0, 2⟩
def Fld.CH_OH_LVL_CTL_tim_mode : Fld := ⟨.CH_OH_LVL_CTL, 2, 2⟩
def Fld.CH_OH_LVL_CTL_tim_act : Fld := ⟨.CH_OH_LVL_CTL, 4, 1⟩
def Fld.CH_OH_LVL_CTL_ltc_act : Fld := ⟨.CH_OH_LVL_CTL, 5, 1⟩
def Fld.CH_OH_LVL_CTL_tcm_remove : Fld := ⟨.CH_OH_LVL_CTL, 6, 1⟩
def Fld.CH_OH_LVL_CTL_bdi_force : Fld := ⟨.CH_OH_LVL_CTL, 7, 1⟩
def Fld.CH_OH_LVL_CTL_deg_int : Fld := ⟨.CH_OH_LVL_CTL, 8, 2⟩
def Fld.CH_OH_LVL_CTL_deg_m : Fld := ⟨.CH_OH_LVL_CTL, 10, 4⟩
def Fld.CH_OH_LVL_CTL_bip_inv : Fld := ⟨.CH_OH_LVL_CTL, 14, 1⟩
def Fld.CH_OH_DEGTHR_deg_thr : Fld := ⟨.CH_OH_DEGTHR, 0, 20⟩
def Fld.CH_OH_DEGTHR_deg_exp : Fld := ⟨.CH_OH_DEGTHR, 20, 4⟩
def Fld.CH_OH_DEGTHR_exc_exp : Fld := ⟨.CH_OH_DEGTHR, 24, 4⟩
def Fld.CH_OH_DEF_def : Fld := ⟨.CH_OH_DEF, 0, 21⟩
def Fld.CH_OH_FAIL_fail : Fld := ⟨.CH_OH_FAIL, 0, 21⟩
def Fld.CH_OH_ACC_acc_pt : Fld := ⟨.CH_OH_ACC, 0, 8⟩
def Fld.CH_OH_ACC_pt_valid : Fld := ⟨.CH_OH_ACC, 8, 1⟩
def Fld.CH_OH_ACT_atsf : Fld := ⟨.CH_OH_ACT, 0, 8⟩
def Fld.CH_OH_ACT_atsd : Fld := ⟨.CH_OH_ACT, 8, 8⟩
def Fld.CH_OH_ACT_abdi : Fld := ⟨.CH_OH_ACT, 16, 8⟩
def Fld.CH_OH_ACT_egress_prio : Fld := ⟨.CH_OH_ACT, 24, 3⟩
def Fld.CH_OH_ACT_assf : Fld := ⟨.CH_OH_ACT, 27, 1⟩
def Fld.CH_OH_EVT_fail_chg : Fld := ⟨.CH_OH_EVT, 0, 8⟩
def Fld.CH_OH_EVT_tti_chg : Fld := ⟨.CH_OH_EVT, 8, 1⟩
def Fld.CH_OH_EVT_pt_chg : Fld := ⟨.CH_OH_EVT, 9, 1⟩
def Fld.CH_OH_EVT_pm_incomplete : Fld := ⟨.CH_OH_EVT, 10, 1⟩
def Fld.CH_OH_LAST_snap : Fld := ⟨.CH_OH_LAST, 0, 32⟩
def Fld.CH_OH_TTI_EXP_exp : Fld := ⟨.CH_OH_TTI_EXP, 0, 32⟩
def Fld.CH_OH_TTI_ACC_acc : Fld := ⟨.CH_OH_TTI_ACC, 0, 32⟩
def Fld.CH_OH_TTI_TX_tx : Fld := ⟨.CH_OH_TTI_TX, 0, 32⟩
def Fld.CH_PM_CTL_ses_pct : Fld := ⟨.CH_PM_CTL, 0, 7⟩
def Fld.CH_PM_CTL_lvl_en : Fld := ⟨.CH_PM_CTL, 8, 8⟩
def Fld.CH_PM_SEC_word : Fld := ⟨.CH_PM_SEC, 0, 32⟩
def Fld.ODU_OH_CTL_exp_pt : Fld := ⟨.ODU_OH_CTL, 0, 8⟩
def Fld.ODU_OH_CTL_plm_en : Fld := ⟨.ODU_OH_CTL, 8, 1⟩
def Fld.ODU_OH_CTL_ins_force : Fld := ⟨.ODU_OH_CTL, 9, 2⟩
def Fld.ODU_OH_CTL_fdeg_sd : Fld := ⟨.ODU_OH_CTL, 11, 1⟩
def Fld.ODU_OH_XSEL_pos0 : Fld := ⟨.ODU_OH_XSEL, 0, 6⟩
def Fld.ODU_OH_XSEL_en0 : Fld := ⟨.ODU_OH_XSEL, 7, 1⟩
def Fld.ODU_OH_XSEL_pos1 : Fld := ⟨.ODU_OH_XSEL, 8, 6⟩
def Fld.ODU_OH_XSEL_en1 : Fld := ⟨.ODU_OH_XSEL, 15, 1⟩
def Fld.ODU_OH_XSEL_pos2 : Fld := ⟨.ODU_OH_XSEL, 16, 6⟩
def Fld.ODU_OH_XSEL_en2 : Fld := ⟨.ODU_OH_XSEL, 23, 1⟩
def Fld.ODU_OH_XSEL_pos3 : Fld := ⟨.ODU_OH_XSEL, 24, 6⟩
def Fld.ODU_OH_XSEL_en3 : Fld := ⟨.ODU_OH_XSEL, 31, 1⟩
def Fld.ODU_OH_FAIL_TIME_fail_set : Fld := ⟨.ODU_OH_FAIL_TIME, 0, 8⟩
def Fld.ODU_OH_FAIL_TIME_fail_clr : Fld := ⟨.ODU_OH_FAIL_TIME, 8, 8⟩
def Fld.ODU_OH_LVL_CTL_lvl_mode : Fld := ⟨.ODU_OH_LVL_CTL, 0, 2⟩
def Fld.ODU_OH_LVL_CTL_tim_mode : Fld := ⟨.ODU_OH_LVL_CTL, 2, 2⟩
def Fld.ODU_OH_LVL_CTL_tim_act : Fld := ⟨.ODU_OH_LVL_CTL, 4, 1⟩
def Fld.ODU_OH_LVL_CTL_ltc_act : Fld := ⟨.ODU_OH_LVL_CTL, 5, 1⟩
def Fld.ODU_OH_LVL_CTL_tcm_remove : Fld := ⟨.ODU_OH_LVL_CTL, 6, 1⟩
def Fld.ODU_OH_LVL_CTL_bdi_force : Fld := ⟨.ODU_OH_LVL_CTL, 7, 1⟩
def Fld.ODU_OH_LVL_CTL_deg_int : Fld := ⟨.ODU_OH_LVL_CTL, 8, 2⟩
def Fld.ODU_OH_LVL_CTL_deg_m : Fld := ⟨.ODU_OH_LVL_CTL, 10, 4⟩
def Fld.ODU_OH_LVL_CTL_bip_inv : Fld := ⟨.ODU_OH_LVL_CTL, 14, 1⟩
def Fld.ODU_OH_DEGTHR_deg_thr : Fld := ⟨.ODU_OH_DEGTHR, 0, 20⟩
def Fld.ODU_OH_DEGTHR_deg_exp : Fld := ⟨.ODU_OH_DEGTHR, 20, 4⟩
def Fld.ODU_OH_DEGTHR_exc_exp : Fld := ⟨.ODU_OH_DEGTHR, 24, 4⟩
def Fld.ODU_OH_DEF_def : Fld := ⟨.ODU_OH_DEF, 0, 21⟩
def Fld.ODU_OH_FAIL_fail : Fld := ⟨.ODU_OH_FAIL, 0, 21⟩
def Fld.ODU_OH_ACC_acc_pt : Fld := ⟨.ODU_OH_ACC, 0, 8⟩
def Fld.ODU_OH_ACC_pt_valid : Fld := ⟨.ODU_OH_ACC, 8, 1⟩
def Fld.ODU_OH_ACT_atsf : Fld := ⟨.ODU_OH_ACT, 0, 8⟩
def Fld.ODU_OH_ACT_atsd : Fld := ⟨.ODU_OH_ACT, 8, 8⟩
def Fld.ODU_OH_ACT_abdi : Fld := ⟨.ODU_OH_ACT, 16, 8⟩
def Fld.ODU_OH_ACT_egress_prio : Fld := ⟨.ODU_OH_ACT, 24, 3⟩
def Fld.ODU_OH_ACT_assf : Fld := ⟨.ODU_OH_ACT, 27, 1⟩
def Fld.ODU_OH_EVT_fail_chg : Fld := ⟨.ODU_OH_EVT, 0, 8⟩
def Fld.ODU_OH_EVT_tti_chg : Fld := ⟨.ODU_OH_EVT, 8, 1⟩
def Fld.ODU_OH_EVT_pt_chg : Fld := ⟨.ODU_OH_EVT, 9, 1⟩
def Fld.ODU_OH_EVT_pm_incomplete : Fld := ⟨.ODU_OH_EVT, 10, 1⟩
def Fld.ODU_OH_LAST_snap : Fld := ⟨.ODU_OH_LAST, 0, 32⟩
def Fld.ODU_OH_TTI_EXP_exp : Fld := ⟨.ODU_OH_TTI_EXP, 0, 32⟩
def Fld.ODU_OH_TTI_ACC_acc : Fld := ⟨.ODU_OH_TTI_ACC, 0, 32⟩
def Fld.ODU_OH_TTI_TX_tx : Fld := ⟨.ODU_OH_TTI_TX, 0, 32⟩
def Fld.ODU_PM_CTL_ses_pct : Fld := ⟨.ODU_PM_CTL, 0, 7⟩
def Fld.ODU_PM_CTL_lvl_en : Fld := ⟨.ODU_PM_CTL, 8, 8⟩
def Fld.ODU_PM_SEC_word : Fld := ⟨.ODU_PM_SEC, 0, 32⟩
def Fld.STR_CTL_steal_max : Fld := ⟨.STR_CTL, 0, 2⟩
def Fld.STR_CTL_shed_force : Fld := ⟨.STR_CTL, 2, 2⟩
def Fld.STR_FW_VER_build : Fld := ⟨.STR_FW_VER, 0, 8⟩
def Fld.STR_FW_VER_minor : Fld := ⟨.STR_FW_VER, 8, 8⟩
def Fld.STR_FW_VER_major : Fld := ⟨.STR_FW_VER, 16, 8⟩
def Fld.STR_FW_VER_model : Fld := ⟨.STR_FW_VER, 24, 8⟩
def Fld.STR_MAPS_live : Fld := ⟨.STR_MAPS, 0, 16⟩
def Fld.STR_MAPS_served : Fld := ⟨.STR_MAPS, 16, 16⟩
def Fld.STR_EPOCH_epoch : Fld := ⟨.STR_EPOCH, 0, 32⟩
def Fld.STR_TASKS_SEC_tasks : Fld := ⟨.STR_TASKS_SEC, 0, 32⟩
def Fld.STR_HEAT_CTL_heat_en : Fld := ⟨.STR_HEAT_CTL, 0, 1⟩
def Fld.STR_HEAT_CTL_shed3_lvl : Fld := ⟨.STR_HEAT_CTL, 8, 10⟩
def Fld.STR_HEAT_CTL_shed2_lvl : Fld := ⟨.STR_HEAT_CTL, 18, 10⟩
def Fld.STR_HEAT_CTL_shed_hyst : Fld := ⟨.STR_HEAT_CTL, 28, 4⟩
def Fld.STR_HEAT_STAT_heat_state : Fld := ⟨.STR_HEAT_STAT, 0, 3⟩
def Fld.STR_HEAT_STAT_drained : Fld := ⟨.STR_HEAT_STAT, 3, 1⟩
def Fld.STR_HEAT_STAT_shed_state : Fld := ⟨.STR_HEAT_STAT, 4, 2⟩
def Fld.STR_HEAT_STAT_q_occ : Fld := ⟨.STR_HEAT_STAT, 16, 11⟩
def Fld.STR_HEAT_STAT_busy : Fld := ⟨.STR_HEAT_STAT, 27, 5⟩
def Fld.STR_HEAT_QMAX_q_max : Fld := ⟨.STR_HEAT_QMAX, 0, 11⟩
def Fld.STR_HEAT_RUN_run_cnt : Fld := ⟨.STR_HEAT_RUN, 0, 32⟩
def Fld.STR_HEAT_STOLEN_steal1_cnt : Fld := ⟨.STR_HEAT_STOLEN, 0, 16⟩
def Fld.STR_HEAT_STOLEN_steal2_cnt : Fld := ⟨.STR_HEAT_STOLEN, 16, 16⟩
def Fld.STR_HEAT_MISS_miss0_cnt : Fld := ⟨.STR_HEAT_MISS, 0, 16⟩
def Fld.STR_HEAT_MISS_miss1_cnt : Fld := ⟨.STR_HEAT_MISS, 16, 16⟩
def Fld.STR_HEAT_LATE_miss2_cnt : Fld := ⟨.STR_HEAT_LATE, 0, 16⟩
def Fld.STR_HEAT_LATE_miss3_cnt : Fld := ⟨.STR_HEAT_LATE, 16, 16⟩
def Fld.STR_HEAT_SHED_shed2_cnt : Fld := ⟨.STR_HEAT_SHED, 0, 16⟩
def Fld.STR_HEAT_SHED_shed3_cnt : Fld := ⟨.STR_HEAT_SHED, 16, 16⟩
def Fld.STR_HEAT_LOST_lost_cnt : Fld := ⟨.STR_HEAT_LOST, 0, 16⟩
def Fld.STR_HEAT_LOST_abort_cnt : Fld := ⟨.STR_HEAT_LOST, 16, 16⟩
def Fld.STR_HEAT_BUSY_busy_cyc : Fld := ⟨.STR_HEAT_BUSY, 0, 32⟩
def Fld.STR_HEAT_TLOG_tlog_drop : Fld := ⟨.STR_HEAT_TLOG, 0, 32⟩
def Fld.STR_HEAT_EVT_state_chg : Fld := ⟨.STR_HEAT_EVT, 0, 1⟩
def Fld.STR_HEAT_EVT_shed_chg : Fld := ⟨.STR_HEAT_EVT, 1, 1⟩
def Fld.STR_HEAT_EVT_miss : Fld := ⟨.STR_HEAT_EVT, 2, 1⟩
def Fld.STR_HEAT_EVT_lost : Fld := ⟨.STR_HEAT_EVT, 3, 1⟩
def Fld.STR_HEAT_EVT_abort : Fld := ⟨.STR_HEAT_EVT, 4, 1⟩
def Fld.STR_HEAT_EVT_served_chg : Fld := ⟨.STR_HEAT_EVT, 5, 1⟩
def Fld.STR_MISS_DESC_desc : Fld := ⟨.STR_MISS_DESC, 0, 32⟩
def Fld.ODU_CFG_kind : Fld := ⟨.ODU_CFG, 0, 4⟩
def Fld.ODU_CFG_pay_mode : Fld := ⟨.ODU_CFG, 4, 2⟩
def Fld.ODU_CFG_srv_none : Fld := ⟨.ODU_CFG, 6, 1⟩
def Fld.ODU_CFG_srv_ch : Fld := ⟨.ODU_CFG, 8, 8⟩
def Fld.ODU_CFG_flex_s : Fld := ⟨.ODU_CFG, 16, 8⟩
def Fld.ODU_CFG_tpn : Fld := ⟨.ODU_CFG, 24, 8⟩
def Fld.ODU_MAP_map_meth : Fld := ⟨.ODU_MAP, 0, 1⟩
def Fld.ODU_MAP_fctx_en : Fld := ⟨.ODU_MAP, 1, 1⟩
def Fld.ODU_MAP_fctx : Fld := ⟨.ODU_MAP, 2, 10⟩
def Fld.ODU_MAP_client_kind : Fld := ⟨.ODU_MAP, 12, 1⟩
def Fld.ODU_MAP_client : Fld := ⟨.ODU_MAP, 13, 8⟩
def Fld.ODU_TS_ts : Fld := ⟨.ODU_TS, 0, 32⟩
def Fld.ODU_STAT_tr_state : Fld := ⟨.ODU_STAT, 0, 2⟩
def Fld.ODU_STAT_learned : Fld := ⟨.ODU_STAT, 2, 1⟩
def Fld.ODU_STAT_adapt_lock : Fld := ⟨.ODU_STAT, 3, 1⟩
def Fld.ODU_STAT_lo_oof : Fld := ⟨.ODU_STAT, 4, 1⟩
def Fld.ODU_STAT_lo_oom : Fld := ⟨.ODU_STAT, 5, 1⟩
def Fld.ODU_STAT_ts_cnt : Fld := ⟨.ODU_STAT, 8, 8⟩
def Fld.ODU_STAT_sw_slots : Fld := ⟨.ODU_STAT, 16, 10⟩
def Fld.ODU_RATE_rate_ppm : Fld := ⟨.ODU_RATE, 0, 16⟩
def Fld.ODU_CNT_slip_cnt : Fld := ⟨.ODU_CNT, 0, 16⟩
def Fld.ODU_CNT_acq_cnt : Fld := ⟨.ODU_CNT, 16, 16⟩
def Fld.SL_SRV_CTL_pay_mode : Fld := ⟨.SL_SRV_CTL, 0, 2⟩
def Fld.SL_SRV_CTL_psi_mode : Fld := ⟨.SL_SRV_CTL, 2, 1⟩
def Fld.SL_SRV_CTL_map_meth : Fld := ⟨.SL_SRV_CTL, 3, 1⟩
def Fld.SL_SRV_CTL_client : Fld := ⟨.SL_SRV_CTL, 4, 8⟩
def Fld.SL_SRV_CTL_fctx : Fld := ⟨.SL_SRV_CTL, 12, 10⟩
def Fld.SL_SRV_CTL_fctx_en : Fld := ⟨.SL_SRV_CTL, 22, 1⟩
def Fld.SL_SRV_CTL_tmpl_mode : Fld := ⟨.SL_SRV_CTL, 23, 2⟩
def Fld.SL_LEARN_learn_base : Fld := ⟨.SL_LEARN, 0, 12⟩
def Fld.SL_LEARN_learn_cnt : Fld := ⟨.SL_LEARN, 12, 12⟩
def Fld.SL_LEARN_learn_free : Fld := ⟨.SL_LEARN, 24, 8⟩
def Fld.SL_SRV_STAT_msi_acc : Fld := ⟨.SL_SRV_STAT, 0, 1⟩
def Fld.SL_SRV_STAT_msim : Fld := ⟨.SL_SRV_STAT, 1, 1⟩
def Fld.SL_SRV_STAT_loomfi : Fld := ⟨.SL_SRV_STAT, 2, 1⟩
def Fld.SL_SRV_STAT_learn_full : Fld := ⟨.SL_SRV_STAT, 3, 1⟩
def Fld.SL_SRV_STAT_ts_used : Fld := ⟨.SL_SRV_STAT, 4, 8⟩
def Fld.SL_SRV_STAT_tribs : Fld := ⟨.SL_SRV_STAT, 12, 8⟩
def Fld.SL_SRV_STAT_unlearned : Fld := ⟨.SL_SRV_STAT, 20, 8⟩
def Fld.SL_FLXO_EXP0_exp_gid : Fld := ⟨.SL_FLXO_EXP0, 0, 20⟩
def Fld.SL_FLXO_EXP1_exp_pid_lo : Fld := ⟨.SL_FLXO_EXP1, 0, 32⟩
def Fld.SL_FLXO_EXP2_exp_pid_hi : Fld := ⟨.SL_FLXO_EXP2, 0, 32⟩
def Fld.SL_FLXE_GRP0_phys : Fld := ⟨.SL_FLXE_GRP0, 0, 24⟩
def Fld.SL_FLXE_GRP0_grp_en : Fld := ⟨.SL_FLXE_GRP0, 24, 1⟩
def Fld.SL_FLXE_GRP1_grp_num : Fld := ⟨.SL_FLXE_GRP1, 0, 20⟩
def Fld.SL_FLXE_GRP2_phy_num_lo : Fld := ⟨.SL_FLXE_GRP2, 0, 32⟩
def Fld.SL_FLXE_GRP3_phy_num_hi : Fld := ⟨.SL_FLXE_GRP3, 0, 32⟩
def Fld.SL_FLXE_GRP_STAT_aligned : Fld := ⟨.SL_FLXE_GRP_STAT, 0, 1⟩
def Fld.SL_FLXE_GRP_STAT_lof : Fld := ⟨.SL_FLXE_GRP_STAT, 1, 1⟩
def Fld.SL_FLXE_GRP_STAT_lom : Fld := ⟨.SL_FLXE_GRP_STAT, 2, 1⟩
def Fld.SL_FLXE_GRP_STAT_gnm : Fld := ⟨.SL_FLXE_GRP_STAT, 3, 1⟩
def Fld.SL_FLXE_GRP_STAT_pnm : Fld := ⟨.SL_FLXE_GRP_STAT, 4, 1⟩
def Fld.SL_FLXE_GRP_STAT_calm : Fld := ⟨.SL_FLXE_GRP_STAT, 5, 1⟩
def Fld.SL_FLXE_GRP_STAT_cal_busy : Fld := ⟨.SL_FLXE_GRP_STAT, 6, 1⟩
def Fld.SL_FLXE_GRP_STAT_cal_act : Fld := ⟨.SL_FLXE_GRP_STAT, 7, 1⟩
def Fld.SL_FLXE_GRP_STAT_skew : Fld := ⟨.SL_FLXE_GRP_STAT, 8, 10⟩
def Fld.SL_FLXE_CLI0_grp : Fld := ⟨.SL_FLXE_CLI0, 0, 3⟩
def Fld.SL_FLXE_CLI0_cli_en : Fld := ⟨.SL_FLXE_CLI0, 3, 1⟩
def Fld.SL_FLXE_CLIS_slots : Fld := ⟨.SL_FLXE_CLIS, 0, 32⟩
def Fld.SL_MSI_ACC_tpn : Fld := ⟨.SL_MSI_ACC, 0, 8⟩
def Fld.SL_MSI_ACC_occupied : Fld := ⟨.SL_MSI_ACC, 8, 1⟩
def Fld.SSW_CONN_conn_en : Fld := ⟨.SSW_CONN, 0, 1⟩
def Fld.SSW_CONN_src_kind : Fld := ⟨.SSW_CONN, 1, 1⟩
def Fld.SSW_CONN_src : Fld := ⟨.SSW_CONN, 2, 12⟩
def Fld.SSW_PORT_slots : Fld := ⟨.SSW_PORT, 0, 10⟩
def Fld.SSW_PORT_ndest : Fld := ⟨.SSW_PORT, 10, 2⟩
def Fld.SSW_PORT_live : Fld := ⟨.SSW_PORT, 12, 1⟩
def Fld.SSW_SLICE_in_used : Fld := ⟨.SSW_SLICE, 0, 12⟩
def Fld.SSW_SLICE_out_used : Fld := ⟨.SSW_SLICE, 12, 12⟩
def Fld.SSW_BRIDGE_br_used : Fld := ⟨.SSW_BRIDGE, 0, 11⟩
def Fld.FLT_CTX_CTL_ctx_en : Fld := ⟨.FLT_CTX_CTL, 0, 1⟩
def Fld.FLT_CTX_CTL_preset : Fld := ⟨.FLT_CTX_CTL, 1, 3⟩
def Fld.FLT_CTX_CTL_settle_nco : Fld := ⟨.FLT_CTX_CTL, 4, 1⟩
def Fld.FLT_CTX_CTL_dc_freeze : Fld := ⟨.FLT_CTX_CTL, 5, 1⟩
def Fld.FLT_CTX_CTL_unsafe_ok : Fld := ⟨.FLT_CTX_CTL, 6, 1⟩
def Fld.FLT_CTX_CTL_sync_grp : Fld := ⟨.FLT_CTX_CTL, 8, 3⟩
def Fld.FLT_CTX_CTL_sync_en : Fld := ⟨.FLT_CTX_CTL, 11, 1⟩
def Fld.FLT_CTX_CTL_in_sel : Fld := ⟨.FLT_CTX_CTL, 12, 1⟩
def Fld.FLT_CTX_CTL_dc_k : Fld := ⟨.FLT_CTX_CTL, 14, 5⟩
def Fld.FLT_CTX_STG_cic_r : Fld := ⟨.FLT_CTX_STG, 0, 7⟩
def Fld.FLT_CTX_STG_hb_n : Fld := ⟨.FLT_CTX_STG, 7, 2⟩
def Fld.FLT_CTX_STG_fir_taps : Fld := ⟨.FLT_CTX_STG, 9, 2⟩
def Fld.FLT_CTX_STG_fir_bank : Fld := ⟨.FLT_CTX_STG, 11, 4⟩
def Fld.FLT_CTX_SHIFT_sh_dc : Fld := ⟨.FLT_CTX_SHIFT, 0, 5⟩
def Fld.FLT_CTX_SHIFT_sh_cic : Fld := ⟨.FLT_CTX_SHIFT, 5, 5⟩
def Fld.FLT_CTX_SHIFT_sh_hb1 : Fld := ⟨.FLT_CTX_SHIFT, 10, 5⟩
def Fld.FLT_CTX_SHIFT_sh_hb2 : Fld := ⟨.FLT_CTX_SHIFT, 15, 5⟩
def Fld.FLT_CTX_SHIFT_sh_fir : Fld := ⟨.FLT_CTX_SHIFT, 20, 5⟩
def Fld.FLT_CTX_SHIFT_sh_loop : Fld := ⟨.FLT_CTX_SHIFT, 25, 5⟩
def Fld.FLT_CTX_LOOP_kp : Fld := ⟨.FLT_CTX_LOOP, 0, 16⟩
def Fld.FLT_CTX_LOOP_ki : Fld := ⟨.FLT_CTX_LOOP, 16, 16⟩
def Fld.FLT_CTX_RUN_STG_run : Fld := ⟨.FLT_CTX_RUN_STG, 0, 32⟩
def Fld.FLT_CTX_RUN_SHIFT_run : Fld := ⟨.FLT_CTX_RUN_SHIFT, 0, 32⟩
def Fld.FLT_CTX_RUN_LOOP_run : Fld := ⟨.FLT_CTX_RUN_LOOP, 0, 32⟩
def Fld.FLT_CTX_STAT_ctx_state : Fld := ⟨.FLT_CTX_STAT, 0, 2⟩
def Fld.FLT_CTX_STAT_swap_state : Fld := ⟨.FLT_CTX_STAT, 2, 2⟩
def Fld.FLT_CTX_STAT_pending : Fld := ⟨.FLT_CTX_STAT, 4, 1⟩
def Fld.FLT_CTX_STAT_settling : Fld := ⟨.FLT_CTX_STAT, 5, 1⟩
def Fld.FLT_CTX_STAT_nco_src : Fld := ⟨.FLT_CTX_STAT, 6, 2⟩
def Fld.FLT_CTX_STAT_dc_frozen : Fld := ⟨.FLT_CTX_STAT, 8, 1⟩
def Fld.FLT_CTX_STAT_in_valid : Fld := ⟨.FLT_CTX_STAT, 9, 1⟩
def Fld.FLT_CTX_STAT_in_conflict : Fld := ⟨.FLT_CTX_STAT, 10, 1⟩
def Fld.FLT_CTX_STAT_clamped : Fld := ⟨.FLT_CTX_STAT, 11, 1⟩
def Fld.FLT_CTX_STAT_in_class : Fld := ⟨.FLT_CTX_STAT, 12, 2⟩
def Fld.FLT_CTX_STAT_settle_left : Fld := ⟨.FLT_CTX_STAT, 16, 8⟩
def Fld.FLT_CTX_STAT_sub_k : Fld := ⟨.FLT_CTX_STAT, 24, 3⟩
def Fld.FLT_CTX_SRC_src : Fld := ⟨.FLT_CTX_SRC, 0, 12⟩
def Fld.FLT_CTX_SRC_src_kind : Fld := ⟨.FLT_CTX_SRC, 12, 2⟩
def Fld.FLT_CTX_WORD_word : Fld := ⟨.FLT_CTX_WORD, 0, 32⟩
def Fld.FLT_CTX_SPRINT_sprint : Fld := ⟨.FLT_CTX_SPRINT, 0, 32⟩
def Fld.FLT_CTX_DCEST_dc_est : Fld := ⟨.FLT_CTX_DCEST, 0, 24⟩
def Fld.FLT_CTX_SAT0_sat_in : Fld := ⟨.FLT_CTX_SAT0, 0, 8⟩
def Fld.FLT_CTX_SAT0_sat_dc : Fld := ⟨.FLT_CTX_SAT0, 8, 8⟩
def Fld.FLT_CTX_SAT0_sat_cic : Fld := ⟨.FLT_CTX_SAT0, 16, 8⟩
def Fld.FLT_CTX_SAT0_sat_hb : Fld := ⟨.FLT_CTX_SAT0, 24, 8⟩
def Fld.FLT_CTX_SAT1_sat_fir : Fld := ⟨.FLT_CTX_SAT1, 0, 8⟩
def Fld.FLT_CTX_SAT1_clamp_cnt : Fld := ⟨.FLT_CTX_SAT1, 8, 8⟩
def Fld.FLT_CTX_SAT1_replaced : Fld := ⟨.FLT_CTX_SAT1, 16, 8⟩
def Fld.FLT_CTX_EVT_state_chg : Fld := ⟨.FLT_CTX_EVT, 0, 1⟩
def Fld.FLT_CTX_EVT_swap_done : Fld := ⟨.FLT_CTX_EVT, 1, 1⟩
def Fld.FLT_CTX_EVT_saturated : Fld := ⟨.FLT_CTX_EVT, 2, 1⟩
def Fld.FLT_CTX_EVT_conflict : Fld := ⟨.FLT_CTX_EVT, 3, 1⟩
def Fld.FLT_CTX_EVT_replaced : Fld := ⟨.FLT_CTX_EVT, 4, 1⟩
def Fld.FLT_SYNC_CTL_pin_grps : Fld := ⟨.FLT_SYNC_CTL, 0, 8⟩
def Fld.FLT_SYNC_CTL_in_dly : Fld := ⟨.FLT_SYNC_CTL, 8, 8⟩
def Fld.FLT_SYNC_CTL_out_en : Fld := ⟨.FLT_SYNC_CTL, 16, 1⟩
def Fld.FLT_SYNC_CMD_grps : Fld := ⟨.FLT_SYNC_CMD, 0, 8⟩
def Fld.FLT_SYNC_CMD_busy : Fld := ⟨.FLT_SYNC_CMD, 8, 1⟩
def Fld.FLT_SYNC_LAST_dtime : Fld := ⟨.FLT_SYNC_LAST, 0, 32⟩
def Fld.FLT_BANK_FLIP_flip : Fld := ⟨.FLT_BANK_FLIP, 0, 16⟩
def Fld.FLT_BANK_FLIP_page : Fld := ⟨.FLT_BANK_FLIP, 16, 16⟩
def Fld.FLT_BANK_BUSY_busy : Fld := ⟨.FLT_BANK_BUSY, 0, 16⟩
def Fld.FLT_BANK_GROW_g32 : Fld := ⟨.FLT_BANK_GROW, 0, 5⟩
def Fld.FLT_BANK_GROW_g48 : Fld := ⟨.FLT_BANK_GROW, 5, 5⟩
def Fld.FLT_BANK_GROW_g64 : Fld := ⟨.FLT_BANK_GROW, 10, 5⟩
def Fld.FLT_BANK_GROW_i32 : Fld := ⟨.FLT_BANK_GROW, 16, 5⟩
def Fld.FLT_BANK_GROW_i48 : Fld := ⟨.FLT_BANK_GROW, 21, 5⟩
def Fld.FLT_BANK_GROW_i64 : Fld := ⟨.FLT_BANK_GROW, 26, 5⟩
def Fld.FLT_CLKOUT_clk_ctx : Fld := ⟨.FLT_CLKOUT, 0, 10⟩
def Fld.FLT_CLKOUT_clk_en : Fld := ⟨.FLT_CLKOUT, 10, 1⟩
def Fld.FLT_CLKOUT_sq_hold : Fld := ⟨.FLT_CLKOUT, 11, 1⟩
def Fld.FLT_CLKOUT_F_f_base : Fld := ⟨.FLT_CLKOUT_F, 0, 28⟩
def Fld.FLT_ARRAY_STAT_running : Fld := ⟨.FLT_ARRAY_STAT, 0, 10⟩
def Fld.FLT_ARRAY_STAT_shadows : Fld := ⟨.FLT_ARRAY_STAT, 10, 6⟩
def Fld.FLT_ARRAY_STAT_load : Fld := ⟨.FLT_ARRAY_STAT, 16, 7⟩
def Fld.FLT_ARRAY_STAT_charge : Fld := ⟨.FLT_ARRAY_STAT, 23, 7⟩
def Fld.FLT_COEF_coef : Fld := ⟨.FLT_COEF, 0, 18⟩
def Fld.CPL_Q_CFG_en : Fld := ⟨.CPL_Q_CFG, 0, 1⟩
def Fld.CPL_Q_CFG_owner_kind : Fld := ⟨.CPL_Q_CFG, 1, 2⟩
def Fld.CPL_Q_CFG_release_mode : Fld := ⟨.CPL_Q_CFG, 3, 1⟩
def Fld.CPL_Q_CFG_flush : Fld := ⟨.CPL_Q_CFG, 4, 1⟩
def Fld.CPL_Q_CFG_owner_idx : Fld := ⟨.CPL_Q_CFG, 8, 11⟩
def Fld.CPL_Q_CFG_owner_path : Fld := ⟨.CPL_Q_CFG, 19, 1⟩
def Fld.CPL_Q_QUOTA_quota : Fld := ⟨.CPL_Q_QUOTA, 0, 30⟩
def Fld.CPL_Q_HURDLE_hurdle : Fld := ⟨.CPL_Q_HURDLE, 0, 30⟩
def Fld.CPL_Q_LAG_lag : Fld := ⟨.CPL_Q_LAG, 0, 16⟩
def Fld.CPL_Q_LAG_hurdle_hyst : Fld := ⟨.CPL_Q_LAG, 16, 16⟩
def Fld.CPL_Q_CMD_op : Fld := ⟨.CPL_Q_CMD, 0, 3⟩
def Fld.CPL_Q_ARG_arg : Fld := ⟨.CPL_Q_ARG, 0, 32⟩
def Fld.CPL_Q_STAT_mark_valid : Fld := ⟨.CPL_Q_STAT, 0, 1⟩
def Fld.CPL_Q_STAT_mark_cause : Fld := ⟨.CPL_Q_STAT, 1, 2⟩
def Fld.CPL_Q_STAT_prod_wait : Fld := ⟨.CPL_Q_STAT, 3, 1⟩
def Fld.CPL_Q_STAT_cons_wait : Fld := ⟨.CPL_Q_STAT, 4, 1⟩
def Fld.CPL_Q_STAT_hurdle_armed : Fld := ⟨.CPL_Q_STAT, 5, 1⟩
def Fld.CPL_Q_OCC_occ : Fld := ⟨.CPL_Q_OCC, 0, 30⟩
def Fld.CPL_Q_WR_wr : Fld := ⟨.CPL_Q_WR, 0, 32⟩
def Fld.CPL_Q_RD_rd : Fld := ⟨.CPL_Q_RD, 0, 32⟩
def Fld.CPL_Q_REL_rel : Fld := ⟨.CPL_Q_REL, 0, 32⟩
def Fld.CPL_Q_MARK_mark : Fld := ⟨.CPL_Q_MARK, 0, 32⟩
def Fld.CPL_Q_RDPTR_rdptr : Fld := ⟨.CPL_Q_RDPTR, 0, 32⟩
def Fld.CPL_Q_CNT_A_forced_cnt : Fld := ⟨.CPL_Q_CNT_A, 0, 24⟩
def Fld.CPL_Q_CNT_A_mark_lost : Fld := ⟨.CPL_Q_CNT_A, 24, 8⟩
def Fld.CPL_Q_CNT_B_overrun_cnt : Fld := ⟨.CPL_Q_CNT_B, 0, 24⟩
def Fld.CPL_Q_CNT_B_drop_cnt : Fld := ⟨.CPL_Q_CNT_B, 24, 8⟩
def Fld.CPL_Q_EVT_hurdle_hit : Fld := ⟨.CPL_Q_EVT, 0, 1⟩
def Fld.CPL_Q_EVT_mark_lost_evt : Fld := ⟨.CPL_Q_EVT, 1, 1⟩
def Fld.CPL_Q_EVT_overrun : Fld := ⟨.CPL_Q_EVT, 2, 1⟩
def Fld.CPL_Q_EVT_poison : Fld := ⟨.CPL_Q_EVT, 3, 1⟩
def Fld.CPL_Q_EVT_chain_fault : Fld := ⟨.CPL_Q_EVT, 4, 1⟩
def Fld.CPL_Q_EVT_cmd_err : Fld := ⟨.CPL_Q_EVT, 5, 1⟩
def Fld.CPL_POOL_STAT_pool_ready : Fld := ⟨.CPL_POOL_STAT, 0, 1⟩
def Fld.CPL_POOL_STAT_pool_short : Fld := ⟨.CPL_POOL_STAT, 1, 1⟩
def Fld.CPL_POOL_STAT_rebuild_busy : Fld := ⟨.CPL_POOL_STAT, 2, 1⟩
def Fld.CPL_POOL_STAT_sites_live : Fld := ⟨.CPL_POOL_STAT, 16, 16⟩
def Fld.CPL_POOL_CELLS_usable : Fld := ⟨.CPL_POOL_CELLS, 0, 30⟩
def Fld.CPL_POOL_FREE_free : Fld := ⟨.CPL_POOL_FREE, 0, 30⟩
def Fld.CPL_POOL_QSUM_qsum : Fld := ⟨.CPL_POOL_QSUM, 0, 30⟩
def Fld.CPL_POOL_STRAND_strand : Fld := ⟨.CPL_POOL_STRAND, 0, 30⟩
def Fld.CPL_POOL_CMD_rebuild : Fld := ⟨.CPL_POOL_CMD, 0, 1⟩
def Fld.CPL_BAR2_BASE_base : Fld := ⟨.CPL_BAR2_BASE, 0, 18⟩
def Fld.CPL_BAR2_STAT_poison : Fld := ⟨.CPL_BAR2_STAT, 0, 1⟩
def Fld.CPL_BAR2_STAT_hole : Fld := ⟨.CPL_BAR2_STAT, 1, 1⟩
def Fld.CPL_CE_THR_ce_thr : Fld := ⟨.CPL_CE_THR, 0, 32⟩
def Fld.CPL_HOST_OP_op : Fld := ⟨.CPL_HOST_OP, 0, 2⟩
def Fld.CPL_HOST_OP_queue : Fld := ⟨.CPL_HOST_OP, 4, 12⟩
def Fld.CPL_HOST_OP_busy : Fld := ⟨.CPL_HOST_OP, 16, 1⟩
def Fld.CPL_HOST_OP_op_err : Fld := ⟨.CPL_HOST_OP, 17, 1⟩
def Fld.CPL_HOST_OP_poison : Fld := ⟨.CPL_HOST_OP, 18, 1⟩
def Fld.CPL_HOST_DATA_data : Fld := ⟨.CPL_HOST_DATA, 0, 32⟩
def Fld.CPL_SITE_STAT_site_state : Fld := ⟨.CPL_SITE_STAT, 0, 2⟩
def Fld.CPL_SITE_STAT_clamshell : Fld := ⟨.CPL_SITE_STAT, 2, 1⟩
def Fld.CPL_SITE_STAT_density : Fld := ⟨.CPL_SITE_STAT, 3, 3⟩
def Fld.CPL_SITE_STAT_pin_rate : Fld := ⟨.CPL_SITE_STAT, 8, 8⟩
def Fld.CPL_SITE_CE_ce_cnt : Fld := ⟨.CPL_SITE_CE, 0, 32⟩
def Fld.CPL_SITE_UE_ue_cnt : Fld := ⟨.CPL_SITE_UE, 0, 16⟩
def Fld.CPL_SITE_UE_poison_cnt : Fld := ⟨.CPL_SITE_UE, 16, 16⟩
def Fld.CPL_SITE_RET_retired : Fld := ⟨.CPL_SITE_RET, 0, 25⟩
def Fld.PRT_GRP_CFG_en : Fld := ⟨.PRT_GRP_CFG, 0, 1⟩
def Fld.PRT_GRP_CFG_type : Fld := ⟨.PRT_GRP_CFG, 1, 2⟩
def Fld.PRT_GRP_CFG_level : Fld := ⟨.PRT_GRP_CFG, 3, 1⟩
def Fld.PRT_GRP_CFG_snc : Fld := ⟨.PRT_GRP_CFG, 4, 1⟩
def Fld.PRT_GRP_CFG_mon_lvl : Fld := ⟨.PRT_GRP_CFG, 5, 3⟩
def Fld.PRT_GRP_CFG_sd_en : Fld := ⟨.PRT_GRP_CFG, 8, 1⟩
def Fld.PRT_GRP_CFG_revertive : Fld := ⟨.PRT_GRP_CFG, 9, 1⟩
def Fld.PRT_GRP_CFG_aps_en : Fld := ⟨.PRT_GRP_CFG, 10, 1⟩
def Fld.PRT_GRP_CFG_aps_lvl : Fld := ⟨.PRT_GRP_CFG, 11, 3⟩
def Fld.PRT_GRP_CFG_hitless : Fld := ⟨.PRT_GRP_CFG, 14, 1⟩
def Fld.PRT_GRP_CFG_align_mode : Fld := ⟨.PRT_GRP_CFG, 15, 2⟩
def Fld.PRT_GRP_CFG_n : Fld := ⟨.PRT_GRP_CFG, 17, 4⟩
def Fld.PRT_GRP_TMR_holdoff : Fld := ⟨.PRT_GRP_TMR, 0, 7⟩
def Fld.PRT_GRP_TMR_wtr : Fld := ⟨.PRT_GRP_TMR, 8, 10⟩
def Fld.PRT_GRP_ALN_lap_pos : Fld := ⟨.PRT_GRP_ALN, 0, 6⟩
def Fld.PRT_GRP_ALN_dmax : Fld := ⟨.PRT_GRP_ALN, 8, 10⟩
def Fld.PRT_GRP_MEM_member : Fld := ⟨.PRT_GRP_MEM, 0, 12⟩
def Fld.PRT_GRP_CMD_op : Fld := ⟨.PRT_GRP_CMD, 0, 3⟩
def Fld.PRT_GRP_CMD_sig : Fld := ⟨.PRT_GRP_CMD, 3, 4⟩
def Fld.PRT_GRP_STAT_sel_sig : Fld := ⟨.PRT_GRP_STAT, 0, 4⟩
def Fld.PRT_GRP_STAT_br_sig : Fld := ⟨.PRT_GRP_STAT, 4, 4⟩
def Fld.PRT_GRP_STAT_req_local : Fld := ⟨.PRT_GRP_STAT, 8, 4⟩
def Fld.PRT_GRP_STAT_req_far : Fld := ⟨.PRT_GRP_STAT, 12, 4⟩
def Fld.PRT_GRP_STAT_holdoff_run : Fld := ⟨.PRT_GRP_STAT, 16, 1⟩
def Fld.PRT_GRP_STAT_wtr_run : Fld := ⟨.PRT_GRP_STAT, 17, 1⟩
def Fld.PRT_GRP_STAT_frozen : Fld := ⟨.PRT_GRP_STAT, 18, 1⟩
def Fld.PRT_GRP_STAT_fop : Fld := ⟨.PRT_GRP_STAT, 20, 4⟩
def Fld.PRT_GRP_SFSD_sf : Fld := ⟨.PRT_GRP_SFSD, 0, 16⟩
def Fld.PRT_GRP_SFSD_sd : Fld := ⟨.PRT_GRP_SFSD, 16, 16⟩
def Fld.PRT_GRP_APS_TX_aps_tx : Fld := ⟨.PRT_GRP_APS_TX, 0, 32⟩
def Fld.PRT_GRP_APS_RX_aps_rx : Fld := ⟨.PRT_GRP_APS_RX, 0, 32⟩
def Fld.PRT_ALN_STAT_aln_state : Fld := ⟨.PRT_ALN_STAT, 0, 3⟩
def Fld.PRT_ALN_STAT_early_path : Fld := ⟨.PRT_ALN_STAT, 3, 1⟩
def Fld.PRT_ALN_STAT_seated : Fld := ⟨.PRT_ALN_STAT, 4, 1⟩
def Fld.PRT_ALN_STAT_lap_active : Fld := ⟨.PRT_ALN_STAT, 5, 1⟩
def Fld.PRT_ALN_STAT_pending : Fld := ⟨.PRT_ALN_STAT, 6, 1⟩
def Fld.PRT_ALN_STAT_need_over : Fld := ⟨.PRT_ALN_STAT, 7, 1⟩
def Fld.PRT_ALN_STAT_cause : Fld := ⟨.PRT_ALN_STAT, 8, 4⟩
def Fld.PRT_ALN_STAT_mm_run : Fld := ⟨.PRT_ALN_STAT, 12, 4⟩
def Fld.PRT_ALN_OFFSET_delta : Fld := ⟨.PRT_ALN_OFFSET, 0, 32⟩
def Fld.PRT_ALN_DELAY_delay_ns : Fld := ⟨.PRT_ALN_DELAY, 0, 32⟩
def Fld.PRT_ALN_DMIN_dmin_ns : Fld := ⟨.PRT_ALN_DMIN, 0, 32⟩
def Fld.PRT_ALN_DMAX_dmax_ns : Fld := ⟨.PRT_ALN_DMAX, 0, 32⟩
def Fld.PRT_ALN_NEED_need : Fld := ⟨.PRT_ALN_NEED, 0, 30⟩
def Fld.PRT_GRP_SW_sw_cnt : Fld := ⟨.PRT_GRP_SW, 0, 16⟩
def Fld.PRT_GRP_SW_sw_hitless : Fld := ⟨.PRT_GRP_SW, 16, 16⟩
def Fld.PRT_GRP_SWQ_sw_unver : Fld := ⟨.PRT_GRP_SWQ, 0, 16⟩
def Fld.PRT_GRP_SWQ_sw_plain : Fld := ⟨.PRT_GRP_SWQ, 16, 16⟩
def Fld.PRT_ALN_CNT_probe_ok : Fld := ⟨.PRT_ALN_CNT, 0, 16⟩
def Fld.PRT_ALN_CNT_probe_amb : Fld := ⟨.PRT_ALN_CNT, 16, 16⟩
def Fld.PRT_ALN_CNT2_corr_cnt : Fld := ⟨.PRT_ALN_CNT2, 0, 16⟩
def Fld.PRT_ALN_CNT2_mm_cnt : Fld := ⟨.PRT_ALN_CNT2, 16, 16⟩
def Fld.PRT_GRP_HIT_hit_frames : Fld := ⟨.PRT_GRP_HIT, 0, 32⟩
def Fld.PRT_GRP_EVT_switched : Fld := ⟨.PRT_GRP_EVT, 0, 1⟩
def Fld.PRT_GRP_EVT_not_hitless : Fld := ⟨.PRT_GRP_EVT, 1, 1⟩
def Fld.PRT_GRP_EVT_aln_chg : Fld := ⟨.PRT_GRP_EVT, 2, 1⟩
def Fld.PRT_GRP_EVT_corrected : Fld := ⟨.PRT_GRP_EVT, 3, 1⟩
def Fld.PRT_GRP_EVT_blind_chg : Fld := ⟨.PRT_GRP_EVT, 4, 1⟩
def Fld.PRT_GRP_EVT_cmd_refused : Fld := ⟨.PRT_GRP_EVT, 5, 1⟩
def Fld.PRT_GRP_EVT_fop_chg : Fld := ⟨.PRT_GRP_EVT, 6, 1⟩
def Fld.PRT_HL_BUDGET_budget : Fld := ⟨.PRT_HL_BUDGET, 0, 16⟩
def Fld.PRT_HL_BUDGET_used : Fld := ⟨.PRT_HL_BUDGET, 16, 16⟩
def Fld.PRT_LAP_TX_lap_en : Fld := ⟨.PRT_LAP_TX, 0, 1⟩
def Fld.PRT_LAP_TX_lap_pos : Fld := ⟨.PRT_LAP_TX, 1, 6⟩
def Fld.PAIR_CTL_pair_en : Fld := ⟨.PAIR_CTL, 0, 1⟩
def Fld.PAIR_CTL_pair_id : Fld := ⟨.PAIR_CTL, 1, 1⟩
def Fld.PAIR_CTL_iso_policy : Fld := ⟨.PAIR_CTL, 2, 1⟩
def Fld.PAIR_CTL_to_epochs : Fld := ⟨.PAIR_CTL, 4, 4⟩
def Fld.PAIR_CTL_disc_epochs : Fld := ⟨.PAIR_CTL, 8, 4⟩
def Fld.PAIR_CTL_yield_to : Fld := ⟨.PAIR_CTL, 12, 4⟩
def Fld.PAIR_CTL_own_mask : Fld := ⟨.PAIR_CTL, 16, 8⟩
def Fld.PAIR_HEALTH_CTL_health_mask : Fld := ⟨.PAIR_HEALTH_CTL, 0, 8⟩
def Fld.PAIR_BATON_CTL_rx_pol_inv : Fld := ⟨.PAIR_BATON_CTL, 0, 4⟩
def Fld.PAIR_BATON_CTL_tx_pol_inv : Fld := ⟨.PAIR_BATON_CTL, 4, 4⟩
def Fld.PAIR_STAT_agent_state : Fld := ⟨.PAIR_STAT, 0, 4⟩
def Fld.PAIR_STAT_partner_state : Fld := ⟨.PAIR_STAT, 4, 4⟩
def Fld.PAIR_STAT_baton_up : Fld := ⟨.PAIR_STAT, 8, 1⟩
def Fld.PAIR_STAT_pacer_up : Fld := ⟨.PAIR_STAT, 9, 1⟩
def Fld.PAIR_STAT_mirror : Fld := ⟨.PAIR_STAT, 10, 2⟩
def Fld.PAIR_STAT_arb_req : Fld := ⟨.PAIR_STAT, 12, 1⟩
def Fld.PAIR_STAT_dual_active : Fld := ⟨.PAIR_STAT, 13, 1⟩
def Fld.PAIR_STAT_unhealthy : Fld := ⟨.PAIR_STAT, 14, 1⟩
def Fld.PAIR_STAT_partner_unhealthy : Fld := ⟨.PAIR_STAT, 15, 1⟩
def Fld.PAIR_STAT_mirror_age : Fld := ⟨.PAIR_STAT, 16, 4⟩
def Fld.PAIR_HEALTH_health : Fld := ⟨.PAIR_HEALTH, 0, 8⟩
def Fld.PAIR_HEALTH_partner_health : Fld := ⟨.PAIR_HEALTH, 8, 8⟩
def Fld.PAIR_EPOCH_SENT_sent : Fld := ⟨.PAIR_EPOCH_SENT, 0, 32⟩
def Fld.PAIR_EPOCH_APPL_applied : Fld := ⟨.PAIR_EPOCH_APPL, 0, 32⟩
def Fld.PAIR_EPOCH_ACK_acked : Fld := ⟨.PAIR_EPOCH_ACK, 0, 32⟩
def Fld.PAIR_MSG_LEN_len : Fld := ⟨.PAIR_MSG_LEN, 0, 21⟩
def Fld.PAIR_SYNC_STAT_parts_rx : Fld := ⟨.PAIR_SYNC_STAT, 0, 3⟩
def Fld.PAIR_SYNC_STAT_parts_total : Fld := ⟨.PAIR_SYNC_STAT, 3, 3⟩
def Fld.PAIR_CMD_resync : Fld := ⟨.PAIR_CMD, 0, 1⟩
def Fld.PAIR_CNT_APPL_appl_cnt : Fld := ⟨.PAIR_CNT_APPL, 0, 32⟩
def Fld.PAIR_CNT_DISC_disc_cnt : Fld := ⟨.PAIR_CNT_DISC, 0, 16⟩
def Fld.PAIR_CNT_DISC_sync_cnt : Fld := ⟨.PAIR_CNT_DISC, 16, 16⟩
def Fld.PAIR_CNT_DOWN_baton_down : Fld := ⟨.PAIR_CNT_DOWN, 0, 16⟩
def Fld.PAIR_CNT_DOWN_pacer_down : Fld := ⟨.PAIR_CNT_DOWN, 16, 16⟩
def Fld.PAIR_CNT_TKO_warm_cnt : Fld := ⟨.PAIR_CNT_TKO, 0, 16⟩
def Fld.PAIR_CNT_TKO_cold_cnt : Fld := ⟨.PAIR_CNT_TKO, 16, 16⟩
def Fld.PAIR_CNT_YIELD_yield_cnt : Fld := ⟨.PAIR_CNT_YIELD, 0, 16⟩
def Fld.PAIR_CNT_YIELD_dual_cnt : Fld := ⟨.PAIR_CNT_YIELD, 16, 16⟩
def Fld.PAIR_EVT_state_chg : Fld := ⟨.PAIR_EVT, 0, 1⟩
def Fld.PAIR_EVT_path_chg : Fld := ⟨.PAIR_EVT, 1, 1⟩
def Fld.PAIR_EVT_takeover : Fld := ⟨.PAIR_EVT, 2, 1⟩
def Fld.PAIR_EVT_yielded : Fld := ⟨.PAIR_EVT, 3, 1⟩
def Fld.PAIR_EVT_stale : Fld := ⟨.PAIR_EVT, 4, 1⟩
def Fld.PAIR_EVT_dual : Fld := ⟨.PAIR_EVT, 5, 1⟩
def Fld.PAIR_EVT_discard : Fld := ⟨.PAIR_EVT, 6, 1⟩
def Fld.PAIR_EVT_cfg_mismatch : Fld := ⟨.PAIR_EVT, 7, 1⟩
def Fld.CHK_CK_CFG_width : Fld := ⟨.CHK_CK_CFG, 0, 7⟩
def Fld.CHK_CK_CFG_refin : Fld := ⟨.CHK_CK_CFG, 7, 1⟩
def Fld.CHK_CK_CFG_refout : Fld := ⟨.CHK_CK_CFG, 8, 1⟩
def Fld.CHK_CK_POLY_LO_poly : Fld := ⟨.CHK_CK_POLY_LO, 0, 32⟩
def Fld.CHK_CK_POLY_HI_poly : Fld := ⟨.CHK_CK_POLY_HI, 0, 32⟩
def Fld.CHK_CK_INIT_LO_init : Fld := ⟨.CHK_CK_INIT_LO, 0, 32⟩
def Fld.CHK_CK_INIT_HI_init : Fld := ⟨.CHK_CK_INIT_HI, 0, 32⟩
def Fld.CHK_CK_XOR_LO_xorout : Fld := ⟨.CHK_CK_XOR_LO, 0, 32⟩
def Fld.CHK_CK_XOR_HI_xorout : Fld := ⟨.CHK_CK_XOR_HI, 0, 32⟩
def Fld.CHK_CK_RUN_LO_run : Fld := ⟨.CHK_CK_RUN_LO, 0, 32⟩
def Fld.CHK_CK_RUN_HI_run : Fld := ⟨.CHK_CK_RUN_HI, 0, 32⟩
def Fld.CHK_CK_RES_LO_res : Fld := ⟨.CHK_CK_RES_LO, 0, 32⟩
def Fld.CHK_CK_RES_HI_res : Fld := ⟨.CHK_CK_RES_HI, 0, 32⟩
def Fld.CHK_CK_DIN_din : Fld := ⟨.CHK_CK_DIN, 0, 32⟩
def Fld.CHK_CK_DIN8_din8 : Fld := ⟨.CHK_CK_DIN8, 0, 8⟩
def Fld.CHK_CK_CMD_op : Fld := ⟨.CHK_CK_CMD, 0, 2⟩
def Fld.CHK_CK_CMD_preset : Fld := ⟨.CHK_CK_CMD, 4, 3⟩
def Fld.CHK_CK_STAT_scan_owned : Fld := ⟨.CHK_CK_STAT, 0, 1⟩
def Fld.CHK_CK_STAT_ck_err : Fld := ⟨.CHK_CK_STAT, 1, 1⟩
def Fld.CHK_CK_BYTES_bytes : Fld := ⟨.CHK_CK_BYTES, 0, 32⟩
def Fld.CHK_SCAN_CTL_region : Fld := ⟨.CHK_SCAN_CTL, 0, 8⟩
def Fld.CHK_SCAN_CTL_ck : Fld := ⟨.CHK_SCAN_CTL, 8, 3⟩
def Fld.CHK_SCAN_CTL_mode : Fld := ⟨.CHK_SCAN_CTL, 11, 1⟩
def Fld.CHK_SCAN_CTL_elem : Fld := ⟨.CHK_SCAN_CTL, 12, 10⟩
def Fld.CHK_SCAN_START_LO_start : Fld := ⟨.CHK_SCAN_START_LO, 0, 32⟩
def Fld.CHK_SCAN_START_HI_start : Fld := ⟨.CHK_SCAN_START_HI, 0, 6⟩
def Fld.CHK_SCAN_COUNT_count : Fld := ⟨.CHK_SCAN_COUNT, 0, 32⟩
def Fld.CHK_SCAN_STRIDE_stride : Fld := ⟨.CHK_SCAN_STRIDE, 0, 32⟩
def Fld.CHK_SCAN_CMD_op : Fld := ⟨.CHK_SCAN_CMD, 0, 2⟩
def Fld.CHK_SCAN_CMD_busy : Fld := ⟨.CHK_SCAN_CMD, 2, 1⟩
def Fld.CHK_SCAN_CMD_outcome : Fld := ⟨.CHK_SCAN_CMD, 3, 2⟩
def Fld.CHK_SCAN_POS_pos : Fld := ⟨.CHK_SCAN_POS, 0, 32⟩
def Fld.CHK_SCAN_FLAGS_hole_cnt : Fld := ⟨.CHK_SCAN_FLAGS, 0, 16⟩
def Fld.CHK_SCAN_FLAGS_ue_cnt : Fld := ⟨.CHK_SCAN_FLAGS, 16, 16⟩
def Fld.CHK_TBL_CTL_tbl_en : Fld := ⟨.CHK_TBL_CTL, 0, 1⟩
def Fld.CHK_TBL_CTL_tbl_period : Fld := ⟨.CHK_TBL_CTL, 8, 8⟩
def Fld.CHK_TBL_LAST_last_b : Fld := ⟨.CHK_TBL_LAST, 0, 10⟩
def Fld.CHK_TBL_LAST_passes : Fld := ⟨.CHK_TBL_LAST, 16, 16⟩
def Fld.CHK_TBL_CNT_ref_rep : Fld := ⟨.CHK_TBL_CNT, 0, 16⟩
def Fld.CHK_TBL_CNT_data_bad : Fld := ⟨.CHK_TBL_CNT, 16, 8⟩
def Fld.CHK_TBL_CNT_both_bad : Fld := ⟨.CHK_TBL_CNT, 24, 8⟩
def Fld.CHK_TBL_BAD_bad_tbl : Fld := ⟨.CHK_TBL_BAD, 0, 10⟩
def Fld.CHK_TBL_INJ_inj_b : Fld := ⟨.CHK_TBL_INJ, 0, 10⟩
def Fld.CHK_TBL_INJ_inj_a : Fld := ⟨.CHK_TBL_INJ, 10, 1⟩
def Fld.CHK_TBL_INJ_inj_b_copy : Fld := ⟨.CHK_TBL_INJ, 11, 1⟩
def Fld.CHK_DIGEST_digest : Fld := ⟨.CHK_DIGEST, 0, 32⟩
def Fld.CHK_SCRUB_CTL_scrub_rate : Fld := ⟨.CHK_SCRUB_CTL, 0, 7⟩
def Fld.CHK_SCRUB_POS_pos : Fld := ⟨.CHK_SCRUB_POS, 0, 32⟩
def Fld.CHK_SCRUB_PASS_pass_cnt : Fld := ⟨.CHK_SCRUB_PASS, 0, 32⟩
def Fld.CHK_SCRUB_CNT_wb_cnt : Fld := ⟨.CHK_SCRUB_CNT, 0, 16⟩
def Fld.CHK_SCRUB_CNT_wb_drop : Fld := ⟨.CHK_SCRUB_CNT, 16, 16⟩
def Fld.CHK_ALIVE_CNT_A_missed : Fld := ⟨.CHK_ALIVE_CNT_A, 0, 16⟩
def Fld.CHK_ALIVE_CNT_A_repeats : Fld := ⟨.CHK_ALIVE_CNT_A, 16, 16⟩
def Fld.CHK_ALIVE_CNT_B_stale : Fld := ⟨.CHK_ALIVE_CNT_B, 0, 16⟩
def Fld.CHK_ALIVE_CNT_B_resyncs : Fld := ⟨.CHK_ALIVE_CNT_B, 16, 16⟩
def Fld.CHK_REF_A_ref : Fld := ⟨.CHK_REF_A, 0, 32⟩
def Fld.CHK_REF_B_ref : Fld := ⟨.CHK_REF_B, 0, 32⟩
def Fld.MTX_MODE_mode_req : Fld := ⟨.MTX_MODE, 0, 1⟩
def Fld.MTX_MODE_mode : Fld := ⟨.MTX_MODE, 8, 1⟩
def Fld.MTX_MODE_mode_busy : Fld := ⟨.MTX_MODE, 9, 1⟩
def Fld.MTX_HANG_LIM_hang_lim : Fld := ⟨.MTX_HANG_LIM, 0, 24⟩
def Fld.MTX_MRST_rst_m5 : Fld := ⟨.MTX_MRST, 5, 1⟩
def Fld.MTX_MRST_rst_m6 : Fld := ⟨.MTX_MRST, 6, 1⟩
def Fld.MTX_MRST_rst_m9 : Fld := ⟨.MTX_MRST, 9, 1⟩
def Fld.MTX_STAT_stalled : Fld := ⟨.MTX_STAT, 0, 10⟩
def Fld.MTX_STAT_hang_recent : Fld := ⟨.MTX_STAT, 16, 1⟩
def Fld.MTX_STAT_bridge_busy : Fld := ⟨.MTX_STAT, 17, 1⟩
def Fld.MTX_PRIO_LO_prio0 : Fld := ⟨.MTX_PRIO_LO, 0, 4⟩
def Fld.MTX_PRIO_LO_prio1 : Fld := ⟨.MTX_PRIO_LO, 4, 4⟩
def Fld.MTX_PRIO_LO_prio2 : Fld := ⟨.MTX_PRIO_LO, 8, 4⟩
def Fld.MTX_PRIO_LO_prio3 : Fld := ⟨.MTX_PRIO_LO, 12, 4⟩
def Fld.MTX_PRIO_LO_prio4 : Fld := ⟨.MTX_PRIO_LO, 16, 4⟩
def Fld.MTX_PRIO_LO_prio5 : Fld := ⟨.MTX_PRIO_LO, 20, 4⟩
def Fld.MTX_PRIO_LO_prio6 : Fld := ⟨.MTX_PRIO_LO, 24, 4⟩
def Fld.MTX_PRIO_LO_prio7 : Fld := ⟨.MTX_PRIO_LO, 28, 4⟩
def Fld.MTX_PRIO_HI_prio8 : Fld := ⟨.MTX_PRIO_HI, 0, 4⟩
def Fld.MTX_PRIO_HI_prio9 : Fld := ⟨.MTX_PRIO_HI, 4, 4⟩
def Fld.MTX_MSTAT_outstanding : Fld := ⟨.MTX_MSTAT, 0, 5⟩
def Fld.MTX_MSTAT_stalled : Fld := ⟨.MTX_MSTAT, 5, 1⟩
def Fld.MTX_MSTAT_held : Fld := ⟨.MTX_MSTAT, 6, 1⟩
def Fld.MTX_MSTAT_rst_busy : Fld := ⟨.MTX_MSTAT, 7, 1⟩
def Fld.MTX_HANG_REC_rec_valid : Fld := ⟨.MTX_HANG_REC, 0, 1⟩
def Fld.MTX_HANG_REC_cause : Fld := ⟨.MTX_HANG_REC, 1, 1⟩
def Fld.MTX_HANG_REC_write : Fld := ⟨.MTX_HANG_REC, 2, 1⟩
def Fld.MTX_HANG_REC_layered : Fld := ⟨.MTX_HANG_REC, 3, 1⟩
def Fld.MTX_HANG_REC_master : Fld := ⟨.MTX_HANG_REC, 4, 4⟩
def Fld.MTX_HANG_REC_target : Fld := ⟨.MTX_HANG_REC, 8, 4⟩
def Fld.MTX_HANG_REC_id : Fld := ⟨.MTX_HANG_REC, 12, 4⟩
def Fld.MTX_HANG_REC_beats : Fld := ⟨.MTX_HANG_REC, 16, 5⟩
def Fld.MTX_HANG_ADDR_LO_addr : Fld := ⟨.MTX_HANG_ADDR_LO, 0, 32⟩
def Fld.MTX_HANG_ADDR_HI_addr : Fld := ⟨.MTX_HANG_ADDR_HI, 0, 12⟩
def Fld.MTX_HANG_DTIME_dtime : Fld := ⟨.MTX_HANG_DTIME, 0, 32⟩
def Fld.MTX_CNT_A_hang_cnt : Fld := ⟨.MTX_CNT_A, 0, 16⟩
def Fld.MTX_CNT_A_miss_cnt : Fld := ⟨.MTX_CNT_A, 16, 16⟩
def Fld.MTX_CNT_B_refused_cnt : Fld := ⟨.MTX_CNT_B, 0, 16⟩
def Fld.MTX_CNT_B_down_cnt : Fld := ⟨.MTX_CNT_B, 16, 16⟩
def Fld.MTX_CNT_C_rstburst_cnt : Fld := ⟨.MTX_CNT_C, 0, 16⟩
def Fld.MTX_CNT_C_hold_cnt : Fld := ⟨.MTX_CNT_C, 16, 16⟩
def Fld.MTX_EVT_hang : Fld := ⟨.MTX_EVT, 0, 1⟩
def Fld.MTX_EVT_miss : Fld := ⟨.MTX_EVT, 1, 1⟩
def Fld.MTX_EVT_released : Fld := ⟨.MTX_EVT, 2, 1⟩
def Fld.MTX_EVT_refused : Fld := ⟨.MTX_EVT, 3, 1⟩
def Fld.MTX_EVT_mode_chg : Fld := ⟨.MTX_EVT, 4, 1⟩
def Fld.MTX_EVT_rst_burst : Fld := ⟨.MTX_EVT, 5, 1⟩
def Fld.MTX_EVT_down : Fld := ⟨.MTX_EVT, 6, 1⟩
def Fld.REC_CTL_en : Fld := ⟨.REC_CTL, 0, 1⟩
def Fld.REC_CTL_rp_bif : Fld := ⟨.REC_CTL, 1, 2⟩
def Fld.REC_CTL_auto_format : Fld := ⟨.REC_CTL, 3, 1⟩
def Fld.REC_CTL_rec_flush : Fld := ⟨.REC_CTL, 4, 6⟩
def Fld.REC_CTL_bulk_rate : Fld := ⟨.REC_CTL, 10, 8⟩
def Fld.REC_CTL_wear_thr : Fld := ⟨.REC_CTL, 18, 7⟩
def Fld.REC_STAT_rec_state : Fld := ⟨.REC_STAT, 0, 3⟩
def Fld.REC_STAT_ready : Fld := ⟨.REC_STAT, 3, 1⟩
def Fld.REC_STAT_early : Fld := ⟨.REC_STAT, 4, 1⟩
def Fld.REC_STAT_committing : Fld := ⟨.REC_STAT, 5, 1⟩
def Fld.REC_STAT_drives_live : Fld := ⟨.REC_STAT, 8, 4⟩
def Fld.REC_RING_ID_LO_ring_id : Fld := ⟨.REC_RING_ID_LO, 0, 32⟩
def Fld.REC_RING_ID_HI_ring_id : Fld := ⟨.REC_RING_ID_HI, 0, 32⟩
def Fld.REC_SLOTS_slots : Fld := ⟨.REC_SLOTS, 0, 19⟩
def Fld.REC_SEG_CUR_cur : Fld := ⟨.REC_SEG_CUR, 0, 19⟩
def Fld.REC_SEG_SEQ_LO_seg_seq : Fld := ⟨.REC_SEG_SEQ_LO, 0, 32⟩
def Fld.REC_SEG_SEQ_HI_seg_seq : Fld := ⟨.REC_SEG_SEQ_HI, 0, 32⟩
def Fld.REC_OLDEST_oldest : Fld := ⟨.REC_OLDEST, 0, 32⟩
def Fld.REC_RATE_rate : Fld := ⟨.REC_RATE, 0, 32⟩
def Fld.REC_CNT_gaps : Fld := ⟨.REC_CNT, 0, 16⟩
def Fld.REC_CNT_drops : Fld := ⟨.REC_CNT, 16, 16⟩
def Fld.REC_REBUILD_rb_slot : Fld := ⟨.REC_REBUILD, 0, 19⟩
def Fld.REC_REBUILD_rb_busy : Fld := ⟨.REC_REBUILD, 19, 1⟩
def Fld.REC_REBUILD_rb_resumes : Fld := ⟨.REC_REBUILD, 20, 8⟩
def Fld.REC_CMD_op : Fld := ⟨.REC_CMD, 0, 3⟩
def Fld.REC_CMD_key : Fld := ⟨.REC_CMD, 16, 16⟩
def Fld.REC_DRV_STAT_drv_state : Fld := ⟨.REC_DRV_STAT, 0, 2⟩
def Fld.REC_DRV_STAT_width : Fld := ⟨.REC_DRV_STAT, 2, 2⟩
def Fld.REC_DRV_STAT_vwc : Fld := ⟨.REC_DRV_STAT, 4, 1⟩
def Fld.REC_DRV_STAT_dsm : Fld := ⟨.REC_DRV_STAT, 5, 1⟩
def Fld.REC_DRV_STAT_ns_used : Fld := ⟨.REC_DRV_STAT, 8, 4⟩
def Fld.REC_DRV_STAT_pct_used : Fld := ⟨.REC_DRV_STAT, 12, 8⟩
def Fld.REC_DRV_STAT_crit_warn : Fld := ⟨.REC_DRV_STAT, 20, 8⟩
def Fld.REC_DRV_SLOTS_dslots : Fld := ⟨.REC_DRV_SLOTS, 0, 19⟩
def Fld.REC_DRV_DUW_LO_duw : Fld := ⟨.REC_DRV_DUW_LO, 0, 32⟩
def Fld.REC_DRV_DUW_HI_duw : Fld := ⟨.REC_DRV_DUW_HI, 0, 32⟩
def Fld.REC_RD_CMD_op : Fld := ⟨.REC_RD_CMD, 0, 3⟩
def Fld.REC_RD_CMD_busy : Fld := ⟨.REC_RD_CMD, 3, 1⟩
def Fld.REC_RD_CMD_status : Fld := ⟨.REC_RD_CMD, 4, 3⟩
def Fld.REC_RD_CMD_rd_irq : Fld := ⟨.REC_RD_CMD, 7, 1⟩
def Fld.REC_RD_CMD_count : Fld := ⟨.REC_RD_CMD, 8, 8⟩
def Fld.REC_RD_CMD_sc : Fld := ⟨.REC_RD_CMD, 16, 16⟩
def Fld.REC_RD_ARG0_arg0 : Fld := ⟨.REC_RD_ARG0, 0, 32⟩
def Fld.REC_RD_ARG1_arg1 : Fld := ⟨.REC_RD_ARG1, 0, 14⟩
def Fld.REC_RD_RES_slot : Fld := ⟨.REC_RD_RES, 0, 19⟩
def Fld.REC_RD_RES_found : Fld := ⟨.REC_RD_RES, 19, 1⟩
def Fld.REC_RD_BAD_bad : Fld := ⟨.REC_RD_BAD, 0, 32⟩
def Fld.REC_RD_APER_aper : Fld := ⟨.REC_RD_APER, 0, 32⟩
def Fld.REC_CAP_BUDGET_used : Fld := ⟨.REC_CAP_BUDGET, 0, 16⟩
def Fld.REC_CAP_BUDGET_budget : Fld := ⟨.REC_CAP_BUDGET, 16, 16⟩
def Fld.REC_EVT_seg_commit : Fld := ⟨.REC_EVT, 0, 1⟩
def Fld.REC_EVT_drive_chg : Fld := ⟨.REC_EVT, 1, 1⟩
def Fld.REC_EVT_gap : Fld := ⟨.REC_EVT, 2, 1⟩
def Fld.REC_EVT_read_done : Fld := ⟨.REC_EVT, 3, 1⟩
def Fld.REC_EVT_capture : Fld := ⟨.REC_EVT, 4, 1⟩
def Fld.REC_EVT_cmd_err : Fld := ⟨.REC_EVT, 5, 1⟩
def Fld.REC_EVT_health : Fld := ⟨.REC_EVT, 6, 1⟩
def Fld.REC_CS_CFG_en : Fld := ⟨.REC_CS_CFG, 0, 1⟩
def Fld.REC_CS_CFG_rearm : Fld := ⟨.REC_CS_CFG, 1, 1⟩
def Fld.REC_CS_CFG_trig_kind : Fld := ⟨.REC_CS_CFG, 2, 2⟩
def Fld.REC_CS_CFG_chan : Fld := ⟨.REC_CS_CFG, 8, 8⟩
def Fld.REC_CS_TRIG_trig : Fld := ⟨.REC_CS_TRIG, 0, 32⟩
def Fld.REC_CS_TARG_targ : Fld := ⟨.REC_CS_TARG, 0, 32⟩
def Fld.REC_CS_DEPTH_pre : Fld := ⟨.REC_CS_DEPTH, 0, 16⟩
def Fld.REC_CS_DEPTH_post : Fld := ⟨.REC_CS_DEPTH, 16, 16⟩
def Fld.REC_CS_CMD_op : Fld := ⟨.REC_CS_CMD, 0, 2⟩
def Fld.REC_CS_STAT_cs_state : Fld := ⟨.REC_CS_STAT, 0, 3⟩
def Fld.REC_CS_STAT_cause : Fld := ⟨.REC_CS_STAT, 3, 5⟩
def Fld.REC_CS_STAT_cap_num : Fld := ⟨.REC_CS_STAT, 16, 16⟩
def Fld.REC_CS_CNT_captures : Fld := ⟨.REC_CS_CNT, 0, 16⟩
def Fld.REC_CS_CNT_missed_trig : Fld := ⟨.REC_CS_CNT, 16, 16⟩
def Fld.REC_CS_LAST_pre_got : Fld := ⟨.REC_CS_LAST, 0, 16⟩
def Fld.REC_CS_LAST_truncated : Fld := ⟨.REC_CS_LAST, 16, 1⟩
def Fld.REC_CS_LAST_poison : Fld := ⟨.REC_CS_LAST, 17, 1⟩
def Fld.GLB_ID_stepping : Fld := ⟨.GLB_ID, 0, 8⟩
def Fld.GLB_ID_part : Fld := ⟨.GLB_ID, 8, 16⟩
def Fld.GLB_ID_family : Fld := ⟨.GLB_ID, 24, 8⟩
def Fld.GLB_STAT_therm_warn : Fld := ⟨.GLB_STAT, 0, 1⟩
def Fld.GLB_STAT_image_slot : Fld := ⟨.GLB_STAT, 1, 1⟩
def Fld.GLB_STAT_owner : Fld := ⟨.GLB_STAT, 2, 1⟩
def Fld.GLB_STAT_start_done : Fld := ⟨.GLB_STAT, 3, 1⟩
def Fld.GLB_SCRATCH_scratch : Fld := ⟨.GLB_SCRATCH, 0, 32⟩
def Fld.GLB_HOST_CTL_host_to : Fld := ⟨.GLB_HOST_CTL, 0, 14⟩
def Fld.GLB_HOST_CTL_int_pin_en : Fld := ⟨.GLB_HOST_CTL, 14, 1⟩
def Fld.GLB_HOST_STAT_link_up : Fld := ⟨.GLB_HOST_STAT, 0, 1⟩
def Fld.GLB_HOST_STAT_speed : Fld := ⟨.GLB_HOST_STAT, 1, 3⟩
def Fld.GLB_HOST_STAT_width : Fld := ⟨.GLB_HOST_STAT, 4, 2⟩
def Fld.GLB_HOST_STAT_host_stalled : Fld := ⟨.GLB_HOST_STAT, 6, 1⟩
def Fld.GLB_HOST_STAT_bme : Fld := ⟨.GLB_HOST_STAT, 7, 1⟩
def Fld.GLB_HOST_STAT_msix_en : Fld := ⟨.GLB_HOST_STAT, 8, 1⟩
def Fld.GLB_READY_FN_root_pll : Fld := ⟨.GLB_READY_FN, 0, 1⟩
def Fld.GLB_READY_FN_aon : Fld := ⟨.GLB_READY_FN, 1, 1⟩
def Fld.GLB_READY_FN_image : Fld := ⟨.GLB_READY_FN, 2, 1⟩
def Fld.GLB_READY_FN_stride_fw : Fld := ⟨.GLB_READY_FN, 3, 1⟩
def Fld.GLB_READY_FN_tables : Fld := ⟨.GLB_READY_FN, 4, 1⟩
def Fld.GLB_READY_FN_quads_any : Fld := ⟨.GLB_READY_FN, 5, 1⟩
def Fld.GLB_READY_FN_gddr : Fld := ⟨.GLB_READY_FN, 6, 1⟩
def Fld.GLB_READY_FN_pool : Fld := ⟨.GLB_READY_FN, 7, 1⟩
def Fld.GLB_READY_FN_recorder : Fld := ⟨.GLB_READY_FN, 8, 1⟩
def Fld.GLB_READY_FN_pair : Fld := ⟨.GLB_READY_FN, 9, 1⟩
def Fld.GLB_READY_FN_matrix_normal : Fld := ⟨.GLB_READY_FN, 10, 1⟩
def Fld.GLB_READY_FN_filt_a : Fld := ⟨.GLB_READY_FN, 11, 1⟩
def Fld.GLB_READY_FN_filt_b : Fld := ⟨.GLB_READY_FN, 12, 1⟩
def Fld.GLB_READY_Q_LO_q_lo : Fld := ⟨.GLB_READY_Q_LO, 0, 32⟩
def Fld.GLB_READY_Q_HI_q_hi : Fld := ⟨.GLB_READY_Q_HI, 0, 16⟩
def Fld.GLB_READY_SITE_site : Fld := ⟨.GLB_READY_SITE, 0, 16⟩
def Fld.GLB_DTIME_LO_dtime : Fld := ⟨.GLB_DTIME_LO, 0, 32⟩
def Fld.GLB_DTIME_HI_dtime : Fld := ⟨.GLB_DTIME_HI, 0, 32⟩
def Fld.GLB_UC_CMD_op : Fld := ⟨.GLB_UC_CMD, 0, 2⟩
def Fld.GLB_UC_CMD_class : Fld := ⟨.GLB_UC_CMD, 4, 4⟩
def Fld.GLB_UC_CMD_index : Fld := ⟨.GLB_UC_CMD, 8, 12⟩
def Fld.GLB_UC_STAT_uc_busy : Fld := ⟨.GLB_UC_STAT, 0, 1⟩
def Fld.GLB_UC_STAT_result : Fld := ⟨.GLB_UC_STAT, 1, 3⟩
def Fld.GLB_UC_STAT_uc_overrun : Fld := ⟨.GLB_UC_STAT, 4, 1⟩
def Fld.GLB_UC_STAT_reason : Fld := ⟨.GLB_UC_STAT, 8, 8⟩
def Fld.GLB_UC_STAT_class : Fld := ⟨.GLB_UC_STAT, 16, 4⟩
def Fld.GLB_UC_STAT_index : Fld := ⟨.GLB_UC_STAT, 20, 12⟩
def Fld.GLB_UC_ST_state : Fld := ⟨.GLB_UC_ST, 0, 32⟩
def Fld.GLB_EVT_WR_wr : Fld := ⟨.GLB_EVT_WR, 0, 32⟩
def Fld.GLB_EVT_RD_rd : Fld := ⟨.GLB_EVT_RD, 0, 32⟩
def Fld.GLB_EVT_LOST_lost : Fld := ⟨.GLB_EVT_LOST, 0, 32⟩
def Fld.GLB_EVT_INT_EN_int_en : Fld := ⟨.GLB_EVT_INT_EN, 1, 15⟩
def Fld.GLB_EVT_PEND_pend : Fld := ⟨.GLB_EVT_PEND, 1, 15⟩
def Fld.GLB_EVT_MOD_mod : Fld := ⟨.GLB_EVT_MOD, 0, 16⟩
def Fld.GLB_EVT_VEC_vec : Fld := ⟨.GLB_EVT_VEC, 0, 6⟩
def Fld.GLB_MSIX_TABLE_entry : Fld := ⟨.GLB_MSIX_TABLE, 0, 32⟩
def Fld.GLB_MSIX_PBA_pba : Fld := ⟨.GLB_MSIX_PBA, 0, 32⟩
def Fld.GLB_EVT_RING_word : Fld := ⟨.GLB_EVT_RING, 0, 32⟩
def Fld.BOOT_STAT_stage : Fld := ⟨.BOOT_STAT, 0, 4⟩
def Fld.BOOT_STAT_state : Fld := ⟨.BOOT_STAT, 4, 2⟩
def Fld.BOOT_STAT_image_slot : Fld := ⟨.BOOT_STAT, 6, 1⟩
def Fld.BOOT_STAT_signed : Fld := ⟨.BOOT_STAT, 7, 1⟩
def Fld.BOOT_STAT_capped : Fld := ⟨.BOOT_STAT, 8, 1⟩
def Fld.BOOT_STAT_jnl_err : Fld := ⟨.BOOT_STAT, 9, 1⟩
def Fld.BOOT_STAT_entries : Fld := ⟨.BOOT_STAT, 10, 6⟩
def Fld.BOOT_START_start_no : Fld := ⟨.BOOT_START, 0, 32⟩
def Fld.BOOT_IMG_img_version : Fld := ⟨.BOOT_IMG, 0, 32⟩
def Fld.BOOT_IMG_CRC_hdr_crc : Fld := ⟨.BOOT_IMG_CRC, 0, 32⟩
def Fld.BOOT_JSEQ_jseq : Fld := ⟨.BOOT_JSEQ, 0, 32⟩
def Fld.BOOT_HIST_SITE_excl : Fld := ⟨.BOOT_HIST_SITE, 0, 16⟩
def Fld.BOOT_HIST_SITE_pin_rate : Fld := ⟨.BOOT_HIST_SITE, 16, 8⟩
def Fld.BOOT_HIST_QSKIP_LO_qskip : Fld := ⟨.BOOT_HIST_QSKIP_LO, 0, 32⟩
def Fld.BOOT_HIST_QSKIP_HI_qskip : Fld := ⟨.BOOT_HIST_QSKIP_HI, 0, 16⟩
def Fld.BOOT_HIST_QALT_LO_qalt : Fld := ⟨.BOOT_HIST_QALT_LO, 0, 32⟩
def Fld.BOOT_HIST_QALT_HI_qalt : Fld := ⟨.BOOT_HIST_QALT_HI, 0, 16⟩
def Fld.BOOT_HIST_DRV_drv : Fld := ⟨.BOOT_HIST_DRV, 0, 4⟩
def Fld.BOOT_IMG_BAD_bad : Fld := ⟨.BOOT_IMG_BAD, 0, 2⟩
def Fld.BOOT_FS_found : Fld := ⟨.BOOT_FS, 0, 2⟩
def Fld.BOOT_FS_strike : Fld := ⟨.BOOT_FS, 2, 4⟩
def Fld.BOOT_FS_action : Fld := ⟨.BOOT_FS, 6, 3⟩
def Fld.BOOT_CTL_slot_pref : Fld := ⟨.BOOT_CTL, 0, 2⟩
def Fld.BOOT_CTL_wd_en : Fld := ⟨.BOOT_CTL, 2, 1⟩
def Fld.BOOT_AON_last_stage : Fld := ⟨.BOOT_AON, 0, 4⟩
def Fld.BOOT_AON_last_done : Fld := ⟨.BOOT_AON, 4, 1⟩
def Fld.BOOT_AON_reset_cause : Fld := ⟨.BOOT_AON, 5, 3⟩
def Fld.BOOT_AON_ref_b : Fld := ⟨.BOOT_AON, 8, 1⟩
def Fld.BOOT_CMD_op : Fld := ⟨.BOOT_CMD, 0, 2⟩
def Fld.BOOT_CMD_key : Fld := ⟨.BOOT_CMD, 16, 16⟩
def Fld.BOOT_FLASH_CMD_op : Fld := ⟨.BOOT_FLASH_CMD, 0, 2⟩
def Fld.BOOT_FLASH_CMD_busy : Fld := ⟨.BOOT_FLASH_CMD, 2, 1⟩
def Fld.BOOT_FLASH_CMD_f_err : Fld := ⟨.BOOT_FLASH_CMD, 3, 1⟩
def Fld.BOOT_FLASH_CMD_refused : Fld := ⟨.BOOT_FLASH_CMD, 4, 1⟩
def Fld.BOOT_FLASH_ADDR_addr : Fld := ⟨.BOOT_FLASH_ADDR, 0, 28⟩
def Fld.BOOT_FLASH_DATA_data : Fld := ⟨.BOOT_FLASH_DATA, 0, 32⟩
def Fld.GLB_CLK_CTL_ref_pref : Fld := ⟨.GLB_CLK_CTL, 0, 1⟩
def Fld.GLB_CLK_CTL_ref_auto : Fld := ⟨.GLB_CLK_CTL, 1, 1⟩
def Fld.GLB_CLK_CTL_rev_en : Fld := ⟨.GLB_CLK_CTL, 2, 1⟩
def Fld.GLB_CLK_STAT_root_state : Fld := ⟨.GLB_CLK_STAT, 0, 2⟩
def Fld.GLB_CLK_STAT_ref_sel : Fld := ⟨.GLB_CLK_STAT, 2, 1⟩
def Fld.GLB_CLK_STAT_ref_a_ok : Fld := ⟨.GLB_CLK_STAT, 3, 1⟩
def Fld.GLB_CLK_STAT_ref_b_ok : Fld := ⟨.GLB_CLK_STAT, 4, 1⟩
def Fld.GLB_CLK_STAT_host_lock : Fld := ⟨.GLB_CLK_STAT, 16, 1⟩
def Fld.GLB_CLK_STAT_rec_lock : Fld := ⟨.GLB_CLK_STAT, 17, 1⟩
def Fld.GLB_CLK_STAT_baton_lock : Fld := ⟨.GLB_CLK_STAT, 18, 1⟩
def Fld.GLB_GDDR_PLL_g_lock : Fld := ⟨.GLB_GDDR_PLL, 0, 16⟩
def Fld.GLB_TIME_CTL_dtime_src : Fld := ⟨.GLB_TIME_CTL, 0, 2⟩
def Fld.GLB_TIME_CTL_step_mode : Fld := ⟨.GLB_TIME_CTL, 2, 2⟩
def Fld.GLB_TIME_CTL_load_now : Fld := ⟨.GLB_TIME_CTL, 4, 1⟩
def Fld.GLB_TIME_CTL_step_thr : Fld := ⟨.GLB_TIME_CTL, 8, 20⟩
def Fld.GLB_PPS_DLY_pps_dly : Fld := ⟨.GLB_PPS_DLY, 0, 16⟩
def Fld.GLB_PAIR_DLY_pair_dly : Fld := ⟨.GLB_PAIR_DLY, 0, 16⟩
def Fld.GLB_DTIME_LOAD_LO_load : Fld := ⟨.GLB_DTIME_LOAD_LO, 0, 32⟩
def Fld.GLB_DTIME_LOAD_HI_load : Fld := ⟨.GLB_DTIME_LOAD_HI, 0, 32⟩
def Fld.GLB_TIME_STAT_src_valid : Fld := ⟨.GLB_TIME_STAT, 0, 1⟩
def Fld.GLB_TIME_STAT_time_lock : Fld := ⟨.GLB_TIME_STAT, 1, 1⟩
def Fld.GLB_TIME_STAT_slew : Fld := ⟨.GLB_TIME_STAT, 2, 2⟩
def Fld.GLB_TIME_STAT_dtime_err : Fld := ⟨.GLB_TIME_STAT, 4, 1⟩
def Fld.GLB_TIME_STAT_using_partner : Fld := ⟨.GLB_TIME_STAT, 5, 1⟩
def Fld.GLB_TIME_ERR_e : Fld := ⟨.GLB_TIME_ERR, 0, 32⟩
def Fld.GLB_FP_CTL_fp_en : Fld := ⟨.GLB_FP_CTL, 0, 1⟩
def Fld.GLB_FP_CTL_fp_width : Fld := ⟨.GLB_FP_CTL, 8, 8⟩
def Fld.GLB_FP_PERIOD_fp_period : Fld := ⟨.GLB_FP_PERIOD, 0, 30⟩
def Fld.GLB_FP_PHASE_fp_phase : Fld := ⟨.GLB_FP_PHASE, 0, 30⟩
def Fld.GLB_PD_RST_d : Fld := ⟨.GLB_PD_RST, 0, 7⟩
def Fld.GLB_PD_RST_key : Fld := ⟨.GLB_PD_RST, 16, 16⟩
def Fld.GLB_URST_class : Fld := ⟨.GLB_URST, 0, 4⟩
def Fld.GLB_URST_index : Fld := ⟨.GLB_URST, 4, 12⟩
def Fld.GLB_URST_key : Fld := ⟨.GLB_URST, 16, 16⟩
def Fld.GLB_PD_CMD_d : Fld := ⟨.GLB_PD_CMD, 0, 7⟩
def Fld.GLB_PD_CMD_on : Fld := ⟨.GLB_PD_CMD, 7, 1⟩
def Fld.GLB_PD_CMD_pd_busy : Fld := ⟨.GLB_PD_CMD, 8, 1⟩
def Fld.GLB_PD_CMD_pd_refused : Fld := ⟨.GLB_PD_CMD, 9, 1⟩
def Fld.GLB_PD_STAT_pd_on : Fld := ⟨.GLB_PD_STAT, 0, 32⟩
def Fld.GLB_PD_BOOT_boot_on : Fld := ⟨.GLB_PD_BOOT, 0, 32⟩
def Fld.GLB_AVS_CTL_avs_en : Fld := ⟨.GLB_AVS_CTL, 0, 1⟩
def Fld.GLB_AVS_CTL_avs_min : Fld := ⟨.GLB_AVS_CTL, 8, 10⟩
def Fld.GLB_AVS_CTL_avs_max : Fld := ⟨.GLB_AVS_CTL, 18, 10⟩
def Fld.GLB_AVS_STAT_vdd_cmd : Fld := ⟨.GLB_AVS_STAT, 0, 10⟩
def Fld.GLB_AVS_STAT_avs_fault : Fld := ⟨.GLB_AVS_STAT, 10, 1⟩
def Fld.GLB_THERM_CTL_therm_lim : Fld := ⟨.GLB_THERM_CTL, 0, 8⟩
def Fld.GLB_THERM_CTL_therm_hyst : Fld := ⟨.GLB_THERM_CTL, 8, 4⟩
def Fld.GLB_THERM_STAT_therm : Fld := ⟨.GLB_THERM_STAT, 0, 1⟩
def Fld.GLB_THERM_STAT_trip : Fld := ⟨.GLB_THERM_STAT, 1, 1⟩
def Fld.GLB_THERM_STAT_hottest : Fld := ⟨.GLB_THERM_STAT, 4, 4⟩
def Fld.GLB_THERM_STAT_t_max : Fld := ⟨.GLB_THERM_STAT, 16, 16⟩
def Fld.GLB_THERM_T_temp : Fld := ⟨.GLB_THERM_T, 0, 16⟩
def Fld.GLB_THERM_T_peak : Fld := ⟨.GLB_THERM_T, 16, 16⟩

end Sys2Proof.Machine
end

