-- ==== Sys2Proof/Machine/State.lean ====
section
/-!
DEFINITION. The state of the block as plain data: the register file, the state the spec gives each function beside its
registers, the cell pool, the flash and the queue of waiting commands; what stops a step; the state after reset.

Tables that hold one entry per resource are sparse: a list of (index, entry) pairs, and a resource that is not listed
has the entry that reset gives it (the `init` of its structure).
-/
namespace Sys2Proof.Machine

/-- A sparse table: (index, entry) pairs with indices rising. -/
abbrev Table (β : Type) := List (Nat × β)

/-! ### Line channels (chapters 02 and 03) -/

/-- One candidate slot of an aligner (R54, R55): position, run, MFAS seen at its last match, mimic and contender
flags, whether it holds the INFRAME frame, the DTIME at which it was opened, whether the held frame has matched in
every frame of its run (R58), its TIE parity score (R59), whether it has matched since SEARCH was entered (R56), and
whether it has matched as the only contender left (R59). -/
structure CandSlot where
  pos : Nat
  run : Nat
  mfas : Byte
  mimic : Bool
  contender : Bool
  held : Bool
  opened : DTime
  heldOk : Bool
  parity : Nat
  due : Bool
  alone : Bool
deriving DecidableEq, Repr

/-- What an aligner keeps beside CH_ALN registers: four slots, the errored-frame and multiframe runs, the previous
received multiframe value, the TIE frames left, and the dLOF and dLOM integrators: accumulated clk_tm ticks, the tick since
which each advances, and the tick since which INFRAME and MF_IN persist (R55–R64); and whether INFRAME has been entered
since the last tick, which is then the shortened or lengthened one (R60). -/
structure AlignerSt where
  slots : List (Option CandSlot)
  errRun : Nat
  mfRun : Nat
  mfMiss : Nat
  prevMf : Option Byte
  tieLeft : Nat
  lofAcc : Nat
  lofSince : Option Nat
  lomAcc : Nat
  lomSince : Option Nat
  lofOk : Option Nat
  lomOk : Option Nat
  entered : Bool
deriving DecidableEq, Repr

/-- An aligner in OFF. -/
def AlignerSt.init : AlignerSt := ⟨[none, none, none, none], 0, 0, 0, none, 0, 0, none, 0, none, none, none, false⟩

/-- The background FEC counters of R40: codewords, corrected symbols and bits, uncorrectable codewords, symbols of the
channel's own lane, and the sixteen histogram bins. -/
structure FecCount where
  cw : Nat
  csym : Nat
  cbit : Nat
  unc : Nat
  lsym : Nat
  hist : List Nat
deriving DecidableEq, Repr

/-- All counts zero. -/
def FecCount.init : FecCount := ⟨0, 0, 0, 0, 0, List.replicate 16 0⟩

/-- State of one channel beside its registers: the equaliser taps as steps from their preset values, the tick at which each
last moved, the ticks at which the receiver entered its state and at which LOS last changed (R42–R44), whether a COMMIT
since the last START calls for recalibration (R42), whether the domains of a STARTING unit are on (R48), whether the channel
has been started with a format, so that its transmitter is on whenever R45 lets it (R48), whether its egress frame clock
runs and how many frames it has sent (R419), the FEC background counts, the tick at which the snapshot in progress ends, the
DTIME at which the running pre-FEC BER window began, its corrected bits, whether the decoder has decoded throughout it, the
two runs (R40, R41), and its aligner. -/
structure ChanSt where
  taps : Table Int
  tapAt : Table Nat
  rxAt : Nat
  losAt : Nat
  recal : Bool
  domReady : Bool
  txStarted : Bool
  egressOn : Bool
  egressFrames : Nat
  fec : FecCount
  snapEnd : Option Nat
  winAt : Nat
  winBits : Nat
  winValid : Bool
  degSetRun : Nat
  degClrRun : Nat
  aln : AlignerSt
deriving DecidableEq, Repr

/-- A channel after reset. -/
def ChanSt.init : ChanSt := ⟨[], [], 0, 0, false, false, false, false, 0, .init, none, 0, 0, false, 0, 0, .init⟩

/-! ### Servers and tributaries (chapter 06) -/

/-- State of a server channel: the PSI multiframe being collected, the last whole one, the MSI last examined and its run
(R139), the accepted MSI is in SL_MSI_ACC; the OMFI value last received, or expected, with its runs of mismatches and
increments, whether the OMFI multiframe is lost, and the tick since which it is or is not (R138); the tick from which the
rate of each new TPN is measured (R142) and from which each absent TPN is timed (R143); the FlexO values last accepted
(R148). -/
structure ServerSt where
  psiBuf : List Byte
  psiDone : List Byte
  psiLast : List Byte
  psiRun : Nat
  omfi : Option Byte
  omfiMiss : Nat
  omfiGood : Nat
  omfiOut : Bool
  omfiSince : Nat
  measure : Table Nat
  accGid : Option (BitVec 20)
  accPids : List Byte
deriving DecidableEq, Repr

def ServerSt.init : ServerSt := ⟨[], [], [], 0, none, 0, 0, true, 0, [], none, []⟩

/-- State of a tributary beside its registers: the LO aligner of R137 (0 SEARCH, 1 INFRAME and the multiframe machine),
its runs, the flywheel, the dLOFLOM integrator and the tick of its clear condition, whether its TPN is absent from the
accepted MSI, the ticks of absence counted and the tick since which they count on (R143), its egress frame clock (R419), and
whether kind or client changed since the last START. -/
structure TribSt where
  inFrame : Bool
  goodRun : Nat
  errRun : Nat
  mfState : Nat
  mfRun : Nat
  mfMiss : Nat
  prevMf : Option Byte
  flywheel : Byte
  loAcc : Nat
  loSince : Option Nat
  okSince : Option Nat
  absent : Bool
  absentAcc : Nat
  absentSince : Option Nat
  msim : Bool
  egressOn : Bool
  egressFrames : Nat
  remap : Bool
deriving DecidableEq, Repr

def TribSt.init : TribSt :=
  ⟨false, 0, 0, 0, 0, 0, none, 0, 0, none, none, false, 0, none, false, false, 0, false⟩

/-- State of a FlexE group's calendar protocol (R145–R147): the clients of the active and of the inactive transmit calendar
by slot, the assignment wanted, the calendar asked for with CR and the tick of the last request, whether CA has arrived,
whether the transmit calendar has switched and the peer's CCC is awaited, the receive calendar, the calendar last answered
with CA, and the CCC signalled. -/
structure FlexeSt where
  txSlots : Table Nat
  nextSlots : Table Nat
  want : Table Nat
  crOut : Option Bool
  crAt : Nat
  caIn : Bool
  switched : Bool
  rxCal : Bool
  caOut : Option Bool
  cccOut : Bool
deriving DecidableEq, Repr

def FlexeSt.init : FlexeSt := ⟨[], [], [], none, 0, false, false, false, none, false⟩

/-! ### Overhead sources and stride engines (chapters 04 and 05) -/

/-- A value under acceptance: the value last received, its run of identical occurrences (R76–R78), and the frame boundary of
the third of them (R311). -/
structure Accept where
  last : List Byte
  run : Nat
  at_ : DTime
deriving DecidableEq, Repr

def Accept.init : Accept := ⟨[], 0, 0⟩

/-- A dDEG window of one level (R83): errored blocks so far, whether it can be judged, the two runs, and the DTIME at which it
began. -/
structure DegSt where
  eb : Nat
  valid : Bool
  bad : Nat
  good : Nat
  at_ : Nat
deriving DecidableEq, Repr

def DegSt.init : DegSt := ⟨0, false, 0, 0, 0⟩

/-- Counts of one PM second of one level (R91): hardware near-end counts, engine far-end counts, defect seconds. -/
structure PmSt where
  neBip : Nat
  neEb : Nat
  neDs : Bool
  feBip : Nat
  feEb : Nat
  feDs : Bool
  frames : Nat
  incomplete : Bool
deriving DecidableEq, Repr

def PmSt.init : PmSt := ⟨0, 0, false, 0, 0, false, 0, false⟩

/-- The SES run, the non-SES run and the unavailability of one end of a level (R92). -/
structure PmRun where
  ses : Nat
  non : Nat
  uas : Bool
deriving DecidableEq, Repr

def PmRun.init : PmRun := ⟨0, 0, false⟩

/-- The persistency of one fault cause (R85): whether it is present, and the DTIME of its last transition. -/
structure CauseSt where
  present : Bool
  since : DTime
deriving DecidableEq, Repr

/-- A defect transition of the transition log (R112). -/
structure Transition where
  lvl : Nat
  code : Nat
  set : Bool
  seq : BitVec 16
  at_ : DTime
deriving DecidableEq, Repr

/-- What the payload of an egress frame is (R87, R127, R132, R212): the traffic, a replacement signal, a client in local
fault or under generic AIS, or the null test signal of an idle protection member. -/
inductive EgressSignal where
  | traffic | oduAis | oduLck | oduOci | msAis | genericAis | localFault | null
deriving DecidableEq, Repr

/-- The field of a level that the source generates (R75, R79, R86, R88, R96): trail trace, whether the computed parity byte
goes out inverted, BEI or MS-REI, BDI or RDI, IAE, STAT (0 where the level has none), and the DM bits. -/
structure LvlGen where
  tti : List Byte
  bipInv : Bool
  bei : Nat
  bdi : Bool
  iae : Bool
  stat : Nat
  dm : Nat
deriving DecidableEq, Repr

/-- The overhead field of a level in an egress frame (R75, R87): replaced with its ODU or section, passed unchanged, all-zeros
where the sink removes it, or generated. -/
inductive LvlOut where
  | replaced | passed | zeros | generated (g : LvlGen)
deriving DecidableEq, Repr

/-- The FEC field that a transmitter sends: none in its format, all-zeros, or encoded (R37). -/
inductive FecOut where
  | none | zeros | encoded
deriving DecidableEq, Repr

/-- What an egress frame last carried (R22, R74, R87, R88): the BDI sent by level and the BEI inserted by level, whether it
carried the null test signal (R212); its payload, its field of each level, the FTFL byte where it is not passed (R79), the
PT and MSI that the device inserts and the tributary slots that carry all-zeros (R127), APS/PCC or K1/K2 by level (R217),
the lap byte with its place (R223), and the frequency word that times it, where that is not the line reference's or the
stream's own (R31, R165); its FEC field (R37), and on a FlexE PHY the client of each calendar slot with what that client's
egress sends (R130, R147). -/
structure EgressOut where
  bdi : Nat
  bei : Table Nat
  null : Bool
  signal : EgressSignal
  lvls : Table LvlOut
  ftfl : Option Byte
  pt : Option Byte
  msi : List Byte
  zeros : List Nat
  aps : Table (List Byte)
  lap : Option (Nat × Byte)
  clk : Option Int
  fec : FecOut
  cal : Table (Nat × EgressSignal)
deriving DecidableEq, Repr

def EgressOut.init : EgressOut := ⟨0, [], false, .traffic, [], none, none, [], [], [], none, none, .none, []⟩

/-- A window of the Poisson method of G.783 on B2 (R81): its frames and violations so far, and the verdict of the window
before: whether it detects, and whether it clears. -/
structure MsWin where
  frames : Nat
  viol : Nat
  bad : Bool
  good : Bool
deriving DecidableEq, Repr

def MsWin.init : MsWin := ⟨0, 0, false, false⟩

/-- State of one overhead source beside its registers: consecutive-frame runs by key 64·level + 2·code (+1 for the clear
condition), TTI collection and acceptance by level, PT acceptance, APS acceptance and accepted value by level, the last
FTFL, S1 and selected bytes recorded (R94), fault causes by 32·level + code, BEI accumulators by level, PM counts of the
running and of the last second, SES runs by 2·level (+1 far end), dDEG windows by level, the frame sequence number, the
transition log and the transitions dropped, the second and the 10 ms period in progress, whether a P2 and a 10 ms evaluation
are due, and what the source's own egress last sent; the windows of dEXC and dDEG on STM-64 by code (R81); how often its
unit has been started, which tells tasks of before (R101); the DTIME of the frame whose P0 ran last (R94) and of the last 10
ms evaluation of failures, and whether one was shed (R85, R111); ssf_in of that frame (R90), no_data and in_frame of the
last snapshot (R73, R132); whether its next PM record is full (R93); by 32·level + code, the frame boundary of the last
transition to set of each defect (R325); the sequence number of that frame of P0, the frame boundary of the first transition
dropped (R311), the second that the PM counts to close belong to (R98), and by level the frame boundaries of accepted APS
values that C3 work has not yet recorded (R74). -/
structure OhSt where
  runs : Table Nat
  ttiBuf : Table (List Byte)
  tti : Table Accept
  ttiAcc : Table (List Byte)
  pt : Accept
  aps : Table Accept
  apsAcc : Table (List Byte)
  ohLast : Table (List Byte)
  causes : Table CauseSt
  bei : Table Nat
  pm : Table PmSt
  pmPrev : Table PmSt
  pmRun : Table PmRun
  deg : Table DegSt
  seq : BitVec 16
  tlog : List Transition
  tlogDrop : Nat
  second : Nat
  tenMs : Nat
  p2Due : Bool
  tenDue : Bool
  egress : EgressOut
  ms : Table MsWin
  gen : Nat
  born : DTime
  evalAt : DTime
  evalDue : Bool
  ssfIn : Bool
  noData : Bool
  inFrame : Bool
  pmFull : Bool
  setAt : Table DTime
  frameSeq : BitVec 16
  dropAt : DTime
  pmSec : Nat
  apsDue : Table DTime
deriving DecidableEq, Repr

def OhSt.init : OhSt :=
  ⟨[], [], [], [], .init, [], [], [], [], [], [], [], [], [], 0, [], 0, 0, 0, false, false, .init,
   [], 0, 0, 0, false, false, false, false, false, [], 0, 0, 0, []⟩

/-- A task: the descriptor of R100 with its snapshot (R73); beside them the start of its unit that it belongs to (R101), the
RDI bit of the FlexO group layer (R80), and the PSI multiframes that end with its frame, by server (R139). -/
structure Task where
  src : Nat
  parts : List Nat
  secondClose : Bool
  tenMs : Bool
  home : Nat
  born : DTime
  seq : BitVec 16
  period : Nat
  snap : List Byte
  gen : Nat
  rdi : Bool
  psi : Table (List Byte)
deriving DecidableEq, Repr

/-- A heat (R110–R117): its queue, oldest first, whether its domain asks to be switched off or to be reset, the shed
thresholds and hysteresis in force, which a write changes only at the next epoch boundary (R115), and the clk_se cycles
run that busy_cyc, which counts 256 of them, does not show yet. -/
structure HeatSt where
  queue : List Task
  offReq : Bool
  rstReq : Bool
  lvl3 : Nat
  lvl2 : Nat
  hyst : Nat
  cycles : Nat
deriving DecidableEq, Repr

def HeatSt.init : HeatSt := ⟨[], false, false, 384, 768, 4, 0⟩

/-- What a stride engine runs: the task, the parts still to run, the distance from its home heat and its start. -/
structure EngineSt where
  task : Task
  left : List Nat
  dist : Nat
  start : DTime
deriving DecidableEq, Repr

/-! ### Filter contexts (chapter 07) -/

/-- A filter chain: its parameters (R159), its stage states and its position in decimation and settling. -/
structure Chain where
  cicR : Nat
  hbN : Nat
  taps : Nat
  bank : Nat
  page : Nat
  dcK : Nat
  shDc : Nat
  shCic : Nat
  shHb1 : Nat
  shHb2 : Nat
  shFir : Nat
  shLoop : Nat
  kp : Nat
  ki : Nat
  integ : List Int
  combs : List Int
  hb1 : List Int
  hb2 : List Int
  fir : List Int
  phase : Nat
  hb1Odd : Bool
  hb2Odd : Bool
  out : Option Int
  settleLeft : Nat
  dcEst : Int
  phi : Int
  i : Int
  v : Int
  word : Int
deriving DecidableEq, Repr

/-- A filter context beside its registers: its running chain and its shadow, the sprint window (newest first), the number
of valid samples since the last invalid one, the last valid sample, the producer it follows (4,096·kind + index) with the
source that gives the samples, the signals that stood behind it at the last strobe, whether the next valid sample is the first after a gap (R179), the fade position,
whether a COMMIT since the last START calls for a swap (R175), in_sel and dc_freeze as the running chain took them up (R170),
the delivered word, which is held while the array is off (R170, R180), and the word that drives the outputs (R165, R261). -/
structure CtxSt where
  chain : Option Chain
  shadow : Option Chain
  sprint : List Int
  validRun : Nat
  lastE : Int
  input : Option (Nat × Nat)
  signals : List Nat
  inputNew : Bool
  fadeI : Nat
  swapDue : Bool
  inSel : Bool
  dcFreeze : Bool
  word : Int
  drive : Int
deriving DecidableEq, Repr

def CtxSt.init : CtxSt := ⟨none, none, [], 0, 0, none, [], false, 0, false, false, false, 0, 0⟩

/-- The sync machine of R172–R174: the sync resets that wait (the tick at which each is due, its groups, whether it came
from the pin), the tick of the last accepted edge, and the tick at which FSYNC_OUT, which is high until then, falls; and
the filter engines' cycles in the DTIME second in progress, by array (FLT_ARRAY_STAT.load). -/
structure SyncSt where
  due : List (Nat × BitVec 8 × Bool)
  lastEdge : Option Nat
  outEnd : Option Nat
  work : Table Nat
deriving DecidableEq, Repr

/-! ### Cell pool (chapter 08) -/

/-- A cell header (R187): successor pointer, seq, and whether hchk is complemented (poisoned). -/
structure CellHdr where
  next : Nat
  seq : BitVec 16
  poison : Bool
deriving DecidableEq, Repr

/-- A queue beside its registers (R188–R197): the cells from rel to wr − 1 in order, the spare cell, the data of a
waiting STALL push, and the STREAM writes discarded, of which drop_cnt shows units of 2^16. -/
structure QueueSt where
  cells : List Nat
  spare : Option Nat
  waiting : Option (List Byte)
  dropped : Nat
deriving DecidableEq, Repr

def QueueSt.init : QueueSt := ⟨[], none, none, 0⟩

/-- A site's cells: how many it has, those returned to its free list in order, the index from which cells have never
been used, those retired, the free cells an earlier scrub found uncorrectable (R203), and the DTIME second in which
corrected words were last counted with their number (R200). -/
structure SiteSt where
  size : Nat
  free : List Nat
  fresh : Nat
  retired : List Nat
  suspect : List Nat
  ceSecond : Nat
  ceCount : Nat
deriving DecidableEq, Repr

def SiteSt.init : SiteSt := ⟨0, [], 0, [], [], 0, 0⟩

/-- The pool (R185–R188, R202): data bytes by pool byte address, the headers written, queues, sites, the site at which
the next allocation starts, and the stranded cells. -/
structure Pool where
  mem : List Host.Cell
  hdrs : Table CellHdr
  queues : Table QueueSt
  sites : Table SiteSt
  rot : Nat
  stranded : List Nat
deriving DecidableEq, Repr

def Pool.init : Pool := ⟨[], [], [], [], 0, []⟩

/-! ### Protection (chapter 09) -/

/-- One frame seen by the hitless aligner: its signature, its L value, in_frame, whether it is free of level-1 BIP
violations, and the DTIME of its boundary (R224–R227). -/
structure FrameSig where
  sig : Word
  lap : Nat
  inFrame : Bool
  clean : Bool
  at_ : DTime
deriving DecidableEq, Repr

/-- A probe (R226): its sixteen signatures, the early frame it begins at, and the late frames since it was taken. -/
structure Probe where
  sigs : List Word
  fe : Nat
  late : Nat
deriving DecidableEq, Repr

/-- A group beside its registers: the command in force and its signal; SF and SD of its members as derived, and as requests
after hold-off; the DTIME in ns from which hold-off and WTR run; the wanted selection and the requested signal; whether a
change of request awaits its decision, and a decided switch its boundary (R214–R218). Then the alignment (R221–R231): early
and late frames since OFF was left, w0, bytes not yet filling a cell, recent early and late frames (newest first), the
probe, the candidate offset with its matches, a confirmed correction, match, non-distinct and expired-probe runs, the lap
runs and their validity, whether the last switch was unverified, the causes already raised, and whether a COMMIT since the
last START makes that START begin from NR (R218). Then the last 15 late signatures in frame (R225), whether D last measured
reaches the lap limit (R232), the late frame whose boundary carried the last correction, seat or switch (R231), the early
frame being delivered, the early frames read with a poisoned cell, and the cells from which and up to which the reader has
read on without a break (R194, R201, R222), and the DTIME in ns of the last APS acceptance and since which the far end does
not answer (R217). -/
structure GroupSt where
  cmd : Nat
  cmdSig : Nat
  rawSf : Nat
  rawSd : Nat
  effSf : Nat
  effSd : Nat
  holdAt : Option Int
  wtrAt : Option Int
  want : Nat
  reqSig : Nat
  changed : Bool
  decided : Option Nat
  fe : Nat
  fl : Nat
  w0 : Word
  wbuf : List Byte
  early : List FrameSig
  late : List FrameSig
  probe : Option Probe
  cand : Option (Int × Nat)
  confirmed : Option Int
  matchRun : Nat
  blindRun : Nat
  expired : Nat
  lapERun : Int
  lapLRun : Int
  lapEOk : Bool
  lapLOk : Bool
  unverified : Bool
  causes : Nat
  anew : Bool
  lateSigs : List Word
  lapOver : Bool
  actAt : Option Nat
  dlv : Option Nat
  bad : List Nat
  rdRun : Nat
  rdNext : Nat
  apsAt : Int
  nrAt : Option Int
deriving DecidableEq, Repr

def GroupSt.init : GroupSt :=
  ⟨0, 0, 0, 0, 0, 0, none, none, 0, 0, false, none, 0, 0, 0, [], [], [], none, none, none, 0, 0, 0, 0, 0, false,
   false, false, 0, false, [], false, none, none, [], 0, 0, 0, none⟩

/-! ### Relay pair (chapter 10) -/

/-- A baton message header (R247); its bytes are in PairWire. -/
structure BatonHeader where
  kind     : BitVec 16
  version  : Byte
  alive    : Byte
  epoch    : BitVec 64
  cutDtime : BitVec 64
  role     : BitVec 4
  health   : Byte
  final    : Bool
  take     : Bool
  pairId   : Bool
  arb      : Bool
  suspended : Bool
  resyncReq : Bool
  nsec     : Byte
  length   : BitVec 32
  cfgCrc   : Word
  ackEpoch : BitVec 64
  part     : Byte
  parts    : Byte
  model    : Byte
deriving DecidableEq, Repr

/-- A selector entry of section 1 (R249). -/
structure SelEntry where
  g : Nat
  selSig : BitVec 4
  brSig : BitVec 4
  reqLocal : BitVec 4
  reqFar : BitVec 4
  cmd : BitVec 3
  cmdSig : BitVec 4
  frozen : Bool
  holdoffRun : Bool
  wtrRun : Bool
  fop : BitVec 4
  holdoffLeft : BitVec 16
  wtrLeft : BitVec 16
  apsTx : Word
  apsRx : Word
  alnState : Byte
  delta : Word
  delayNs : Word
deriving DecidableEq, Repr

/-- One pending item of a failure entry (R249): code, pending clear, elapsed 10 ms units. -/
structure PendItem where
  code : BitVec 5
  clear : Bool
  elapsed : BitVec 12
deriving DecidableEq, Repr

/-- One level of a failure entry (R249). -/
structure FailLevel where
  causes : BitVec 24
  declared : BitVec 24
  items : List PendItem
deriving DecidableEq, Repr

/-- A failure-persistency entry of section 2 (R249). -/
structure FailEntry where
  src : Nat
  overflow : Bool
  evalAt : BitVec 32
  levels : List (Nat × FailLevel)
deriving DecidableEq, Repr

/-- A filter-context entry of section 3 (R249); m, I and phi are 48-bit signed. -/
structure FiltEntry where
  c : Nat
  ctxState : BitVec 2
  ncoSrc : BitVec 2
  dcFrozen : Bool
  word : Word
  sprint : Word
  m : Int
  i : Int
  phi : Int
deriving DecidableEq, Repr

/-- A change record of section 4 (R249). Sources are numbered n for channels and 192 + t for tributaries. -/
inductive Change where
  | tti (src : Nat) (lvl : Nat) (bytes : List Byte)
  | pt (src : Nat) (v : Byte)
  | msi (n : Nat) (tpn : List Byte) (occ : List Bool)
  | aps (src : Nat) (lvl : Nat) (v : Word)
  | learned (t : Nat) (cfg : Word) (ts : List Word)
  | freed (t : Nat)
  | flexeCal (j : Nat) (cal : Bool)
deriving DecidableEq, Repr

/-- A baton message (R247–R250): its header, the epoch and alive of its trailer, and its sections; of a PM slice the sources
whose words are not all zero. -/
structure BatonMsg where
  hdr : BatonHeader
  trEpoch : BitVec 64
  trAlive : Byte
  sels : List SelEntry
  fails : List FailEntry
  filts : List FiltEntry
  changes : List Change
  pm : List (Nat × List Word)
deriving DecidableEq, Repr

/-- A pacer frame (R252); its bytes are in PairWire. -/
structure PacerFrame where
  version : Byte
  role : BitVec 4
  alive : Byte
  health : Byte
  take : Bool
  yield : Bool
  pairId : Bool
  arb : Bool
  fresh : Bool
  batonUp : Bool
  epoch : BitVec 16
  dtime : BitVec 32
deriving DecidableEq, Repr

/-- The receiver of an alive counter (R281): last accepted base, whether the next message is the first after the
receiver's start or after its path was down, and the run of stale rejections. -/
structure AliveRx where
  base : Option Byte
  fresh : Bool
  staleRun : Nat
deriving DecidableEq, Repr

def AliveRx.init : AliveRx := ⟨none, true, 0⟩

/-- The mirror (R243–R250): epoch and cut of the message applied last, its whole sections, the accepted values and learned
entries applied from change records, the PM slices, and whether the configuration digests matched. -/
structure Mirror where
  epoch : Nat
  cut : Nat
  sels : List SelEntry
  fails : List FailEntry
  filts : List FiltEntry
  values : List Change
  pm : List (Nat × List Word)
  matched : Bool
deriving DecidableEq, Repr

/-- The pair agent beside its registers. Own side: whether it has been started, alive counters sent, take flag, epoch of the
last take-over, whether the final EPOCH has gone, change log with epochs, snapshot requested, its parts still to be sent,
their number, its cut, and the boundaries during which an ACK 0 belongs to it (R263). Partner: alive receivers, the header
last received with its judgement, whose message is still awaited, pair_id, whether it has been heard since DISCOVER was
entered and its ARB_REQ as heard in DISCOVER, whether it was heard owning since the last boundary, its take flag and the
epoch it was first seen in. Standby: epochs without an owning partner, boundaries since the baton went down, mirror, last
applied epoch, whether copying is suspended, the snapshot parts received with the cut, and whether the snapshot is verified.
Then whether a take-over is blocked, the baton link, the bytes of the messages of the last boundary and of the last pacer
frame sent; the last epoch the partner has acknowledged (R245), the change set of the latest EPOCH on a snapshot that is not
yet whole (R263), and the ticks of the last valid heartbeat on the baton and on the pacer (R253). -/
structure PairSt where
  started : Bool
  aliveTxBaton : Byte
  aliveTxPacer : Byte
  take : Bool
  ownTakeover : Nat
  finalSent : Bool
  changes : List (Nat × Change)
  snapReq : Bool
  snapOut : List (List Change)
  snapTotal : Nat
  sentCut : Nat
  snapHold : Nat
  rxBaton : AliveRx
  rxPacer : AliveRx
  hdr : Option (List Byte × Bool)
  partnerPairId : Option Bool
  partnerHeard : Bool
  partnerDisc : Option Bool
  ownerHeard : Bool
  partnerTake : Bool
  partnerTakeover : Option Nat
  absentEpochs : Nat
  staleWait : Option Nat
  mirror : Option Mirror
  lastApplied : Nat
  suspended : Bool
  snapGot : List Change
  snapCut : Nat
  snapOk : Bool
  blocked : Bool
  batonLink : Bool
  txBaton : List (List Byte)
  txPacer : Option (List Byte)
  ackEpoch : Nat
  snapLater : List Change
  batonAt : Nat
  pacerAt : Nat
deriving DecidableEq, Repr

def PairSt.init : PairSt :=
  ⟨false, 0, 0, false, 0, false, [], false, [], 0, 0, 0, .init, .init, none, none, false, none, false, false, none, 0, none,
   none, 0, false, [], 0, false, false, false, [], none, 0, [], 0, 0⟩

/-! ### Check units (chapter 11) -/

/-- A scan job as GO found its registers (R271): region, whether it scrubs, the engine it feeds, start byte, count, element
size and stride in bytes. -/
structure ScanJob where
  region : Nat
  scrub : Bool
  ck : Nat
  start : Nat
  count : Nat
  elem : Nat
  stride : Nat
deriving DecidableEq, Repr

/-- The check units beside their registers: the block whose check is next, the blocks marked bad, the cell index and site
whose scrub is next, the low halves written to CHK_CK_RUN_LO by engine (R270), the code bytes that the stride firmware RAM
holds (table 0), and the scan job that runs. -/
structure CheckSt where
  nextBlock : Nat
  bad : List Nat
  scrubIdx : Nat
  scrubSite : Nat
  runLo : Table Word
  fw : List Byte
  scanJob : Option ScanJob
deriving DecidableEq, Repr

def CheckSt.init : CheckSt := ⟨0, [], 0, 0, [], [], none⟩

/-! ### Control matrix (chapter 12) -/

/-- A transaction (R292–R299): request, target, route, the DTIME and the clk_tm tick of its issue, whether the target
has granted it, whether the hang monitor has recorded it, the tick of the grant, and the beats known to have passed. -/
structure Txn where
  master : Nat
  req : MxReq
  target : Nat
  layered : Bool
  issuedAt : DTime
  tick : Nat
  granted : Bool
  hung : Bool
  grantTick : Nat
  passed : Nat
deriving DecidableEq, Repr

/-- A request held back in its master's port (R295), with the clk_tm tick at which it arrived. -/
structure Held where
  master : Nat
  req : MxReq
  at_ : Nat
deriving DecidableEq, Repr

/-- The statuses with which the matrix itself completes a request (R287, R297). -/
inductive MxStatus where
  | refused | down | reset
deriving DecidableEq, Repr

/-- Such a completion as it reaches the master: the transaction's ID, the status, and the bytes a read returns. -/
structure MxAnswer where
  id : BitVec 4
  status : MxStatus
  data : List Byte
deriving DecidableEq, Repr

/-- The matrix beside its registers: outstanding transactions, held requests in order of arrival, miss slots by master,
requests lost in arbitration by 16·target + master, the master each target last granted and is parked on (the layered
bridge as target 10), the clk_tm tick of the latest request of NORMAL, the DTIME of the latest hang, and by master the
latest completion that the matrix itself gave. -/
structure MatrixSt where
  txns : List Txn
  held : List Held
  miss : Table Txn
  lost : Table Nat
  lastGrant : Table Nat
  parked : Table Nat
  modeSince : Nat
  hangAt : Option Int
  answers : Table MxAnswer
deriving DecidableEq, Repr

def MatrixSt.init : MatrixSt := ⟨[], [], [], [], [], [], 0, none, []⟩

/-! ### Recorder and capture (chapter 13) -/

/-- A record: its DTIME, its type, whether it is to carry every byte of its item (R312), and its content after the
header, before change encoding. -/
structure Rec where
  at_ : DTime
  ty : Nat
  full : Bool
  body : List Byte
deriving DecidableEq, Repr

/-- A record in staging (R313), with the pool cells it fills and their queue (0 cells in the early ring). -/
structure Staged where
  r : Rec
  cells : Nat
  queue : Nat
deriving DecidableEq, Repr

/-- A frame, or what is left of it, that capture copy has still to stage (R326): whether its cells have been read, slot,
capture number, frame index from the trigger frame, byte offset, the bytes left, whether a cell of it was poisoned, and its
boundary. -/
structure Frag where
  isRead : Bool
  slot : Nat
  num : Nat
  frame : Int
  off : Nat
  data : List Byte
  poison : Bool
  at_ : DTime
deriving DecidableEq, Repr

/-- What capture copy has to stage: a CAPT_HDR record, or a frame to be cut into fragments. -/
inductive CopyItem where
  | header (slot : Nat) (r : Rec)
  | frame (f : Frag)
deriving DecidableEq, Repr

/-- An index entry (R306). -/
structure IdxEntry where
  seq : Nat
  st : Nat
  alive : Byte
  first : Nat
  last : Nat
deriving DecidableEq, Repr

def IdxEntry.init : IdxEntry := ⟨0, 0, 0, 0, 0⟩

/-- What an NVMe command is for (R303, R308, R317, R318, R322): a page, the Flush of a flush interval, the steps of a
commit, a slot's Deallocate and header, the trailers of a repair, the SMART log, the batches and checkpoints of a rebuild, a
drive's bring-up (Identify of a CNS, Set Features, the two queue creations, the reads of start-up), and a Read of the read
service. -/
inductive NvmePurpose where
  | page (idx : Nat) | flushPage | flushA | trailerA | flushTrA | trailerB | flushTrB | indexAnchor
  | dealloc | header | repair | smart | rebuildRead (slot : Nat) | ckpt | flushCkpt
  | identify (cns : Nat) | setFeatures | createCq | createSq | startRead | read
deriving DecidableEq, Repr

/-- Whether a command goes to a drive's admin queue (R303). -/
def NvmePurpose.admin : NvmePurpose → Bool
  | .smart | .identify _ | .setFeatures | .createCq | .createSq => true
  | _ => false

/-- A command for a drive: what it is for, the NSID and the byte of the namespace at which a Write, Read or Deallocate begins,
the bytes that a Write carries (zeros follow them in the last block), and the clk_tm tick of its issue. -/
structure NvmeCmd where
  drive : Nat
  what : NvmePurpose
  place : Option (Nat × Nat)
  data : List Byte
  tick : Nat
deriving DecidableEq, Repr

/-- The open segment (R307, R308): slot, the slot before, sequence, alive, trailer-B CRC of the segment before, the page
being filled (its index, base and encoded records, and whether they have been written), records, first and last DTIME, page
CRCs, capture fragments, whether it holds GAP records, its open time, and the CRC of its own trailer B once that is written.
-/
structure Segment where
  slot : Nat
  prevSlot : Nat
  seq : Nat
  alive : Byte
  prevB : Word
  pageIdx : Nat
  base : DTime
  page : List (List Byte)
  pageDirty : Bool
  records : Nat
  first : Option DTime
  last : DTime
  crcs : List Word
  frags : Nat
  gaps : Bool
  opened : DTime
  trB : Word
deriving DecidableEq, Repr

/-- The recorder beside its registers: engine records, and capture copy, that wait for staging; staged records; records
dropped by GAP reason with the time of the first; the staging read position in the event ring; drives, what was read of each
slot, index, ring and anchor sequence; the open segment; NVMe commands in flight; the tick of the last controller reset per
drive; the next slot of a rebuild; the read service operation and the aperture; whether a CLOSE is due; bytes written in the
DTIME second in progress; the predecessors of change encoding by item; the sources keyed in the open segment, for OHCHG and
for PM (R312); the ticks of the last page write (R308), of the last SMART poll per drive (R303), and from which bulk pacing
lets the next fragment through (R314); whether the boot-journal entries of this start have still to be copied (R317), and
whether the rebuild in progress is a resumed one (R318), and whether the event ring and capture copy wait for room in staging
(R313). -/
structure RecSt where
  outbox : List Rec
  capBox : List CopyItem
  staged : List Staged
  dropped : Table (Nat × DTime)
  ringPos : Nat
  drives : Table DriveInfo
  scans : Table SegScan
  index : Table IdxEntry
  ringId : BitVec 64
  anchorSeq : Nat
  seg : Option Segment
  nvme : List NvmeCmd
  resets : Table Nat
  rebuilding : Option Nat
  rdOp : Option Nat
  aper : List (List Byte)
  closing : Bool
  bytesSec : Nat
  pmBase : Table (List Byte)
  ohBase : Table (List Byte)
  keyOh : List Nat
  keyPm : List Nat
  pageAt : Nat
  smartAt : Table Nat
  bulkAt : Nat
  bootDue : Bool
  resumed : Bool
  evWait : Bool
  capWait : Bool
deriving DecidableEq, Repr

def RecSt.init : RecSt :=
  ⟨[], [], [], [], 0, [], [], [], 0, 0, none, [], [], none, none, [], false, 0, [], [], [], [], 0, [], 0, false, false, false, false⟩

/-- A capture slot beside its registers (R323–R326): frames written since FILLING and the bytes B of each, wr at FILLING,
bytes that do not fill a cell yet, boundary DTIMEs of the frames kept (newest first), trigger frame and DTIME, the first
frame of the capture, whether it was cut short, the state that follows the copy where that is not FILLING or DONE, and, of
capture copy, the bytes to skip before the next frame, the bytes read that no frame has taken yet, and whether their cell
was poisoned. -/
structure CapSt where
  frames : Nat
  size : Nat
  w0 : Word
  wbuf : List Byte
  times : List DTime
  trig : Nat
  trigAt : DTime
  first : Nat
  cut : Bool
  after : Option Nat
  skip : Nat
  rbuf : List Byte
  rPoison : Bool
deriving DecidableEq, Repr

def CapSt.init : CapSt := ⟨0, 0, 0, [], [], 0, 0, 0, false, none, 0, [], false⟩

/-! ### Host port, events (chapter 14) -/

/-- One event record (R343). -/
structure EvRec where
  id : BitVec 16
  arg : BitVec 16
  seq : Word
  at_ : DTime
  pairId : Bool
  owning : Bool
deriving DecidableEq, Repr

/-- How the last host access completed (R331, R332). -/
inductive Completion where
  | successful | unsupported | aborted
deriving DecidableEq, Repr

/-- What of the PCIe configuration space (R330) is written: the base addresses of BAR0 and BAR2, the power state (D3hot or
D0), Max_Payload_Size as its code (128 × 2^code bytes), and the uncorrectable errors that AER has logged with its first error
pointer. -/
structure PciCfg where
  bar0 : BitVec 64
  bar2 : BitVec 64
  d3hot : Bool
  mps : BitVec 3
  aerStatus : Word
  aerFirst : BitVec 5
deriving DecidableEq, Repr

/-- Reset: D0, 128 bytes (PRESUMED: PCIe 5.0's values, log entry 103), BARs without an address, their type bits set: 64-bit
non-prefetchable, 64-bit prefetchable. -/
def PciCfg.init : PciCfg := ⟨0x4, 0xC, false, 0, 0, 0⟩

/-- What of the configuration space is read only (R330). -/
structure PciIdent where
  device : BitVec 16
  revision : BitVec 8
  classCode : BitVec 24
  intPin : BitVec 8
  bar0Bytes : Nat
  bar2Bytes : Nat
  msixVectors : Nat
  msixTable : Nat
  msixPba : Nat
  maxMps : BitVec 3
deriving DecidableEq, Repr

/-- The endpoint's read-only values; the vendor identifier and the serial number stand in Config. -/
def pciIdent : PciIdent :=
  { device := 0x9192, revision := 0x11, classCode := 0x028000, intPin := 0, bar0Bytes := 2 ^ 26, bar2Bytes := 2 ^ 30
    msixVectors := 64, msixTable := 0xC000, msixPba := 0xD000, maxMps := 2 }

/-- The host port beside its registers: the event ring by slot, the events of S0 and S1 that wait for the ring (R370),
events written since PWRON_L, MSI-X vectors' moderation (tick until which it lasts, and whether an event waits), messages
sent per vector, function mask; the data and status of the last read completion; latched _HI halves by register offset;
the I2C target's offset, ring count, lost count, bytes latched by offset and bytes of the last read; rate limits by event
key: the DTIME second and the count in it; the queue of the host port's operation in progress (R206); the configuration space;
the unit operation that GLB_UC_CMD has put to the unit-control engine (R342), and the tributaries that the device stops to free
them (R136, R144). -/
structure HostSt where
  ring : Table EvRec
  early : List EvRec
  evSeq : Nat
  modUntil : Table Nat
  modWait : Table Bool
  msixSent : Table Nat
  fnMask : Bool
  rdata : BitVec 64
  completion : Completion
  latched : Table Word
  bar2Data : List Byte
  i2cOff : Nat
  i2cRd : Nat
  i2cLost : Nat
  i2cLatch : Table Byte
  i2cOut : List Byte
  i2cNack : Bool
  seen : Table (Nat × Nat)
  opQueue : Nat
  cfg : PciCfg
  ucOp : Option (Nat × UnitId)
  freeing : List Nat
deriving DecidableEq, Repr

def HostSt.init : HostSt :=
  ⟨[], [], 0, [], [], [], false, 0, .successful, [], [], 0, 0, 0, [], [], false, [], 0, .init, none, []⟩

/-! ### Start-up (chapter 15) -/

/-- A progress record (R362): its DTIME, the cumulative item sets and the pin rate. -/
structure JProg where
  at_ : DTime
  begun : Nat
  done : Nat
  failed : Nat
  pinRate : Nat
deriving DecidableEq, Repr

/-- A closing record (R362): result, reason, DTIME and item sets. -/
structure JClose where
  result : Nat
  reason : Nat
  at_ : DTime
  done : Nat
  failed : Nat
deriving DecidableEq, Repr

/-- A boot-journal entry (R362): opening record, progress records (oldest first) and closing record; the history field as
two numbers. An entry whose opening fails its CRC is not listed. -/
structure JEntry where
  jseq : Nat
  stage : Nat
  attempt : Nat
  strike : Nat
  startNo : Nat
  opened : DTime
  action : Nat
  cause : Nat
  slot : Nat
  hdrCrc : Word
  histA : Nat
  histB : Nat
  progress : List JProg
  closing : Option JClose
deriving DecidableEq, Repr

/-- A record of the image in use (R351, R352): type, arg0, arg1, body. -/
structure ImgRec where
  ty : Nat
  arg0 : Nat
  arg1 : Nat
  body : List Byte
deriving DecidableEq, Repr

/-- The image in use: header fields and records (R350). -/
structure Image where
  slot : Nat
  version : Nat
  signed : Bool
  hdrCrc : Word
  recs : List ImgRec
deriving DecidableEq, Repr

/-- The boot sequencer beside its registers: whether a stage is open, the attempt, whether the unit start of S8 or S9 has
been issued, whether a failure left something out of the open stage; the flash (bytes that are not erased, by address; its
size; ranges cut off or failed in an erase or program; the host command in progress: operation, address, data), the
journal as the flash holds it, the open entry, the two entries kept for S0 and S1, the positions erased ahead; the action
of each stage in this start and its cut-off items, false-start entries found, header CRCs marked bad by slot; the image,
its policy, the START operations still to be issued in image order, units whose COMMIT was rejected; the item sets of the
open stage; policy actions taken by 64·stage + item; the quads of S5 still to begin and those of its batch, PLL attempts;
S6's site and its attempts; the fused key hash. -/
structure BootSt where
  open_ : Bool
  attempt : Nat
  begun : Bool
  degraded : Bool
  flash : List Host.Cell
  flashSize : Nat
  torn : List (Nat × Nat)
  flashOp : Option (Nat × Nat × List Byte)
  journal : List JEntry
  cur : Option JEntry
  early : List JEntry
  erased : Nat
  actions : Table Nat
  cut : Table Nat
  cutSeqs : List Nat
  imgBad : Table Word
  image : Option Image
  policy : List Nat
  starts : List UnitId
  rejected : List UnitId
  itBegun : Nat
  itDone : Nat
  itFailed : Nat
  itActs : Table Nat
  quadsLeft : List Nat
  batch : List Nat
  quadTried : Table Nat
  site : Option Nat
  siteTried : Nat
  keyHash : List Byte
  openedAt : Nat
  quadAt : Table Nat
deriving DecidableEq, Repr

def BootSt.init : BootSt :=
  ⟨true, 0, false, false, [], 0, [], none, [], none, [], 0, [], [], [], [], none, [], [], [], 0, 0, 0, [], [], [], [], none,
   0, [], 0, []⟩

/-! ### Clocks, power, pins (chapters 16 and 17) -/

/-- Clocks, time and power beside their registers: whether the root PLL has left OFF and whether it tries the reference
that is not preferred (R372); the validity of PPS and of the partner as time sources, the DTIME of the last accepted PPS
edge, whether the partner's offset exceeded 2 s, the offset still to be slewed, a step due at the next tick, whether a
DTIME load is armed (R375–R378); the requests waiting for the power controller and the one it serves; ticks at which the
frame pulses end; the family of each quad; whether the device is held in reset, by SYS_RST_L or by the TAP; the ARB_REQ
and THERMTRIP_L pins; the tasks created in the second in progress, and whether a heat of this start has entered WARMING (R119);
MGT_ADDR as sampled at the release of PWRON_L (R335); and the clk_tm ticks at which the try of ACQUIRE began, at which each
reference turned good, at which PPS and the partner gave their last accepted measurement, and at which the voltage was last
adjusted (R372, R375, R387), and the DTIME second whose figures are being gathered; and the instruction that the TAP holds
(R416). -/
structure SysSt where
  rootOn : Bool
  tryOther : Bool
  ppsValid : Bool
  partnerValid : Bool
  lastPps : Option Nat
  farPartner : Bool
  slewLeft : Int
  stepDue : Option Int
  loadArmed : Bool
  pdQueue : List (Nat × Bool)
  pdServing : Option (Nat × Bool)
  fpEnd : Table Nat
  quadNrz : Table Bool
  held : Bool
  rstPin : Bool
  tap : Bool
  arbPin : Bool
  thermTripPin : Bool
  tasksNow : Nat
  tasksSecond : Nat
  fwRunning : Bool
  mgtAddr : BitVec 2
  acquireAt : Nat
  refAt : Table Nat
  ppsAt : Nat
  partnerAt : Nat
  avsAt : Option Nat
  secondNow : Nat
  tapIr : TapInstr
deriving DecidableEq, Repr

def SysSt.init : SysSt :=
  ⟨true, false, false, false, none, false, 0, none, false, [], none, [], [], false, false, false, false, false, 0, 0, false, 0, 0, [], 0, 0, none, 0, .idcode⟩

/-- The lap count of a source port (R223): its high byte and the MFAS of the frame it passed last. -/
structure LapSt where
  high : Byte
  mfas : Byte
deriving DecidableEq, Repr

/-- The device except the cell pool. `regs` and `shadow` hold, by 2^20 times the register's number plus the array
index, every register word whose active value, or RWS shadow, differs from its reset value (R13, R15). `ticks` counts
clk_tm ticks; `dtime` is DTIME (R11, R375); `fresh` indexes the free values the model has drawn. -/
structure Dev where
  regs : Table Word
  shadow : Table Word
  ticks : Nat
  dtime : DTime
  fresh : Nat
  chans : Table ChanSt
  servers : Table ServerSt
  tribs : Table TribSt
  flexe : Table FlexeSt
  ohs : Table OhSt
  heats : Table HeatSt
  engines : Table EngineSt
  ctxs : Table CtxSt
  shadows : Table Nat
  sync : SyncSt
  groups : Table GroupSt
  laps : Table LapSt
  pair : PairSt
  check : CheckSt
  matrix : MatrixSt
  recr : RecSt
  caps : Table CapSt
  host : HostSt
  boot : BootSt
  sys : SysSt
deriving DecidableEq, Repr

/-- The block: the device, its cell pool, and the commands waiting, first in, first out. -/
structure State where
  dev : Dev
  pool : Pool
  pending : List Instr
deriving DecidableEq, Repr

/-- What stops a step with a fault. No meaning of this model faults: the spec gives every command an effect. -/
inductive Fault where
  /-- Raised by nobody: no command of the table stops the block (safe). -/
  | none
deriving DecidableEq, Repr

/-- What a step refuses. -/
inductive Refusal where
  /-- Raised by the dispatcher for a command that has no meaning yet (safe). -/
  | notModelled (mnemonic : String)
deriving DecidableEq, Repr

/-- The device after reset: every register at its reset value, every function at its initial state. -/
def Dev.reset : Dev :=
  { regs := [], shadow := [], ticks := 0, dtime := 0, fresh := 0, chans := [], servers := [], tribs := [],
    flexe := [], ohs := [], heats := [], engines := [], ctxs := [], shadows := [], sync := ⟨[], none, none, []⟩,
    groups := [], laps := [], pair := .init, check := .init, matrix := .init, recr := .init, caps := [], host := .init,
    boot := .init, sys := .init }

/-- The entry that start-up opens for S0 and keeps until S2 (R363), by cause of the reset. -/
def JEntry.ofS0 (cause : Nat) (at_ : DTime) : JEntry := ⟨0, 0, 0, 0, 0, at_, 0, cause, 0xFF, 0, 0, 0, [], none⟩

/-- The machine right after PWRON_L is released: S0 is open, and its event 0x0101 waits for the event ring (R358, R370). -/
def State.reset : State :=
  { dev := { Dev.reset with
      host := { HostSt.init with early := [⟨0x0101, 0, 0, 0, false, false⟩] }
      boot := { BootSt.init with cur := some (JEntry.ofS0 0 0) } }
    pool := Pool.init, pending := [] }

end Sys2Proof.Machine
end

