-- ==== Sys2Proof/Machine/Ops.lean ====
section
/-!
DEFINITION. The named operations over the state: sparse tables, register words and fields, time, free values, power
domains, unit states, and the raising of events (R334, R343, R344).
-/
namespace Sys2Proof.Machine

/-! ### Sparse tables -/

/-- The entry of key k, if listed. -/
def Table.find {β : Type} : Table β → Nat → Option β
  | [], _ => none
  | (i, b) :: r, k => if i = k then some b else Table.find r k

/-- The entry of key k, or the entry d of an unlisted key. -/
def Table.get {β : Type} (t : Table β) (k : Nat) (d : β) : β := (Table.find t k).getD d

/-- The table without key k. -/
def Table.del {β : Type} (t : Table β) (k : Nat) : Table β := t.filter (fun e => e.1 != k)

/-- The table with entry b at key k, in rising order of keys. -/
def Table.ins {β : Type} : Table β → Nat → β → Table β
  | [], k, b => [(k, b)]
  | (i, c) :: r, k, b =>
    if k < i then (k, b) :: (i, c) :: r else if k = i then (k, b) :: r else (i, c) :: Table.ins r k b

/-- The table with entry b at key k, not listed where b is the entry d of an unlisted key. -/
def Table.put {β : Type} [DecidableEq β] (t : Table β) (k : Nat) (b d : β) : Table β :=
  if b = d then Table.del t k else Table.ins t k b

/-- Keys strictly rising. -/
def Table.rising {β : Type} : Table β → Bool
  | [] => true
  | [_] => true
  | (i, _) :: (j, c) :: r => decide (i < j) && Table.rising ((j, c) :: r)

/-! ### Register words -/

/-- The reset word of register r at array index i: the sum of its fields' reset values, and the four registers whose
reset value depends on the index or on a fuse (R96, R359, R392). -/
def Reg.resetWord (r : Reg) (i : Nat) : Word :=
  let base := r.info.fields.foldl (fun a f => a ||| BitVec.ofNat 32 (f.rst <<< f.lo)) (0 : Word)
  match r with
  | .CH_OH_LVL_CTL => if i % 8 < 2 then base ||| 2 else base
  | .ODU_OH_LVL_CTL => if i % 8 = 1 then base ||| 2 else if i % 8 = 0 then 0 else base
  | .ODU_OH_DEGTHR => if i % 8 = 0 then 0 else base
  | .GLB_CLK_CTL => base ||| Config.refPrefFuse.zeroExtend 32
  | .GLB_PD_BOOT => if i = 1 then 0xFFFF0000 else if i = 2 then 0xFF000000 else 0
  | _ => base

/-- The key of a register word in the register file. -/
def Reg.key (r : Reg) (i : Nat) : Nat := r.ctorIdx * 2 ^ 20 + i % 2 ^ 20

/-- The active or current word of register r at index i. -/
def Dev.word (d : Dev) (r : Reg) (i : Nat) : Word := Table.get d.regs (r.key i) (r.resetWord i)

/-- The device with word w in register r at index i. -/
def Dev.setWord (d : Dev) (r : Reg) (i : Nat) (w : Word) : Dev :=
  { d with regs := Table.put d.regs (r.key i) w (r.resetWord i) }

/-- The shadow word of register r at index i (R13, R338). -/
def Dev.shWord (d : Dev) (r : Reg) (i : Nat) : Word := Table.get d.shadow (r.key i) (r.resetWord i)

/-- The device with shadow word w in register r at index i. -/
def Dev.setShWord (d : Dev) (r : Reg) (i : Nat) (w : Word) : Dev :=
  { d with shadow := Table.put d.shadow (r.key i) w (r.resetWord i) }

/-- A field of a word. -/
def Fld.of (f : Fld) (w : Word) : Nat := (w.toNat >>> f.lo) % 2 ^ f.w

/-- The bits of a field. -/
def Fld.mask (f : Fld) : Word := BitVec.ofNat 32 ((2 ^ f.w - 1) <<< f.lo)

/-- A word with the field set to v modulo its width. -/
def Fld.into (f : Fld) (w : Word) (v : Nat) : Word :=
  (w &&& ~~~f.mask) ||| BitVec.ofNat 32 ((v % 2 ^ f.w) <<< f.lo)

/-- The active or current value of a field. -/
def Dev.get (d : Dev) (f : Fld) (i : Nat) : Nat := f.of (d.word f.reg i)

/-- A one-bit field as a condition. -/
def Dev.bit (d : Dev) (f : Fld) (i : Nat) : Bool := d.get f i != 0

/-- The device with a field set. -/
def Dev.set (d : Dev) (f : Fld) (i : Nat) (v : Nat) : Dev := d.setWord f.reg i (f.into (d.word f.reg i) v)

/-- The device with a one-bit field set from a condition. -/
def Dev.setB (d : Dev) (f : Fld) (i : Nat) (b : Bool) : Dev := d.set f i (if b then 1 else 0)

/-- The shadow value of a field. -/
def Dev.shGet (d : Dev) (f : Fld) (i : Nat) : Nat := f.of (d.shWord f.reg i)

/-- A saturating counter advanced by n. -/
def Dev.bump (d : Dev) (f : Fld) (i : Nat) (n : Nat) : Dev := d.set f i (min (d.get f i + n) (2 ^ f.w - 1))

/-- A wrapping counter advanced by n. -/
def Dev.wrap (d : Dev) (f : Fld) (i : Nat) (n : Nat) : Dev := d.set f i (d.get f i + n)

/-- Every word of register r at every index whose key satisfies p, back at its reset value. -/
def Table.dropWhere {β : Type} (p : Nat → Bool) (t : Table β) : Table β := t.filter (fun e => !p e.1)

/-- A signed value of w bits. -/
def sx (w : Nat) (v : Nat) : Int := if v % 2 ^ w < 2 ^ (w - 1) then (v % 2 ^ w : Int) else (v % 2 ^ w : Int) - 2 ^ w

/-- The w-bit two's-complement code of an integer. -/
def un (w : Nat) (v : Int) : Nat := (v % 2 ^ w).toNat

/-! ### Tables of functional state -/

def Dev.chan (d : Dev) (n : Nat) : ChanSt := Table.get d.chans n .init
def Dev.setChan (d : Dev) (n : Nat) (c : ChanSt) : Dev := { d with chans := Table.put d.chans n c .init }
def Dev.server (d : Dev) (n : Nat) : ServerSt := Table.get d.servers n .init
def Dev.setServer (d : Dev) (n : Nat) (c : ServerSt) : Dev := { d with servers := Table.put d.servers n c .init }
def Dev.trib (d : Dev) (t : Nat) : TribSt := Table.get d.tribs t .init
def Dev.setTrib (d : Dev) (t : Nat) (c : TribSt) : Dev := { d with tribs := Table.put d.tribs t c .init }
def Dev.fx (d : Dev) (k : Nat) : FlexeSt := Table.get d.flexe k .init
def Dev.setFx (d : Dev) (k : Nat) (c : FlexeSt) : Dev := { d with flexe := Table.put d.flexe k c .init }
def Dev.oh (d : Dev) (k : Nat) : OhSt := Table.get d.ohs k .init
def Dev.setOh (d : Dev) (k : Nat) (c : OhSt) : Dev := { d with ohs := Table.put d.ohs k c .init }
def Dev.heat (d : Dev) (h : Nat) : HeatSt := Table.get d.heats h .init
def Dev.setHeat (d : Dev) (h : Nat) (c : HeatSt) : Dev := { d with heats := Table.put d.heats h c .init }
def Dev.ctx (d : Dev) (c : Nat) : CtxSt := Table.get d.ctxs c .init
def Dev.setCtx (d : Dev) (k : Nat) (c : CtxSt) : Dev := { d with ctxs := Table.put d.ctxs k c .init }
def Dev.group (d : Dev) (g : Nat) : GroupSt := Table.get d.groups g .init
def Dev.setGroup (d : Dev) (k : Nat) (c : GroupSt) : Dev := { d with groups := Table.put d.groups k c .init }
def Dev.cap (d : Dev) (k : Nat) : CapSt := Table.get d.caps k .init
def Dev.setCap (d : Dev) (k : Nat) (c : CapSt) : Dev := { d with caps := Table.put d.caps k c .init }

/-- A state with its device part replaced. -/
def State.onDev (s : State) (f : Dev → Dev) : State := { s with dev := f s.dev }

/-! ### Time and free values -/

/-- DTIME in ns. -/
def Dev.now (d : Dev) : Nat := d.dtime.toNat
/-- The DTIME second in progress (R91). -/
def Dev.second (d : Dev) : Nat := d.now / 10 ^ 9
/-- clk_tm ticks in n microseconds. -/
def usTicks (n : Nat) : Nat := n * 250
/-- clk_tm ticks in n milliseconds. -/
def msTicks (n : Nat) : Nat := n * 250000
/-- Draw the next free value (log entry 2). -/
def Dev.draw (d : Dev) : Word × Dev := (Config.freeWord d.fresh, { d with fresh := d.fresh + 1 })

/-! ### Resources (R5) -/

def sliceOf (n : Nat) : Nat := n / 24
def quadOf (n : Nat) : Nat := n / 4
def domQuad (q : Nat) : Nat := q
def domHeat (h : Nat) : Nat := 48 + h
def domSite (k : Nat) : Nat := 64 + k
def domSlice (s : Nat) : Nat := 80 + s
def domRecPort : Nat := 88
def domRecEng : Nat := 89
def domBaton : Nat := 90
def domFilt (a : Nat) : Nat := 91 + a
def domScan : Nat := 93
def domCapt : Nat := 94
def domTrace : Nat := 95

/-- Whether power domain x is on (R384, GLB_PD_STAT). -/
def Dev.pdOn (d : Dev) (x : Nat) : Bool := (d.word .GLB_PD_STAT (x / 32)).getLsbD (x % 32)

/-- The device with bit x of GLB_PD_STAT set from a condition. -/
def Dev.setPd (d : Dev) (x : Nat) (b : Bool) : Dev :=
  let w := d.word .GLB_PD_STAT (x / 32)
  let m : Word := BitVec.ofNat 32 (1 <<< (x % 32))
  d.setWord .GLB_PD_STAT (x / 32) (if b then w ||| m else w &&& ~~~m)

/-! ### Unit states (R339, R340) -/

/-- The code of a unit class (R339). -/
def uclassCode : UClass → Nat
  | .channel => 1 | .bond => 2 | .trib => 3 | .pgroup => 4 | .fctx => 5
  | .queue => 6 | .cslot => 7 | .recorder => 8 | .pairagent => 9

/-- The number of units of a class (R339). -/
def uclassCount : UClass → Nat
  | .channel => 192 | .bond => 192 | .trib => 3072 | .pgroup => 2048 | .fctx => 768
  | .queue => 4096 | .cslot => 64 | .recorder => 1 | .pairagent => 1

/-- The class of a code. -/
def uclassOfCode : Nat → Option UClass
  | 1 => some .channel | 2 => some .bond | 3 => some .trib | 4 => some .pgroup | 5 => some .fctx
  | 6 => some .queue | 7 => some .cslot | 8 => some .recorder | 9 => some .pairagent | _ => none

/-- The state field of a unit in GLB_UC_ST: 0 RUN, 1 STOPPING, 2 STOPPED, 3 STARTING. -/
def Dev.ust (d : Dev) (c : UClass) (i : Nat) : Nat :=
  ((d.word .GLB_UC_ST ((uclassCode c - 1) * 256 + i / 16)).toNat >>> (2 * (i % 16))) % 4

/-- The device with a unit in state v. -/
def Dev.setUst (d : Dev) (c : UClass) (i : Nat) (v : Nat) : Dev :=
  let f : Fld := ⟨.GLB_UC_ST, 2 * (i % 16), 2⟩
  d.set f ((uclassCode c - 1) * 256 + i / 16) v

/-- Whether a unit is RUN. -/
def Dev.running (d : Dev) (c : UClass) (i : Nat) : Bool := d.ust c i == 0
/-- Whether a unit is STOPPED. -/
def Dev.stopped (d : Dev) (c : UClass) (i : Nat) : Bool := d.ust c i == 2

/-! ### Ownership and pins (R237, R241, R254, R397) -/

/-- Whether the device owns the board's outputs, that is, ARB_ROLE is high (R237, R258): ACTIVE or YIELDING, or a started
single device (agent OFF) while ARB_REQ = 1; never while held in reset (R382). -/
def Dev.owning (d : Dev) : Bool :=
  let a := d.get .PAIR_STAT_agent_state 0
  !d.sys.held && (a == 2 || a == 3 || (a == 0 && d.pair.started && d.bit .PAIR_STAT_arb_req 0))

/-- Whether the pair agent behaves as a standby (R242, R258): DISCOVER, SYNC, WARM, STALE or ISOLATED. -/
def Dev.standby (d : Dev) : Bool := [1, 4, 5, 6, 7].contains (d.get .PAIR_STAT_agent_state 0)

/-- The copy epoch in progress (R243). -/
def Dev.epoch (d : Dev) : Nat := d.dtime.toNat / 250000

/-- An active device logs a change for its partner (R245). -/
def Dev.logChange (d : Dev) (c : Change) : Dev :=
  let a := d.get .PAIR_STAT_agent_state 0
  if a == 2 || a == 3 then { d with pair := { d.pair with changes := d.pair.changes ++ [(d.epoch, c)] } } else d

/-- The mirrored selector entry of group g (R242). -/
def Dev.mirrorSel (d : Dev) (g : Nat) : Option SelEntry := d.pair.mirror.bind (fun m => m.sels.find? (fun e => e.g == g))

/-- OWN_L[s]: none where it is high-impedance (R241), else its level. -/
def Dev.ownL (d : Dev) (s : Nat) : Option Bool :=
  if d.sys.held || d.sys.thermTripPin then none
  else some (!(d.owning && (d.get .PAIR_CTL_own_mask 0).testBit s))

/-- INT_L (R334): low (false) while int_pin_en = 1 and an enabled area is pending. -/
def Dev.intL (d : Dev) : Bool :=
  !(d.bit .GLB_HOST_CTL_int_pin_en 0
    && ((d.word .GLB_EVT_PEND 0 &&& d.word .GLB_EVT_INT_EN 0) != 0))

/-! ### Events (R17, R334, R343, R344) -/

/-- The pending bit of vector v (R334). -/
def Dev.pba (d : Dev) (v : Nat) (b : Bool) : Dev :=
  d.setWord .GLB_MSIX_PBA (v / 32) (BitVec.ofNat 32 (putBit (d.word .GLB_MSIX_PBA (v / 32)).toNat (v % 32) b))

/-- Send or hold the MSI-X message of vector v (R334): nothing leaves while Bus Master Enable or MSI-X Enable is 0, or in
D3hot (log entry 103); a masked vector sets its pending bit; a message sent stands for every event that waited for it. -/
def Dev.sendMsix (d : Dev) (v : Nat) : Dev :=
  if !(d.bit .GLB_HOST_STAT_bme 0 && d.bit .GLB_HOST_STAT_msix_en 0 && !d.host.cfg.d3hot) then d
  else if d.host.fnMask || (d.word .GLB_MSIX_TABLE (v * 4 + 3)).getLsbD 0 then
    d.pba v true
  else
    let m := d.get .GLB_EVT_MOD_mod 0
    let d := d.pba v false
    { d with host := { d.host with
        msixSent := Table.put d.host.msixSent v (Table.get d.host.msixSent v 0 + 1) 0
        modUntil := Table.put d.host.modUntil v (if m = 0 then 0 else d.ticks + usTicks m) 0
        modWait := Table.put d.host.modWait v false false } }

/-- Whether the moderation time of vector v runs. -/
def Dev.moderated (d : Dev) (v : Nat) : Bool := decide (d.ticks < Table.get d.host.modUntil v 0)

/-- A message of vector v is due: it goes, or waits for the end of the moderation time (R334). -/
def Dev.msixDue (d : Dev) (v : Nat) : Dev :=
  if d.moderated v then { d with host := { d.host with modWait := Table.put d.host.modWait v true false } } else d.sendMsix v

/-- The interrupts of an event of area a (R334), after its ring write. -/
def Dev.interrupt (d : Dev) (a : Nat) : Dev :=
  let d := d.setWord .GLB_EVT_PEND 0 (d.word .GLB_EVT_PEND 0 ||| BitVec.ofNat 32 (1 <<< a))
  if !(d.word .GLB_EVT_INT_EN 0).getLsbD a then d
  else d.msixDue (d.get .GLB_EVT_VEC_vec (a - 1))

/-- The record of an event raised now (R343); seq is its place in the ring. -/
def Dev.evNow (d : Dev) (id arg : Nat) : EvRec :=
  { id := BitVec.ofNat 16 id, arg := BitVec.ofNat 16 arg, seq := 0, at_ := d.dtime,
    pairId := d.bit .PAIR_CTL_pair_id 0, owning := d.owning }

/-- Write one event record to the ring and advance the write count (R343, R344). -/
def Dev.ringPut (d : Dev) (r : EvRec) : Dev :=
  let w := d.get .GLB_EVT_WR_wr 0
  let d := { d with host := { d.host with
    ring := Table.ins d.host.ring (w % 4096) { r with seq := BitVec.ofNat 32 d.host.evSeq }, evSeq := d.host.evSeq + 1 } }
  d.wrap .GLB_EVT_WR_wr 0 1

/-- Records the host has not read, modulo 2^32. -/
def Dev.ringDepth (d : Dev) : Nat :=
  (d.word .GLB_EVT_WR 0 - d.word .GLB_EVT_RD 0).toNat

/-- The host's read count follows an overrun by n records: GLB_EVT_RD := GLB_EVT_WR − 4,096, n into lost (R344). -/
def Dev.hostAdvance (d : Dev) (n : Nat) : Dev :=
  if n = 0 then d else (d.setWord .GLB_EVT_RD 0 (d.word .GLB_EVT_WR 0 - 4096)).bump .GLB_EVT_LOST_lost 0 n

/-- The I2C target's read count follows an overrun by n records (R336). -/
def Dev.i2cAdvance (d : Dev) (n : Nat) : Dev :=
  if n = 0 then d
  else { d with host := { d.host with
    i2cRd := (d.word .GLB_EVT_WR 0 - 4096).toNat
    i2cLost := min (d.host.i2cLost + n) (2 ^ 32 - 1) } }

/-- The I2C target's read count keeps within 4,096 records of GLB_EVT_WR (R336). -/
def Dev.i2cFollow (d : Dev) : Dev := d.i2cAdvance ((d.word .GLB_EVT_WR 0 - BitVec.ofNat 32 d.host.i2cRd).toNat - 4096)

/-- The read counts follow an overrun (R344, R336). -/
def Dev.ringAdvance (d : Dev) : Dev := (d.hostAdvance (d.ringDepth - 4096)).i2cFollow

/-- Whether the rate limit of key k still admits an event in this DTIME second, at most cap of them. -/
def Dev.admits (d : Dev) (k cap : Nat) : Bool :=
  let (sec, n) := Table.get d.host.seen k (0, 0)
  !(sec == d.second + 1) || decide (n < cap)

/-- Count an event of key k in this DTIME second. -/
def Dev.note (d : Dev) (k : Nat) : Dev :=
  let (sec, n) := Table.get d.host.seen k (0, 0)
  let n' := if sec == d.second + 1 then n + 1 else 1
  { d with host := { d.host with seen := Table.ins d.host.seen k (d.second + 1, n') } }

/-- The key of an event's rate limit: event ID and resource. -/
def evKey (id i : Nat) : Nat := id * 2 ^ 20 + i

/-- The host's read count after a change of either count: an overrun advances it, and event 0x0E04 is raised at most once per
DTIME second (R344). -/
def Dev.ringOverrun (d : Dev) : Dev :=
  if d.ringDepth ≤ 4096 then d.ringAdvance
  else
    let d := d.ringAdvance
    if d.admits (evKey 0x0E04 0) 1 then
      (((d.note (evKey 0x0E04 0)).ringPut (d.evNow 0x0E04 0)).interrupt 0x0E).ringAdvance
    else d

/-- An event enters the ring: record, overrun handling, interrupts (R334, R344). -/
def Dev.raiseRec (d : Dev) (r : EvRec) : Dev :=
  ((d.ringPut r).interrupt (r.id.toNat / 256)).ringOverrun

/-- Whether the event ring is usable: from the end of S1 (R358). -/
def Dev.ringUsable (d : Dev) : Bool := d.bit ⟨.GLB_READY_FN, 1, 1⟩ 0

/-- Raise an event (R343): before the ring is usable it waits, with its time (R370). -/
def Dev.raise (d : Dev) (id arg : Nat) : Dev :=
  if d.ringUsable then d.raiseRec (d.evNow id arg)
  else { d with host := { d.host with early := d.host.early ++ [d.evNow id arg] } }

/-- Raise an event at most cap times per DTIME second and resource i. -/
def Dev.raiseUpTo (d : Dev) (cap id i arg : Nat) : Dev :=
  if d.admits (evKey id i) cap then (d.note (evKey id i)).raise id arg else d

/-- Raise an event at most once per DTIME second and resource i. -/
def Dev.raise1 (d : Dev) (id i arg : Nat) : Dev := d.raiseUpTo 1 id i arg

/-- Raise an event when a condition holds. -/
def Dev.raiseIf (d : Dev) (b : Bool) (id arg : Nat) : Dev := if b then d.raise id arg else d

/-- Hand a record to the recorder (R94, R311): it waits in the producers' outbox until RECORD_STAGE. -/
def Dev.record (d : Dev) (ty : Nat) (at_ : DTime) (body : List Byte) (full : Bool := false) : Dev :=
  { d with recr := { d.recr with outbox := d.recr.outbox ++ [⟨at_, ty, full, body⟩] } }

/-- The argument of unit events: class in [15:12], index in [11:0] (R347). -/
def unitArg (c : UClass) (i : Nat) : Nat := uclassCode c * 4096 + i

/-- A unit enters RUN or STOPPED: event 0x0E01 (R340). -/
def Dev.reach (d : Dev) (c : UClass) (i : Nat) (v : Nat) : Dev := (d.setUst c i v).raise 0x0E01 (unitArg c i)

/-! ### The ready map (R345, R361) -/

/-- Set or clear one ready bit, with event 0x010C or 0x010D when it changes. -/
def Dev.ready (d : Dev) (f : Fld) (i : Nat) (code : Nat) (b : Bool) : Dev :=
  if d.bit f i == b then d else (d.setB f i b).raise (if b then 0x010C else 0x010D) code

/-- GLB_READY_FN bit k. -/
def Dev.readyFn (d : Dev) (k : Nat) (b : Bool) : Dev := d.ready ⟨.GLB_READY_FN, k, 1⟩ 0 k b

/-- The ready bit of quad q, and quads_any after it. -/
def Dev.readyQuad (d : Dev) (q : Nat) (b : Bool) : Dev :=
  let d := if q < 32 then d.ready ⟨.GLB_READY_Q_LO, q, 1⟩ 0 (0x40 + q) b
           else d.ready ⟨.GLB_READY_Q_HI, q - 32, 1⟩ 0 (0x40 + q) b
  d.readyFn 5 (d.word .GLB_READY_Q_LO 0 != 0 || d.word .GLB_READY_Q_HI 0 != 0)

/-- The ready bit of site k; gddr clears when no site bit is left. -/
def Dev.readySite (d : Dev) (k : Nat) (b : Bool) : Dev :=
  let d := d.ready ⟨.GLB_READY_SITE, k, 1⟩ 0 (0x80 + k) b
  if d.word .GLB_READY_SITE 0 == 0 then d.readyFn 6 false else d

/-- Whether quad q is ready. -/
def Dev.quadReady (d : Dev) (q : Nat) : Bool :=
  if q < 32 then (d.word .GLB_READY_Q_LO 0).getLsbD q else (d.word .GLB_READY_Q_HI 0).getLsbD (q - 32)

/-- A completion DOWN or RESET (R297): event 0x0C08 for the first one at target t in a second. -/
def Dev.mxDown (d : Dev) (t : Nat) (reset : Bool) : Dev :=
  ((d.bump .MTX_CNT_B_down_cnt 0 1).set .MTX_EVT_down 0 1).raise1 0x0C08 t (t * 16 + bitNat reset * 256)

end Sys2Proof.Machine
end

