-- ==== Sys2Proof/Machine/Operands.lean ====
section
/-!
DEFINITION. The format facts the commands' operands select: line formats and bond groups (R29–R32), frame geometry
(R53), and the resources of a channel or tributary (R5, R98).
-/
namespace Sys2Proof.Machine

/-! ### Line formats (R29) -/

/-- Codes 0x01–0x04: the NRZ family. -/
def isNrz (m : Nat) : Bool := 1 ≤ m && m ≤ 4
/-- The PAM4 family. -/
def isPam4 (m : Nat) : Bool := [0x08, 0x09, 0x0A, 0x10, 0x11, 0x12, 0x18].contains m
/-- Codes of the table of R29. -/
def modeListed (m : Nat) : Bool := m == 0 || isNrz m || isPam4 m
/-- Modes carried by bond groups (R32). -/
def isBonded (m : Nat) : Bool := [0x0A, 0x11, 0x12].contains m
/-- Ethernet and FlexE PHY formats. -/
def isEther (m : Nat) : Bool := [0x04, 0x10, 0x11, 0x12, 0x18].contains m
/-- FlexO formats. -/
def isFlexO (m : Nat) : Bool := m == 0x09 || m == 0x0A
/-- OTU2, OTU2e and OTU4: formats with GFEC. -/
def isGfec (m : Nat) : Bool := [0x02, 0x03, 0x08].contains m
/-- Formats with a PCS stage (R18, R29). -/
def hasPcs (m : Nat) : Bool := isEther m || isFlexO m
/-- Formats with a frame aligner. -/
def isFramed (m : Nat) : Bool := m == 0x01 || isGfec m || isFlexO m

/-- Lane rate in kbit/s (R29). -/
def laneKbps : Nat → Nat
  | 0x01 => 9953000 | 0x02 => 10709000 | 0x03 => 11096000 | 0x04 => 10312500 | 0x08 => 111810000
  | 0x09 => 106250000 | 0x0A => 106250000 | 0x10 => 106250000 | 0x11 => 106250000 | 0x12 => 106250000
  | 0x18 => 106250000 | _ => 0

/-- Correctable symbols per codeword (R37). -/
def fecLimit (m : Nat) : Nat := if isGfec m then 8 else 15

/-- Deskew capacity in ns (R32). -/
def deskewCap (m : Nat) : Nat := if m == 0x0A then 1000 else 200

/-- The active mode of channel n. -/
def Dev.mode (d : Dev) (n : Nat) : Nat := d.get .CH_MODE_mode n
/-- Channels of the unit that channel n belongs to: 1, 2, 4 or 8. -/
def Dev.groupSize (d : Dev) (n : Nat) : Nat := if isBonded (d.mode n) then 2 ^ d.get .CH_MODE_bond_size n else 1
/-- The leader of channel n's unit (R32). -/
def Dev.leader (d : Dev) (n : Nat) : Nat := n / d.groupSize n * d.groupSize n
/-- The channels of channel n's unit, leader first. -/
def Dev.members (d : Dev) (n : Nat) : List Nat := (List.range (d.groupSize n)).map (d.leader n + ·)
/-- The unit that channel n belongs to: a BOND named by its leader, or its own CHANNEL (R33). -/
def Dev.lineUnit (d : Dev) (n : Nat) : UnitId :=
  if isBonded (d.mode n) then ⟨.bond, d.leader n⟩ else ⟨.channel, n⟩
/-- The unit state of channel n's unit. -/
def Dev.lineUst (d : Dev) (n : Nat) : Nat := d.ust (d.lineUnit n).cls (d.lineUnit n).idx
/-- Whether channel n's unit is RUN. -/
def Dev.lineRun (d : Dev) (n : Nat) : Bool := d.lineUst n == 0
/-- The quads of channel n's unit. -/
def Dev.unitQuads (d : Dev) (n : Nat) : List Nat := (List.range ((d.groupSize n + 3) / 4)).map (quadOf (d.leader n) + ·)
/-- Whether PD_Ss and PD_Qq of every quad of channel n's unit are on (R48 step 2). -/
def Dev.unitDomains (d : Dev) (n : Nat) : Bool :=
  d.pdOn (domSlice (sliceOf n)) && (d.unitQuads n).all (fun q => d.pdOn (domQuad q))
/-- Whether the PLL of quad q is locked. -/
def Dev.quadLocked (d : Dev) (q : Nat) : Bool := d.bit .CH_SDS_STAT_quad_pll_lock (4 * q)
/-- Whether the line input of channel n's unit has LOS: present on any member (R44). -/
def Dev.lineLos (d : Dev) (n : Nat) : Bool := (d.members n).any (fun c => d.bit .CH_SDS_STAT_los c)

end Sys2Proof.Machine
end

