-- ==== Sys2Proof/Machine/Line.lean ====
section
/-!
DEFINITION. Line channels, bonding and FEC (chapter 02): the meanings of the line commands, and the line's part of
START.
-/
namespace Sys2Proof.Machine

/-! ### Receiver and transmitter (R42–R45) -/

/-- Receiver states of CH_SDS_STAT.adapt_state. -/
def rxOff : Nat := 0
def rxCal : Nat := 1
def rxAcquire : Nat := 2
def rxTracking : Nat := 3
def rxHold : Nat := 4

/-- The receiver state of channel n. -/
def Dev.rx (d : Dev) (n : Nat) : Nat := d.get .CH_SDS_STAT_adapt_state n

/-- adapt_frozen of channel n: its taps are frozen in HOLD, and in TRACK with adapt_freeze (R42, R43). -/
def Dev.rxFreeze (d : Dev) (n : Nat) : Dev :=
  d.setB .CH_SDS_STAT_adapt_frozen n (d.rx n == rxHold || (d.rx n == rxTracking && d.bit .CH_SDS_CTL_adapt_freeze n))

/-- The receiver of channel n enters state st, and its time there begins (R42). -/
def Dev.rxGo (d : Dev) (n st : Nat) : Dev :=
  ((d.setChan n { d.chan n with rxAt := d.ticks }).set .CH_SDS_STAT_adapt_state n st).rxFreeze n

/-- Whether the receiver of channel n has been in its state for k clk_tm ticks. -/
def Dev.rxFor (d : Dev) (n k : Nat) : Bool := decide ((d.chan n).rxAt + k ≤ d.ticks)

/-- Whether LOS of channel n has kept its state for k clk_tm ticks. -/
def Dev.losFor (d : Dev) (n k : Nat) : Bool := decide ((d.chan n).losAt + k ≤ d.ticks)

/-- What the receiver of channel n hears: its input pins, or in near-end loopback its own transmitter (R46). -/
inductive RxSource where
  | pins | ownTx
deriving DecidableEq, Repr

def Dev.rxSource (d : Dev) (n : Nat) : RxSource := if d.get .CH_SDS_CTL_loopback n == 1 then .ownTx else .pins

/-- Whether the receive data of channel n is forced to zero, by LOS or by a receiver in OFF (R42, R44), or its own
transmitter, which it hears in near-end loopback, is off. -/
def Dev.rxZero (d : Dev) (n : Nat) : Bool :=
  d.bit .CH_SDS_STAT_los n || d.rx n == rxOff || (d.rxSource n == .ownTx && !d.bit .CH_SDS_STAT_tx_on n)

/-- Whether any member of channel n's unit delivers no received data. -/
def Dev.lineZero (d : Dev) (n : Nat) : Bool := (d.members n).any d.rxZero

/-- What the transmitter of channel n sends: nothing, a test pattern, the retimed received data of far-end loopback, or its
egress data (R45, R46). A pattern comes before far-end loopback (log entry 50). -/
inductive TxSignal where
  | off | pattern (code : Nat) | farEnd | egress
deriving DecidableEq, Repr

def Dev.txSignal (d : Dev) (n : Nat) : TxSignal :=
  if !d.bit .CH_SDS_STAT_tx_on n then .off
  else if d.get .CH_SDS_CTL_prbs_gen n != 0 then .pattern (d.get .CH_SDS_CTL_prbs_gen n)
  else if d.get .CH_SDS_CTL_loopback n == 2 then .farEnd else .egress

/-- The decoder of channel n's unit stops decoding: the running BER window counts neither way (R41). -/
def Dev.windowBroken (d : Dev) (n : Nat) : Dev :=
  let l := d.leader n
  d.setChan l { d.chan l with winValid := false }

/-- Preset taps (R42). -/
def Dev.presetTaps (d : Dev) (n : Nat) : Dev := d.setChan n { d.chan n with taps := [] }

/-- The receiver of channel n goes to CAL and calibrates from preset taps. -/
def Dev.rxCalibrate (d : Dev) (n : Nat) : Dev :=
  ((d.presetTaps n).rxGo n rxCal).set .CH_SDS_STAT_cdr_lock n 0

/-- The receiver of channel n goes to OFF. -/
def Dev.rxToOff (d : Dev) (n : Nat) : Dev :=
  ((d.rxGo n rxOff).set .CH_SDS_STAT_cdr_lock n 0).windowBroken n

/-- The conditions of R45 for the transmitter of channel n, and the root PLL it depends on (R23). -/
def Dev.txAllowed (d : Dev) (n : Nat) : Bool :=
  d.mode n != 0 && d.bit .GLB_READY_FN_root_pll 0 && !d.bit .CH_SDS_CTL_tx_disable n && d.bit .CH_SDS_STAT_quad_pll_lock n
    && d.pdOn (domQuad (quadOf n)) && d.pdOn (domSlice (sliceOf n)) && !d.sys.thermTripPin

/-- The transmitter of channel n follows R45 once the channel has been started; its egress frame clock starts and stops
with it (R419). -/
def Dev.txEval (d : Dev) (n : Nat) : Dev :=
  let on := (d.chan n).txStarted && d.txAllowed n
  (d.setB .CH_SDS_STAT_tx_on n on).setChan n { d.chan n with egressOn := on }

/-! ### The aligner with its unit (R60) -/

/-- The aligner's state beside its registers. -/
def Dev.aln (d : Dev) (l : Nat) : AlignerSt := (d.chan l).aln

/-- Store the aligner of channel l, with the slots shown in CH_ALN_CAND and live_slots, and the errored run. -/
def Dev.setAln (d : Dev) (l : Nat) (a : AlignerSt) : Dev :=
  let d := d.setChan l { d.chan l with aln := a }
  let d := (d.set .CH_ALN_STAT_err_run l (min a.errRun 15)).set .CH_ALN_STAT_live_slots l
    ((List.range 4).foldl (fun v k => v + if ((a.slots.getD k none).isSome) then 2 ^ k else 0) 0)
  (List.range 4).foldl (fun d k =>
    let i := l * 4 + k
    match a.slots.getD k none with
    | none => d.setWord .CH_ALN_CAND i 0
    | some c => (((((d.set .CH_ALN_CAND_pos i c.pos).set .CH_ALN_CAND_run i c.run).set .CH_ALN_CAND_live i 1).setB
        .CH_ALN_CAND_mimic i c.mimic).setB .CH_ALN_CAND_contender i c.contender).setB .CH_ALN_CAND_held i c.held) d

/-- Any state to OFF: slots freed, indications, integrators and flywheel cleared, no events (R60). -/
def Dev.alnOff (d : Dev) (l : Nat) : Dev := (d.setAln l .init).setWord .CH_ALN_STAT l 0

/-- The dLOF and dLOM integrators run or rest with the aligner's state, and so do the times for which INFRAME and MF_IN
persist (R64). -/
def Dev.alnIntegrate (d : Dev) (l : Nat) : Dev :=
  let a := d.aln l
  let st := d.get .CH_ALN_STAT_aln_state l
  let step (acc : Nat) (since : Option Nat) (go : Bool) : Nat × Option Nat :=
    match since, go with
    | none, true => (acc, some d.ticks)
    | some t, false => (acc + (d.ticks - t), none)
    | s, _ => (acc, s)
  let (fa, fs) := step a.lofAcc a.lofSince (d.bit .CH_ALN_STAT_oof l)
  let (ma, ms) := step a.lomAcc a.lomSince (d.bit .CH_ALN_STAT_oom l && st == 3)
  let keep (since : Option Nat) (go : Bool) : Option Nat := if go then some (since.getD d.ticks) else none
  d.setChan l { d.chan l with aln := { a with
    lofAcc := fa, lofSince := fs, lomAcc := ma, lomSince := ms
    lofOk := keep a.lofOk (st == 3), lomOk := keep a.lomOk (d.get .CH_ALN_STAT_mf_state l == 2) } }

/-- OFF to SEARCH when the unit enters RUN, for the formats that have an aligner (R51, R60). -/
def Dev.alnStart (d : Dev) (l : Nat) : Dev :=
  if isFramed (d.mode l) && d.get .CH_ALN_STAT_aln_state l == 0 then
    (((d.set .CH_ALN_STAT_aln_state l 1).set .CH_ALN_STAT_oof l 1).set .CH_ALN_STAT_oom l
      (d.get .CH_ALN_CTL_mf_mode l)).alnIntegrate l
  else d

/-! ### Start and stop of a line unit (R42, R48) -/

/-- Step 3 of R48 for one channel: the transmitter comes on; the receiver goes to CAL where R42 sends it there, and stays in
OFF in mode 0x00. -/
def Dev.chanUp (d : Dev) (n : Nat) : Dev :=
  let recal := (d.chan n).recal
  let d := (d.setChan n { d.chan n with txStarted := true, recal := false }).txEval n
  if d.mode n == 0 then d.rxToOff n else if d.rx n == rxOff || recal then d.rxCalibrate n else d

/-- A STARTING unit whose domains are on and whose quad PLLs are locked enters RUN (R48 step 3, R341). -/
def Dev.lineGo (d : Dev) (n : Nat) : Dev :=
  let l := d.leader n
  if d.lineUst l == 3 && (d.chan l).domReady && (d.unitQuads l).all d.quadLocked then
    let u := d.lineUnit l
    let d := (d.members l).foldl Dev.chanUp (d.setChan l { d.chan l with domReady := false })
    (d.reach u.cls u.idx 0).alnStart l
  else d

/-- The PLL of quad q loses lock (R42, R45): receivers to OFF, transmitters off, ready bit cleared. -/
def Dev.quadUnlock (d : Dev) (q : Nat) : Dev :=
  if d.quadLocked q then
    let d := d.raise 0x020E q
    let d := (List.range 4).foldl (fun d k =>
      let n := 4 * q + k
      (((d.set .CH_SDS_STAT_quad_pll_lock n 0).set .CH_SDS_EVT_quad_pll_unlock n 1).rxToOff n).txEval n) d
    d.readyQuad q false
  else d

/-- The quad of a started channel takes the family of its format, and relocks where the family changes (R30, R48). A PLL that
locked before any START has no family yet: the first START gives it its own without a relock, the spec not saying at which
family's frequency such a PLL locked (DESIGN CHOICE, log entry 51). -/
def Dev.quadFamily (d : Dev) (q : Nat) (nrz : Bool) : Dev :=
  match Table.find d.sys.quadNrz q with
  | some f =>
    if f == nrz then d
    else (d.quadUnlock q |> fun d => { d with sys := { d.sys with quadNrz := Table.ins d.sys.quadNrz q nrz } })
  | none => { d with sys := { d.sys with quadNrz := Table.ins d.sys.quadNrz q nrz } }

/-- The DTIME at which the BER window in progress began: windows are laid from each second boundary (R41). -/
def Dev.winBegin (d : Dev) (l : Nat) : Nat :=
  let win := d.get .CH_FEC_CTL_deg_win l * 10 ^ 7
  d.now / 10 ^ 9 * 10 ^ 9 + if win = 0 then 0 else d.now % 10 ^ 9 / win * win

/-- START of a line unit led by channel l (R48 step 1, R42): STARTING, until step 3, in mode 0x00 too; acq_retries count from
here, both FEC runs and the window restart (R41); the quads take the format's family. -/
def Dev.lineStart (d : Dev) (l : Nat) : Dev :=
  let u := d.lineUnit l
  let m := d.mode l
  let d := d.setChan l { d.chan l with
    degSetRun := 0, degClrRun := 0, winValid := false, winBits := 0, domReady := false, winAt := d.winBegin l }
  let d := (d.members l).foldl (fun d n => d.set .CH_SDS_STAT_acq_retries n 0) d
  let d := d.setUst u.cls u.idx 3
  if m == 0 then d else (d.unitQuads l).foldl (fun d q => d.quadFamily q (isNrz m)) d

/-! ### Meanings: start, PLL, receiver -/

/-- R48 step 2: a STARTING unit finds its domains on; with its PLLs locked it goes on to step 3. -/
def Dev.channelDomainsReady (d : Dev) (n : Nat) : Dev :=
  let l := d.leader n
  if d.lineUst l == 3 && d.unitDomains l then (d.setChan l { d.chan l with domReady := true }).lineGo l else d

def execChannelDomainsReady (n : Chan) (s : State) : Host.Outcome State Fault Refusal :=
  .next (s.onDev (·.channelDomainsReady n.val))

/-- R48 step 2, R42: the PLL of quad q locks: event 0x020D, the ready bit, waiting units go on, transmitters of started
channels return, receivers in OFF of RUN units go to CAL. -/
def Dev.quadPllLock (d : Dev) (q : Nat) : Dev :=
  if d.pdOn (domQuad q) && !d.quadLocked q then
    let d := (List.range 4).foldl (fun d k => d.set .CH_SDS_STAT_quad_pll_lock (4 * q + k) 1) d
    let d := (d.raise 0x020D q).readyQuad q true
    (List.range 4).foldl (fun d k =>
      let n := 4 * q + k
      let d := (d.txEval n).lineGo n
      if d.lineRun n && d.mode n != 0 && d.rx n == rxOff then d.rxCalibrate n else d) d
  else d

def execQuadPllUnlock (q : Quad) (s : State) : Host.Outcome State Fault Refusal :=
  .next (s.onDev (·.quadUnlock q.val))

/-- R42: calibration ends after 1 ms: ACQUIRE, or HOLD under LOS. -/
def Dev.rxCalDone (d : Dev) (n : Nat) : Dev :=
  if d.rx n == rxCal && d.rxFor n (msTicks 1) then d.rxGo n (if d.bit .CH_SDS_STAT_los n then rxHold else rxAcquire) else d

def execRxCalDone (n : Chan) (s : State) : Host.Outcome State Fault Refusal := .next (s.onDev (·.rxCalDone n.val))

/-- R42: ACQUIRE to TRACK once CDR lock and SNR have held for 1 ms, event 0x0204. -/
def Dev.rxTrack (d : Dev) (n snr : Nat) : Dev :=
  if d.rx n == rxAcquire && d.rxFor n (msTicks 1) then
    ((((d.rxGo n rxTracking).set .CH_SDS_STAT_cdr_lock n 1).set .CH_SDS_STAT_snr n snr).set
      .CH_SDS_EVT_track_reached n 1).raise 0x0204 n
  else d

def execRxTrack (n : Chan) (snr : BitVec 10) (s : State) : Host.Outcome State Fault Refusal :=
  .next (s.onDev (·.rxTrack n.val snr.toNat))

/-- The time of ACQUIRE without TRACK: 100 ms, 30 ms on NRZ (R42). -/
def Dev.acquireTime (d : Dev) (n : Nat) : Nat := msTicks (if isNrz (d.mode n) then 30 else 100)

/-- R42: ACQUIRE restarts from preset taps, event 0x0205. -/
def Dev.rxAcquireTimeout (d : Dev) (n : Nat) : Dev :=
  if d.rx n == rxAcquire && d.rxFor n (d.acquireTime n) then
    ((((d.presetTaps n).rxGo n rxAcquire).bump .CH_SDS_STAT_acq_retries n 1).set .CH_SDS_EVT_acq_timeout n 1).raise 0x0205 n
  else d

def execRxAcquireTimeout (n : Chan) (s : State) : Host.Outcome State Fault Refusal :=
  .next (s.onDev (·.rxAcquireTimeout n.val))

/-- R42: TRACK to ACQUIRE with a warm start, event 0x0203. -/
def Dev.cdrLockLost (d : Dev) (n : Nat) : Dev :=
  if d.rx n == rxTracking && !d.bit .CH_SDS_STAT_los n then
    ((((d.rxGo n rxAcquire).set .CH_SDS_STAT_cdr_lock n 0).set .CH_SDS_EVT_cdr_loss n 1).windowBroken n).raise 0x0203 n
  else d

def execCdrLockLost (n : Chan) (s : State) : Host.Outcome State Fault Refusal := .next (s.onDev (·.cdrLockLost n.val))

/-- Whether the receiver of channel n takes its input: its transmitter on, no reset (R410). -/
def Dev.rxTakes (d : Dev) (n : Nat) : Bool := d.bit .CH_SDS_STAT_tx_on n && !d.sys.held

/-- R44, R42: LOS is raised after 10 µs below los_thr, event 0x0201; ACQUIRE and TRACK go to HOLD. -/
def Dev.losSet (d : Dev) (n : Nat) : Dev :=
  if d.bit .CH_SDS_STAT_los n || !d.losFor n (usTicks 10) || !d.rxTakes n then d
  else
    let d := d.setChan n { d.chan n with losAt := d.ticks }
    let d := ((d.set .CH_SDS_STAT_los n 1).set .CH_SDS_EVT_los_set n 1).windowBroken n
    let d := if d.rx n == rxAcquire || d.rx n == rxTracking then (d.rxGo n rxHold).set .CH_SDS_STAT_cdr_lock n 0 else d
    d.raise 0x0201 n

def execLosSet (n : Chan) (s : State) : Host.Outcome State Fault Refusal := .next (s.onDev (·.losSet n.val))

/-- R44: LOS is cleared after 100 µs above los_thr + 3 dB, event 0x0202. -/
def Dev.losClear (d : Dev) (n : Nat) : Dev :=
  if d.bit .CH_SDS_STAT_los n && d.losFor n (usTicks 100) && d.rxTakes n then
    let d := d.setChan n { d.chan n with losAt := d.ticks }
    ((d.set .CH_SDS_STAT_los n 0).set .CH_SDS_EVT_los_clr n 1).raise 0x0202 n else d

def execLosClear (n : Chan) (s : State) : Host.Outcome State Fault Refusal := .next (s.onDev (·.losClear n.val))

/-- R42: LOS absent for 1 ms in HOLD: ACQUIRE with a warm start from the held taps. -/
def Dev.rxHoldExit (d : Dev) (n : Nat) : Dev :=
  if d.rx n == rxHold && !d.bit .CH_SDS_STAT_los n && d.losFor n (msTicks 1) then d.rxGo n rxAcquire else d

def execRxHoldExit (n : Chan) (s : State) : Host.Outcome State Fault Refusal := .next (s.onDev (·.rxHoldExit n.val))

/-- One tap moved by one step. -/
def moveTap (t : Table Int) (m : Nat × Bool) : Table Int :=
  Table.put t m.1 (Table.get t m.1 0 + if m.2 then 1 else -1) 0

/-- R43: taps move by one step in TRACK unless adapt_freeze is set, each at most once per 64 µs. In ACQUIRE they converge
(R42), by as many steps as the command has and whatever adapt_freeze says, which R49 gives to TRACK (DEDUCED, log entry
86). -/
def Dev.tapAdapt (d : Dev) (n : Nat) (moves : List (Nat × Bool)) : Dev :=
  if d.rx n == rxAcquire then d.setChan n { d.chan n with taps := moves.foldl moveTap (d.chan n).taps }
  else if d.rx n == rxTracking && !d.bit .CH_SDS_CTL_adapt_freeze n then
    let c := d.chan n
    let free (k : Nat) : Bool := match Table.find c.tapAt k with | some t => decide (t + usTicks 64 ≤ d.ticks) | none => true
    let once := moves.foldl (fun l m => if l.any (·.1 == m.1) || !free m.1 then l else l ++ [m]) []
    d.setChan n { c with taps := once.foldl moveTap c.taps, tapAt := once.foldl (fun t m => Table.ins t m.1 d.ticks) c.tapAt }
  else d

def execTapAdapt (n : Chan) (moves : List (Nat × Bool)) (s : State) : Host.Outcome State Fault Refusal :=
  .next (s.onDev (·.tapAdapt n.val moves))

/-! ### PCS and bonding (R34–R36) -/

/-- Formats whose PCS has an align_status: the multi-lane ones, and bonded FlexO, whose members copy bond_aligned (R34–R36). -/
def hasAlign (m : Nat) : Bool := isBonded m || m == 0x10 || m == 0x18

/-- Whether the PCS of channel n has the locks its format asks for: lane_lock, and align_status where the format has one. -/
def Dev.pcsUp (d : Dev) (n : Nat) : Bool :=
  d.bit .CH_PCS_STAT_lane_lock n && (!hasAlign (d.mode n) || d.bit .CH_PCS_STAT_align_status n)

/-- lane_lock of channel n, and its copy in its leader's member_lock. -/
def Dev.setLane (d : Dev) (n : Nat) (b : Bool) : Dev :=
  let l := d.leader n
  let d := d.setB .CH_PCS_STAT_lane_lock n b
  if isBonded (d.mode n) then d.setB ⟨.CH_BOND_STAT, 8 + (n - l), 1⟩ l b else d

/-- member_lock of the group that channel l leads, from lane_lock of its members (R49). -/
def Dev.memberLock (d : Dev) (l : Nat) : Dev :=
  if isBonded (d.mode l) && d.leader l == l then
    d.set .CH_BOND_STAT_member_lock l ((d.members l).foldl (fun v n =>
      v + if d.bit .CH_PCS_STAT_lane_lock n then 2 ^ (n - l) else 0) 0)
  else d

/-- align_status of channel n takes value b, with event 0x0206 on its fall and 0x0207 once the PCS is up. -/
def Dev.setAlign (d : Dev) (n : Nat) (b : Bool) : Dev :=
  if d.bit .CH_PCS_STAT_align_status n == b then d
  else
    let d := d.setB .CH_PCS_STAT_align_status n b
    if b then d.raiseIf (d.pcsUp n) 0x0207 n else d.raise 0x0206 n

/-- bond_aligned of leader l and its copies take value b, with event 0x020C (R34). -/
def Dev.setBond (d : Dev) (l : Nat) (b : Bool) : Dev :=
  let d := (d.setB .CH_BOND_STAT_bond_aligned l b).raise 0x020C (l + if b then 0x8000 else 0)
  (d.members l).foldl (fun d n => d.setAlign n b) d

/-- bond_aligned of the group led by l falls, where it was set. -/
def Dev.unbond (d : Dev) (l : Nat) : Dev :=
  if isBonded (d.mode l) && d.bit .CH_BOND_STAT_bond_aligned l then (d.setBond l false).windowBroken l else d

/-- R36: a lock of a format that has a PCS falls, event 0x0206; a member that loses lane_lock clears its group's
bond_aligned, which the members' align_status copies (R34). -/
def Dev.pcsLockLost (d : Dev) (n : Nat) (w : PcsLock) : Dev :=
  if !hasPcs (d.mode n) then d
  else match w with
  | .lane =>
    if d.bit .CH_PCS_STAT_lane_lock n then
      (((d.setLane n false).windowBroken n).raise 0x0206 n).unbond (d.leader n)
    else d
  | .align => if isBonded (d.mode n) || !hasAlign (d.mode n) then d else d.setAlign n false

def execPcsLockLost (n : Chan) (w : PcsLock) (s : State) : Host.Outcome State Fault Refusal :=
  .next (s.onDev (·.pcsLockLost n.val w))

/-- R35: a lock of a format that has a PCS rises; event 0x0207 once all the locks of the format are up. -/
def Dev.pcsLockRegained (d : Dev) (n : Nat) (w : PcsLock) : Dev :=
  if !hasPcs (d.mode n) then d
  else match w with
  | .lane =>
    if d.bit .CH_PCS_STAT_lane_lock n then d
    else
      let d := d.setLane n true
      d.raiseIf (d.pcsUp n) 0x0207 n
  | .align => if isBonded (d.mode n) || !hasAlign (d.mode n) then d else d.setAlign n true

def execPcsLockRegained (n : Chan) (w : PcsLock) (s : State) : Host.Outcome State Fault Refusal :=
  .next (s.onDev (·.pcsLockRegained n.val w))

/-- R35: hi_ber or hi_ser of an Ethernet or FlexE PHY channel changes, event 0x0208 with the new state in bit 15. -/
def Dev.hiBerChange (d : Dev) (n : Nat) (on : Bool) : Dev :=
  if !isEther (d.mode n) || d.bit .CH_PCS_STAT_hi_ber n == on then d
  else (d.setB .CH_PCS_STAT_hi_ber n on).raise 0x0208 (n + if on then 0x8000 else 0)

def execHiBerChange (n : Chan) (on : Bool) (s : State) : Host.Outcome State Fault Refusal :=
  .next (s.onDev (·.hiBerChange n.val on))

/-- R36: whether the PCS of channel n's unit delivers local fault in place of received data. -/
def Dev.localFault (d : Dev) (n : Nat) : Bool :=
  isEther (d.mode n)
    && ((d.members n).any (fun c => !d.pcsUp c || d.bit .CH_PCS_STAT_hi_ber c) || d.lineZero n)

/-- The measured skew of the group led by l (R34). -/
def Dev.setSkew (d : Dev) (l skew : Nat) : Dev :=
  (d.set .CH_BOND_STAT_skew_max l skew).setB .CH_BOND_STAT_skew_over l (deskewCap (d.mode l) < skew)

/-- Whether every member of the group has lane_lock. -/
def Dev.membersLocked (d : Dev) (l : Nat) : Bool := (d.members l).all (fun n => d.bit .CH_PCS_STAT_lane_lock n)

/-- R34: with lane_lock on every member, the skew is measured; within the capacity the group deskews and bond_aligned
rises, beyond it bond_aligned falls. -/
def Dev.bondAlignedSet (d : Dev) (n skew : Nat) : Dev :=
  let l := d.leader n
  if isBonded (d.mode l) && d.membersLocked l then
    let d := d.setSkew l skew
    if deskewCap (d.mode l) < skew then d.unbond l
    else if d.bit .CH_BOND_STAT_bond_aligned l then d else d.setBond l true
  else d

def execBondAlignedSet (n : Chan) (skew : BitVec 16) (s : State) : Host.Outcome State Fault Refusal :=
  .next (s.onDev (·.bondAlignedSet n.val skew.toNat))

/-- R34: bond_aligned falls where a member has lost lock or the skew exceeds the capacity. -/
def Dev.bondAlignedClear (d : Dev) (n skew : Nat) : Dev :=
  let l := d.leader n
  if isBonded (d.mode l) then
    let d := d.setSkew l skew
    if !d.membersLocked l || deskewCap (d.mode l) < skew then d.unbond l else d
  else d

def execBondAlignedClear (n : Chan) (skew : BitVec 16) (s : State) : Host.Outcome State Fault Refusal :=
  .next (s.onDev (·.bondAlignedClear n.val skew.toNat))

/-! ### FEC (R37–R41) -/

/-- Whether the decoder of channel n's unit is decoding (R38, R41): under GFEC from INFRAME, else from PCS lock. -/
def Dev.decoding (d : Dev) (n : Nat) : Bool :=
  let l := d.leader n
  let m := d.mode l
  d.get .CH_FEC_CTL_fec_mode l != 0 && !d.lineZero l
    && (if isGfec m then d.get .CH_ALN_STAT_aln_state l == 3
        else (isFlexO m || isEther m) && d.membersLocked l
          && (!isBonded m || d.bit .CH_BOND_STAT_bond_aligned l))

/-- A 32-bit count that saturates (R40). -/
def sat32 (n : Nat) : Nat := min n (2 ^ 32 - 1)

/-- The counts after a codeword with `tot` symbols and `bits` bits in error (R39, R40). -/
def FecCount.codeword (c : FecCount) (lim tot bits : Nat) : FecCount :=
  if tot ≤ lim then
    { c with cw := c.cw + 1, csym := c.csym + tot, cbit := c.cbit + bits
             hist := c.hist.set tot (sat32 (c.hist.getD tot 0 + 1)) }
  else { c with cw := c.cw + 1, unc := sat32 (c.unc + 1) }

/-- R39, R40: a codeword ends. In a bond group the leader's fec_mode, err_ind_bypass and degrade settings govern the group,
the spec not saying which member's apply where they differ (DESIGN CHOICE, log entry 52). Counts stay with the leader, the
symbols of each lane with its member; an uncorrectable
codeword raises event 0x020B once per second and, on Ethernet without bypass, marks its blocks, whose number among the
80 blocks of a codeword the manual does not state (log entry 2). -/
def Dev.fecCodeword (d : Dev) (n : Nat) (laneErrs : List Nat) (bits : Nat) : Dev :=
  let l := d.leader n
  let m := d.mode l
  if d.decoding l then
    let tot := laneErrs.foldl (· + ·) 0
    let lim := fecLimit m
    let c := d.chan l
    let d := d.setChan l { c with fec := c.fec.codeword lim tot bits
                                  winBits := c.winBits + if tot ≤ lim then bits else 0 }
    if tot ≤ lim then
      (List.range (d.groupSize l)).foldl (fun d k =>
        let c := d.chan (l + k)
        d.setChan (l + k) { c with fec := { c.fec with lsym := sat32 (c.fec.lsym + laneErrs.getD k 0) } }) d
    else
      let d := d.raise1 0x020B l l
      if isEther m && !d.bit .CH_PCS_CTL_err_ind_bypass l then
        let (w, d) := d.draw
        d.bump .CH_PCS_ERRBLK_err_blocks l (w.toNat % 81)
      else d
  else d

def execFecCodeword (n : Chan) (laneErrs : List Nat) (bits : Nat) (s : State) : Host.Outcome State Fault Refusal :=
  .next (s.onDev (·.fecCodeword n.val laneErrs bits))

/-- Copy one channel's background counts into its snapshot registers and restart them (R40). -/
def Dev.snapCopy (d : Dev) (n : Nat) : Dev :=
  let c := (d.chan n).fec
  let d := ((((((d.set .CH_FEC_CW_LO_cw_lo n c.cw).set .CH_FEC_CW_HI_cw_hi n (c.cw / 2 ^ 32)).set
    .CH_FEC_CSYM_LO_csym_lo n c.csym).set .CH_FEC_CSYM_HI_csym_hi n (c.csym / 2 ^ 32)).set
    .CH_FEC_CBIT_LO_cbit_lo n c.cbit).set .CH_FEC_CBIT_HI_cbit_hi n (c.cbit / 2 ^ 32)).set .CH_FEC_UNC_unc n c.unc
  let d := (List.range 16).foldl (fun d k => d.set .CH_FEC_HIST_hist (n * 16 + k) (c.hist.getD k 0))
    (d.set .CH_FEC_LSYM_lsym n c.lsym)
  d.setChan n { d.chan n with fec := .init }

/-- clk_tm ticks for which snap_busy is 1: 10, within the 41 ns of R40 item 4 (DESIGN CHOICE, log entry 53). -/
def snapTicks : Nat := 10

/-- A snapshot of channel n begins: the counts are copied and snap_busy rises; a request that meets a snapshot in progress
is served by it (R40 item 4). -/
def Dev.snapOne (d : Dev) (n : Nat) : Dev :=
  if d.bit .CH_FEC_SNAP_snap_busy n then d
  else
    let d := (d.snapCopy n).set .CH_FEC_SNAP_snap_busy n 1
    d.setChan n { d.chan n with snapEnd := some (d.ticks + snapTicks) }

/-- The snapshot of channel n in progress ends once its time is over: snap_busy returns to 0 (R40 item 4). -/
def Dev.fecSnapDone (d : Dev) (n : Nat) : Dev :=
  match (d.chan n).snapEnd with
  | some t => if t ≤ d.ticks then (d.set .CH_FEC_SNAP_snap_busy n 0).setChan n { d.chan n with snapEnd := none } else d
  | none => d.set .CH_FEC_SNAP_snap_busy n 0

/-- A snapshot of channel n: of its whole group on a leader, of its own lane count on another member. -/
def Dev.fecSnap (d : Dev) (n : Nat) : Dev :=
  if d.leader n == n then (d.members n).foldl Dev.snapOne d else d.snapOne n

def execFecSnap (n : Chan) (s : State) : Host.Outcome State Fault Refusal := .next (s.onDev (·.fecSnap n.val))

/-- R40: the automatic snapshot at a second boundary. -/
def Dev.fecSnapSecond (d : Dev) (n : Nat) : Dev :=
  if d.bit .CH_FEC_CTL_snap_1s n then d.fecSnap n else d

def execFecSnapSecond (n : Chan) (s : State) : Host.Outcome State Fault Refusal :=
  .next (s.onDev (·.fecSnapSecond n.val))

/-- Leading digit and exponent of c/b, truncated; 0 and 0 below 10^−15 (CH_FEC_STAT). -/
def berDigits (c b : Nat) : Nat × Nat :=
  match (List.range 16).find? (fun e => decide (b ≤ c * 10 ^ e)) with
  | some e => if b = 0 then (0, 0) else (min (c * 10 ^ e / b) 9, e)
  | none => (0, 0)

/-- fec_deg takes value b, with event 0x0209 or 0x020A on a change (R41). -/
def Dev.setFecDeg (d : Dev) (l : Nat) (b : Bool) : Dev :=
  if d.bit .CH_FEC_STAT_fec_deg l == b then d
  else (d.setB .CH_FEC_STAT_fec_deg l b).raise (if b then 0x0209 else 0x020A) l

/-- The length in ns of the BER window of channel l that began at DTIME `at_` (R41). -/
def Dev.winLen (d : Dev) (l at_ : Nat) : Nat := min (d.get .CH_FEC_CTL_deg_win l * 10 ^ 7) (10 ^ 9 - at_ % 10 ^ 9)

/-- Whether the BER window of channel l has ended: its time is over, or DTIME has stepped to before its start. -/
def Dev.winOver (d : Dev) (l : Nat) : Bool :=
  let a := (d.chan l).winAt
  decide (a + d.winLen l a ≤ d.now) || decide (d.now < a)

/-- The next window begins where this one ends. -/
def Dev.nextWindow (d : Dev) (l : Nat) : Dev :=
  d.setChan l { d.chan l with winBits := 0, winValid := d.decoding l, winAt := d.winBegin l }

/-- R41: a window of a RUN unit ends and is judged by exact counts; fec_deg follows completed runs. A window in which the
decoder is not decoding leaves ber_m and ber_e at the last judged window's digits, and so does a COMMIT that discards the
counts, the spec not saying what they show then (DESIGN CHOICE, log entry 87). -/
def Dev.fecDegWindow (d : Dev) (n : Nat) : Dev :=
  let l := d.leader n
  let c := d.chan l
  if !d.winOver l then d
  else if !d.lineRun l then d.nextWindow l
  else if !c.winValid then (d.setChan l { c with degSetRun := 0, degClrRun := 0 }).nextWindow l
  else
    let bits := laneKbps (d.mode l) * d.groupSize l * d.winLen l c.winAt / 10 ^ 6
    let above := decide (d.get .CH_FEC_DEGTHR_set_m l * bits < c.winBits * 10 ^ d.get .CH_FEC_DEGTHR_set_e l)
    let below := decide (c.winBits * 10 ^ d.get .CH_FEC_DEGTHR_clr_e l < d.get .CH_FEC_DEGTHR_clr_m l * bits)
    let (m, e) := berDigits c.winBits bits
    let up := if above then c.degSetRun + 1 else 0
    let dn := if below then c.degClrRun + 1 else 0
    let d := (d.set .CH_FEC_STAT_ber_m l m).set .CH_FEC_STAT_ber_e l e
    let d := d.setChan l { c with degSetRun := up, degClrRun := dn }
    let d := if above && d.get .CH_FEC_CTL_deg_set_n l ≤ up then d.setFecDeg l true
      else if below && d.get .CH_FEC_CTL_deg_clr_n l ≤ dn then d.setFecDeg l false else d
    d.nextWindow l

def execFecDegWindow (n : Chan) (s : State) : Host.Outcome State Fault Refusal :=
  .next (s.onDev (·.fecDegWindow n.val))

/-- R40 item 6 and R41: a COMMIT that changes mode, bond_size or fec_mode discards counts, snapshots and fec_deg. -/
def Dev.fecDiscard (d : Dev) (n : Nat) : Dev :=
  (((d.setChan n { d.chan n with fec := .init }).snapCopy n).setFecDeg n false).windowBroken n

/-! ### Commits, loss of the root PLL, and what a tick brings -/

/-- A COMMIT that changes mode or bond_size of channel n: the PCS of the new format has no lock yet, and the group it had is
dissolved: lane_lock, align_status, hi_ber and bond_aligned fall with their events, CH_BOND_STAT reads 0 until the new
group measures (R34, R36; DEDUCED, log entry 54); err_blocks is 0 outside Ethernet formats (R49). `l` is the leader of the group that channel n was in. -/
def Dev.pcsRenew (d : Dev) (n l : Nat) : Dev :=
  let d := if d.bit .CH_BOND_STAT_bond_aligned l then (d.set .CH_BOND_STAT_bond_aligned l 0).raise 0x020C l else d
  let d := (d.setWord .CH_BOND_STAT l 0).setWord .CH_BOND_STAT n 0
  let was := d.bit .CH_PCS_STAT_lane_lock n || d.bit .CH_PCS_STAT_align_status n
  let d := ((d.set .CH_PCS_STAT_lane_lock n 0).set .CH_PCS_STAT_align_status n 0).raiseIf was 0x0206 n
  let ber := d.bit .CH_PCS_STAT_hi_ber n
  let d := if isEther (d.mode n) then d else d.set .CH_PCS_ERRBLK_err_blocks n 0
  (d.setWord .CH_PCS_STAT n 0).raiseIf ber 0x0208 n

/-- Every transmitter follows the root PLL's ready bit (R23, R45). -/
def Dev.txAll (d : Dev) (l : List Nat) : Dev := l.foldl Dev.txEval d

/-- Line bits that channel n receives in one clk_tm tick, rounded up (R29). -/
def tickBits (m : Nat) : Nat := (laneKbps m * 4 + 999999) / 1000000

/-- A tick of the line stage at channel n. The pattern checker of a tracking receiver counts bit errors, and an Ethernet PCS
with lane_lock reports received local and remote fault and counts errored blocks: what the line brings is free, within
what one tick can hold (R36, R46; log entry 43). A snapshot in progress ends (R40). -/
def Dev.lineTick (d : Dev) (n : Nat) : Dev :=
  let d := if d.get .CH_SDS_CTL_prbs_chk n != 0 && d.rx n == rxTracking then
      let (w, d) := d.draw
      d.bump .CH_SDS_PRBS_ERR_prbs_err n (w.toNat % (tickBits (d.mode n) + 1))
    else d
  let d := if isEther (d.mode n) && d.bit .CH_PCS_STAT_lane_lock n then
      let (w, d) := d.draw
      let d := (d.set .CH_PCS_STAT_lf_rx n (w.toNat % 2)).set .CH_PCS_STAT_rf_rx n (w.toNat / 2 % 2)
      d.bump .CH_PCS_ERRBLK_err_blocks n (w.toNat / 4 % ((tickBits (d.mode n) + 65) / 66 + 1))
    else (d.set .CH_PCS_STAT_lf_rx n 0).set .CH_PCS_STAT_rf_rx n 0
  if d.bit .CH_FEC_SNAP_snap_busy n then d.fecSnapDone n else d

end Sys2Proof.Machine
end

