-- ==== Sys2Proof/Machine/Align.lean ====
section
/-!
DEFINITION. Frame and multiframe alignment (chapter 03).
-/
namespace Sys2Proof.Machine

/-! ### Formats and settings (R51, R54) -/

/-- Whether channel n has no aligner of its own: Ethernet and FlexE PHY channels, and the members of a bond group but its
leader; its aligner registers read 0 (R51). -/
def Dev.noAligner (d : Dev) (n : Nat) : Bool := isEther (d.mode n) || d.leader n != n

/-- Frame period in bits (R51). -/
def framePeriod (m : Nat) : Nat := if m == 0x01 then 1244160 else if isFlexO m then 696320 else 130560

/-- N: conf_n or the format default (R51, R56). -/
def Dev.alnN (d : Dev) (l : Nat) : Nat :=
  let v := d.get .CH_ALN_CTL_conf_n l
  if v = 0 then 2 else v

/-- M: lose_m or the format default (R51, R57). -/
def Dev.alnM (d : Dev) (l : Nat) : Nat :=
  let v := d.get .CH_ALN_CTL_lose_m l
  if v = 0 then (if d.mode l == 0x01 then 4 else 5) else v

/-- The aligner's state: 0 OFF, 1 SEARCH, 2 TIE, 3 INFRAME. -/
def Dev.alnState (d : Dev) (l : Nat) : Nat := d.get .CH_ALN_STAT_aln_state l

/-- Whether verification by the MFAS increment applies: OTN formats with mfas_verify (R55), and not with N = 1 (R56). -/
def Dev.alnVerify (d : Dev) (l : Nat) : Bool :=
  isGfec (d.mode l) && d.bit .CH_ALN_CTL_mfas_verify l && decide (1 < d.alnN l)

/-- Whether the line stage delivers no data to the aligner: LOS or an idle receiver, loss of lane_lock on FlexO, or of
bond_aligned (R42, R53). -/
def Dev.noData (d : Dev) (l : Nat) : Bool :=
  d.lineZero l || (isFlexO (d.mode l) && !d.membersLocked l)
    || (isBonded (d.mode l) && !d.bit .CH_BOND_STAT_bond_aligned l)

/-! ### Patterns (R54) -/

/-- FAS bytes 1–6, and the last three A1 with the first three A2 bytes (G.709, G.707). -/
def patBytes : List Byte := [0xF6, 0xF6, 0xF6, 0x28, 0x28, 0x28]

/-- The number of bits in which two bytes differ. -/
def byteDiff (a b : Byte) : Nat := ((List.range 8).filter (fun i => (a ^^^ b).getLsbD i)).length

/-- The differing bits of six received bytes over bytes lo to lo + n − 1 of the pattern. -/
def patDiff (rx : List Byte) (lo n : Nat) : Nat :=
  (List.range n).foldl (fun v i => v + byteDiff (byteAt rx (lo + i)) (byteAt patBytes (lo + i))) 0

/-- The differing bits at a frame position, over the width of cmp_width: 48 bits, or the middle 16 (R54). On FlexO the PCS
reports a marker or none, and none is more than any tolerance (R67). -/
def Dev.patErr (d : Dev) (l : Nat) (rx : List Byte) : Nat :=
  if isFlexO (d.mode l) then (if rx.isEmpty then 48 else 0)
  else if d.bit .CH_ALN_CTL_cmp_width l then patDiff rx 2 2 else patDiff rx 0 6

/-- The slot at index k. -/
def AlignerSt.slot (a : AlignerSt) (k : Nat) : Option CandSlot := a.slots.getD k none
/-- The aligner with slot k replaced. -/
def AlignerSt.put (a : AlignerSt) (k : Nat) (c : Option CandSlot) : AlignerSt :=
  { a with slots := (List.range 4).map (fun j => if j = k then c else a.slot j) }
/-- Every live slot changed by f. -/
def AlignerSt.each (a : AlignerSt) (f : CandSlot → CandSlot) : AlignerSt :=
  { a with slots := a.slots.map (Option.map f) }
/-- The live slots with their indices. -/
def AlignerSt.live (a : AlignerSt) : List (Nat × CandSlot) :=
  (List.range 4).filterMap (fun k => (a.slot k).map (k, ·))

/-- A newly opened candidate (R55). -/
def Dev.newCand (d : Dev) (l pos : Nat) (mfas : Byte) : CandSlot :=
  { pos := pos, run := 1, mfas := mfas, mimic := false, contender := false, held := false, opened := d.dtime,
    heldOk := d.alnState l == 3 && (d.aln l).errRun == 0, parity := 0, due := true, alone := false }

/-- The earliest opened of the slots that may be evicted: run 1, neither held nor a contender (R55). -/
def AlignerSt.victim (a : AlignerSt) : Option Nat :=
  (a.live.filter (fun e => e.2.run == 1 && !e.2.held && !e.2.contender)).foldl
    (fun (b : Option (Nat × CandSlot)) e =>
      match b with
      | none => some e
      | some c => if e.2.opened.toNat < c.2.opened.toNat then some e else some c) none |>.map (·.1)

/-! ### Candidates (R55–R59, R67) -/

/-- R55: an exact match at a position no slot holds opens a candidate in the lowest free slot (which of the free ones the spec does
not say: DESIGN CHOICE, log entry 109), evicts one, or is ignored; on FlexO a new lock
position frees the single candidate or held position (R67); one that held INFRAME stays INFRAME until its errored ticks end it
(DESIGN CHOICE, log entry 97). -/
def Dev.patternMatch (d : Dev) (n pos : Nat) (pat : List Byte) (mfas : Byte) : Dev :=
  let l := d.leader n
  let a := d.aln l
  let p := pos % framePeriod (d.mode l)
  if d.alnState l == 0 || d.noData l || d.patErr l pat != 0 || a.live.any (fun e => e.2.pos == p) then d
  else
    let c := d.newCand l p mfas
    if isFlexO (d.mode l) then
      (d.setAln l { a with slots := [some c, none, none, none] }).bump .CH_ALN_CAND_CNT_cand_cnt l 1
    else match (List.range 4).find? (fun k => (a.slot k).isNone) with
      | some k => (d.setAln l (a.put k (some c))).bump .CH_ALN_CAND_CNT_cand_cnt l 1
      | none => match a.victim with
        | some k => ((d.setAln l (a.put k (some c))).bump .CH_ALN_EVICT_CNT_evict_cnt l 1).bump
            .CH_ALN_CAND_CNT_cand_cnt l 1
        | none => d.bump .CH_ALN_EVICT_CNT_full_cnt l 1

def execPatternMatch (n : Chan) (pos : BitVec 21) (pat : List Byte) (mfas : Byte) (s : State) :
    Host.Outcome State Fault Refusal :=
  .next (s.onDev (·.patternMatch n.val pos.toNat pat mfas))

/-- R55: a candidate is checked; the slot that holds the INFRAME frame is checked by R57 instead. A contender of TIE gains
where the parity byte computed on its framing equals the received one, and is noted as matching alone where no other
contender is left (R59). -/
def Dev.candidateCheck (d : Dev) (n k : Nat) (pat : List Byte) (mfas par rcv : Byte) : Dev :=
  let l := d.leader n
  let a := d.aln l
  match a.slot k with
  | none => d
  | some c =>
    if c.held then d
    else if d.patErr l pat != 0 || d.noData l then d.setAln l (a.put k none)
    else
      let run := min (c.run + 1) 15
      if d.alnVerify l && 2 ≤ run && mfas != c.mfas + 1 then
        (d.setAln l (a.put k none)).bump .CH_ALN_VFAIL_CNT_vfail_cnt l 1
      else
        let alone := c.contender && !a.live.any (fun e => e.1 != k && e.2.contender)
        d.setAln l (a.put k (some { c with run := run, mfas := mfas, due := true, alone := alone
                                           parity := c.parity + if c.contender && par == rcv then 1 else 0 }))

def execCandidateCheck (n : Chan) (k : Fin 4) (pat : List Byte) (mfas par rcv : Byte) (s : State) :
    Host.Outcome State Fault Refusal :=
  .next (s.onDev (·.candidateCheck n.val k.val pat mfas par rcv))

/-- Entry to INFRAME at slot k (R60, R62): the clock is rephased to it, so the next tick ends a shortened or lengthened
period; the others become shadows, and one that has not reached N yet, and that the held frame has matched as long as, may
still be flagged (R58); the multiframe machine starts. -/
def Dev.enterInframe (d : Dev) (l k : Nat) : Dev :=
  let a := d.aln l
  match a.slot k with
  | none => d
  | some w =>
    let p := framePeriod (d.mode l)
    let a := a.each (fun c => { c with
      pos := (c.pos + p - w.pos % p) % p, contender := false, parity := 0, alone := false
      heldOk := decide (c.run ≤ w.run ∧ c.run < d.alnN l) })
    let a := { a.put k (some { w with pos := 0, contender := false, held := true, parity := 0, alone := false }) with
      errRun := 0, entered := true }
    let mf := d.bit .CH_ALN_CTL_mf_mode l
    let a := if mf then { a with mfRun := if d.alnVerify l then d.alnN l - 1 else 0, mfMiss := 0, prevMf := some w.mfas }
      else a
    let d := (((d.setAln l a).set .CH_ALN_STAT_aln_state l 3).set .CH_ALN_STAT_oof l 0).setB .CH_ALN_STAT_mf_state l mf
    let d := ((d.alnIntegrate l).bump .CH_ALN_ACQ_CNT_acq_cnt l 1).set .CH_ALN_EVT_inframe l 1
    d.raiseUpTo 16 0x0302 l l

/-- Entry to TIE with the slots that satisfy p as contenders (R56, R60). -/
def Dev.enterTie (d : Dev) (l : Nat) (p : Nat → CandSlot → Bool) : Dev :=
  let a := d.aln l
  let slots := (List.range 4).map (fun k => (a.slot k).map (fun c => { c with contender := p k c, parity := 0, alone := false }))
  let d := (d.setAln l { a with slots := slots, tieLeft := d.get .CH_ALN_CTL_tie_ext l }).set .CH_ALN_STAT_aln_state l 2
  ((d.bump .CH_ALN_TIE_CNT_tie_cnt l 1).set .CH_ALN_EVT_tie l 1).raise 0x0309 l

/-- R56: slot k qualifies: in SEARCH the aligner enters TIE or INFRAME; in TIE the slot joins the contenders (R59). On
FlexO there is no contention (R67). -/
def Dev.candidateQualify (d : Dev) (n k : Nat) : Dev :=
  let l := d.leader n
  let a := d.aln l
  match a.slot k with
  | none => d
  | some c =>
    if c.run < d.alnN l || !c.due then d
    else if d.alnState l == 1 then
      let rival (j : Nat) (x : CandSlot) : Bool := j != k && decide (max (d.alnN l - 1) 1 ≤ x.run)
      if isFlexO (d.mode l) then d.enterInframe l k
      else if a.live.any (fun e => rival e.1 e.2) then d.enterTie l (fun j x => j == k || rival j x)
      else if c.mimic then d.enterTie l (fun j _ => j == k)
      else d.enterInframe l k
    else if d.alnState l == 2 && !c.contender then
      d.setAln l ((a.each (fun x => { x with alone := false })).put k
        (some { c with contender := true, parity := 0, alone := false }))
    else d

def execCandidateQualify (n : Chan) (k : Fin 4) (s : State) : Host.Outcome State Fault Refusal :=
  .next (s.onDev (·.candidateQualify n.val k.val))

/-- R58: a shadow that has reached N while the held frame matched throughout is flagged; event 0x030B. -/
def Dev.mimicFlagged (d : Dev) (n k : Nat) : Dev :=
  let l := d.leader n
  let a := d.aln l
  match a.slot k with
  | none => d
  | some c =>
    if d.alnState l == 3 && !c.held && !c.mimic && c.heldOk && decide (d.alnN l ≤ c.run) then
      let d := ((d.setAln l (a.put k (some { c with mimic := true }))).set .CH_ALN_MIMIC_mimic_pos l c.pos).bump
        .CH_ALN_MIMIC_CNT_mimic_cnt l 1
      (d.set .CH_ALN_EVT_mimic l 1).raise 0x030B l
    else d

def execMimicFlagged (n : Chan) (k : Fin 4) (s : State) : Host.Outcome State Fault Refusal :=
  .next (s.onDev (·.mimicFlagged n.val k.val))

/-- Whether contender x comes before y by the first two keys of R59. -/
def tieBetter (x y : CandSlot) : Bool := (!x.mimic && y.mimic) || (x.mimic == y.mimic && decide (y.parity < x.parity))

/-- The winner among the contenders by the three keys of R59, and whether the third decided. -/
def tieWinner (l : List (Nat × CandSlot)) : Option (Nat × Bool) :=
  let top := l.filter (fun e => !l.any (fun o => tieBetter o.2 e.2))
  match top with
  | [] => none
  | [e] => some (e.1, false)
  | e :: r =>
    some ((r.foldl (fun b x => if x.2.opened.toNat < b.2.opened.toNat then x else b) e).1, true)

/-- R59: TIE ends by no contender, by a single unflagged one at its next match, or by tie_ext frames. -/
def Dev.tieEnd (d : Dev) (n : Nat) : Dev :=
  let l := d.leader n
  let a := d.aln l
  if d.alnState l == 2 then
    match a.live.filter (fun e => e.2.contender) with
    | [] => (d.set .CH_ALN_STAT_aln_state l 1).alnIntegrate l
    | [e] => if (!e.2.mimic && e.2.alone) || a.tieLeft == 0 then d.enterInframe l e.1 else d
    | cs =>
      if a.tieLeft == 0 then
        match tieWinner cs with
        | none => d
        | some (k, third) =>
          let d := if third then (d.bump .CH_ALN_TIE_CNT_tie_order_cnt l 1).raise 0x030A l else d
          d.enterInframe l k
      else d
  else d

def execTieEnd (n : Chan) (s : State) : Host.Outcome State Fault Refusal := .next (s.onDev (·.tieEnd n.val))

/-! ### The frame tick (R52, R53, R57, R62) -/

/-- The received multiframe value meets the machine of R62; the flywheel has already advanced. -/
def Dev.mfTick (d : Dev) (l : Nat) (rcv : Byte) : Dev :=
  let a := d.aln l
  let a' := { a with prevMf := some rcv }
  match d.get .CH_ALN_STAT_mf_state l with
  | 1 =>
    let next := match a.prevMf with | some p => rcv == p + 1 | none => false
    d.setAln l { a' with mfRun := if next then a.mfRun + 1 else 0 }
  | 2 =>
    if rcv.toNat == d.get .CH_ALN_STAT_flywheel l then d.setAln l { a' with mfMiss := 0 }
    else (d.setAln l { a' with mfMiss := a.mfMiss + 1 }).bump .CH_ALN_MFERR_CNT_mferr_cnt l 1
  | _ => d.setAln l a'

/-- The aligner's part of a frame tick: flywheel, in-frame check, multiframe machine, TIE timer. -/
def Dev.alnTick (d : Dev) (l : Nat) (rx : FrameRx) : Dev :=
  let st := d.alnState l
  if st == 0 then d
  else
    let d := d.wrap .CH_ALN_STAT_flywheel l 1
    let d := d.setAln l { d.aln l with entered := false }
    if st == 3 then
      let err := d.noData l || decide (d.get .CH_ALN_CTL_loss_tol l < d.patErr l rx.pat)
      let a := d.aln l
      let d :=
        if err then
          (d.setAln l ({ a with errRun := a.errRun + 1 }.each (fun c => { c with heldOk := false }))).bump
            .CH_ALN_ERRFRM_CNT_errfrm_cnt l 1
        else d.setAln l { a with errRun := 0 }
      if d.bit .CH_ALN_CTL_mf_mode l then d.mfTick l rx.mf else d
    else if st == 2 then
      let a := d.aln l
      d.setAln l { a with tieLeft := a.tieLeft - 1 }
    else d

/-! ### Loss, multiframe and integrated defects (R60–R64) -/

/-- R60: the M-th consecutive errored frame: SEARCH, the held slot freed, shadows kept, multiframe machine to MF_OFF; where
that leaves MF_IN, CH_ALN_EVT.oom_set says so (R69). -/
def Dev.oof (d : Dev) (n : Nat) : Dev :=
  let l := d.leader n
  let a := d.aln l
  if d.alnState l == 3 && decide (d.alnM l ≤ a.errRun) then
    let slots := a.slots.map (fun o => match o with
      | some c => if c.held then none else some { c with due := false }
      | none => none)
    let d := (d.setAln l { a with slots := slots, errRun := 0, mfRun := 0, mfMiss := 0, entered := false }).windowBroken l
    let d := if d.get .CH_ALN_STAT_mf_state l == 2 then d.set .CH_ALN_EVT_oom_set l 1 else d
    let d := (((d.set .CH_ALN_STAT_aln_state l 1).set .CH_ALN_STAT_oof l 1).set .CH_ALN_STAT_mf_state l 0).set
      .CH_ALN_STAT_oom l (d.get .CH_ALN_CTL_mf_mode l)
    let d := ((d.alnIntegrate l).bump .CH_ALN_OOF_CNT_oof_cnt l 1).set .CH_ALN_EVT_oof_set l 1
    d.raiseUpTo 16 0x0301 l l
  else d

def execOof (n : Chan) (s : State) : Host.Outcome State Fault Refusal := .next (s.onDev (·.oof n.val))

/-- R62: MF_SEARCH to MF_IN; the flywheel takes the received value where it differed (event 0x030C, then 0x0306). -/
def Dev.mfRegain (d : Dev) (n : Nat) : Dev :=
  let l := d.leader n
  let a := d.aln l
  if d.alnState l == 3 && d.get .CH_ALN_STAT_mf_state l == 1 && decide (d.get .CH_ALN_CTL_mf_confirm l ≤ a.mfRun) then
    let r := (a.prevMf.getD 0).toNat
    let stepped := d.get .CH_ALN_STAT_flywheel l != r
    let d := (((d.setAln l { a with mfMiss := 0 }).set .CH_ALN_STAT_mf_state l 2).set .CH_ALN_STAT_oom l 0).alnIntegrate l
    let d := (d.set .CH_ALN_STAT_flywheel l r).set .CH_ALN_EVT_mf_regain l 1
    (d.raiseIf stepped 0x030C l).raise 0x0306 l
  else d

/-- Whether MF_REGAIN steps the flywheel's phase: the received value differs (R62, event 0x030C). -/
def Dev.mfStepped (d : Dev) (n : Nat) : Bool :=
  let l := d.leader n
  let a := d.aln l
  d.alnState l == 3 && d.get .CH_ALN_STAT_mf_state l == 1 && decide (d.get .CH_ALN_CTL_mf_confirm l ≤ a.mfRun)
    && d.get .CH_ALN_STAT_flywheel l != (a.prevMf.getD 0).toNat

/-- R62: MF_IN to MF_SEARCH; OOM; event 0x0305. -/
def Dev.mfLoss (d : Dev) (n : Nat) : Dev :=
  let l := d.leader n
  let a := d.aln l
  if d.get .CH_ALN_STAT_mf_state l == 2 && decide (d.get .CH_ALN_CTL_mf_lose l ≤ a.mfMiss) then
    let d := (((d.setAln l { a with mfRun := 0, mfMiss := 0 }).set .CH_ALN_STAT_mf_state l 1).set
      .CH_ALN_STAT_oom l 1).alnIntegrate l
    (d.set .CH_ALN_EVT_oom_set l 1).raise 0x0305 l
  else d

def execMfLoss (n : Chan) (s : State) : Host.Outcome State Fault Refusal := .next (s.onDev (·.mfLoss n.val))

/-- dLOM of channel l takes value b, with its event on a change. -/
def Dev.setDlom (d : Dev) (l : Nat) (b : Bool) : Dev :=
  if d.bit .CH_ALN_STAT_dlom l == b then d
  else ((d.setB .CH_ALN_STAT_dlom l b).set .CH_ALN_EVT_dlom_chg l 1).raise (if b then 0x0307 else 0x0308) l

/-- dLOF of channel l takes value b, with its event on a change. -/
def Dev.setDlof (d : Dev) (l : Nat) (b : Bool) : Dev :=
  if d.bit .CH_ALN_STAT_dlof l == b then d
  else ((d.setB .CH_ALN_STAT_dlof l b).set .CH_ALN_EVT_dlof_chg l 1).raise (if b then 0x0303 else 0x0304) l

/-- What an integrator has reached: what it had, and the time for which it runs now (R64). -/
def reached (acc : Nat) (since : Option Nat) (now : Nat) : Nat := acc + match since with | some t => now - t | none => 0

/-- Whether a condition that holds since a tick has persisted for n ticks. -/
def persisted (since : Option Nat) (now n : Nat) : Bool := match since with | some t => decide (t + n ≤ now) | none => false

/-- A time of CH_ALN_TIME in clk_tm ticks: units of 0.1 ms (R64). -/
def Dev.alnTime (d : Dev) (l : Nat) (f : Fld) : Nat := usTicks (100 * d.get f l)

/-- Whether the dLOF and dLOM integrators have reached lof_set and lom_set, and INFRAME and MF_IN have persisted for lof_clr
and lom_clr (R64). -/
def Dev.lofReached (d : Dev) (l : Nat) : Bool :=
  d.bit .CH_ALN_STAT_oof l
    && decide (d.alnTime l .CH_ALN_TIME_lof_set ≤ reached (d.aln l).lofAcc (d.aln l).lofSince d.ticks)
def Dev.lomReached (d : Dev) (l : Nat) : Bool :=
  d.bit .CH_ALN_STAT_oom l && d.alnState l == 3
    && decide (d.alnTime l .CH_ALN_TIME_lom_set ≤ reached (d.aln l).lomAcc (d.aln l).lomSince d.ticks)
def Dev.lofPersists (d : Dev) (l : Nat) : Bool :=
  d.alnState l == 3 && persisted (d.aln l).lofOk d.ticks (d.alnTime l .CH_ALN_TIME_lof_clr)
def Dev.lomPersists (d : Dev) (l : Nat) : Bool :=
  d.get .CH_ALN_STAT_mf_state l == 2 && persisted (d.aln l).lomOk d.ticks (d.alnTime l .CH_ALN_TIME_lom_clr)

/-- The dLOM integrator returns to 0 (R64). -/
def Dev.lomZero (d : Dev) (l : Nat) : Dev :=
  let a := d.aln l
  d.setAln l { a with lomAcc := 0, lomSince := a.lomSince.map (fun _ => d.ticks) }

/-- R64: the dLOF integrator, which advances while oof = 1, reaches lof_set; dLOM is cleared with its integrator. -/
def Dev.dlofDeclare (d : Dev) (n : Nat) : Dev :=
  let l := d.leader n
  if d.lofReached l then ((d.setDlof l true).setDlom l false).lomZero l else d

def execDlofDeclare (n : Chan) (s : State) : Host.Outcome State Fault Refusal := .next (s.onDev (·.dlofDeclare n.val))

/-- R64: INFRAME has persisted for lof_clr: dLOF clears and its integrator returns to 0. -/
def Dev.dlofClear (d : Dev) (n : Nat) : Dev :=
  let l := d.leader n
  if d.lofPersists l then (d.setAln l { d.aln l with lofAcc := 0 }).setDlof l false else d

def execDlofClear (n : Chan) (s : State) : Host.Outcome State Fault Refusal := .next (s.onDev (·.dlofClear n.val))

/-- R64: the dLOM integrator, which advances while OOM = 1 in INFRAME, reaches lom_set. -/
def Dev.dlomDeclare (d : Dev) (n : Nat) : Dev :=
  let l := d.leader n
  if d.lomReached l then d.setDlom l true else d

def execDlomDeclare (n : Chan) (s : State) : Host.Outcome State Fault Refusal := .next (s.onDev (·.dlomDeclare n.val))

/-- R64: MF_IN has persisted for lom_clr: dLOM clears and its integrator returns to 0. -/
def Dev.dlomClear (d : Dev) (n : Nat) : Dev :=
  let l := d.leader n
  if d.lomPersists l then (d.lomZero l).setDlom l false else d

def execDlomClear (n : Chan) (s : State) : Host.Outcome State Fault Refusal := .next (s.onDev (·.dlomClear n.val))

end Sys2Proof.Machine
end

