-- ==== Sys2Proof/Machine/Overhead.lean ====
section
/-!
DEFINITION. Overhead sources (chapter 04): register banks, rates and home heats, snapshots, hardware PM counts, the
creation of tasks, fault causes, consequent actions, and what egress frames carry.
-/
namespace Sys2Proof.Machine

/-! ### Sources

A source is numbered k: channel n or bond leader n is n, tributary t is 192 + t (R121). -/

/-- The number of a source. -/
def srcKey : Src → Nat
  | .chan n => n.val
  | .trib t => 192 + t.val

/-- Whether source k is a tributary. -/
def isTribSrc (k : Nat) : Bool := 192 ≤ k
/-- The index of source k among its kind. -/
def srcIdx (k : Nat) : Nat := if k < 192 then k else k - 192

/-- The tributary's register of the same place in its ODU block (R96). -/
def oduBank : Reg → Reg
  | .CH_OH_CTL => .ODU_OH_CTL | .CH_OH_XSEL => .ODU_OH_XSEL | .CH_OH_FAIL_TIME => .ODU_OH_FAIL_TIME
  | .CH_OH_LVL_CTL => .ODU_OH_LVL_CTL | .CH_OH_DEGTHR => .ODU_OH_DEGTHR | .CH_OH_DEF => .ODU_OH_DEF
  | .CH_OH_FAIL => .ODU_OH_FAIL | .CH_OH_ACC => .ODU_OH_ACC | .CH_OH_ACT => .ODU_OH_ACT
  | .CH_OH_EVT => .ODU_OH_EVT | .CH_OH_LAST => .ODU_OH_LAST | .CH_OH_TTI_EXP => .ODU_OH_TTI_EXP
  | .CH_OH_TTI_ACC => .ODU_OH_TTI_ACC | .CH_OH_TTI_TX => .ODU_OH_TTI_TX | .CH_PM_CTL => .ODU_PM_CTL
  | .CH_PM_SEC => .ODU_PM_SEC | r => r

/-- A field of the source's bank. -/
def ohFld (k : Nat) (f : Fld) : Fld := if k < 192 then f else { f with reg := oduBank f.reg }

/-- A field of source k in a register with `dim` words per source, word `sub`. -/
def Dev.og (d : Dev) (k : Nat) (f : Fld) (dim : Nat := 1) (sub : Nat := 0) : Nat := d.get (ohFld k f) (srcIdx k * dim + sub)
/-- Set a field of source k. -/
def Dev.oset (d : Dev) (k : Nat) (f : Fld) (v : Nat) (dim : Nat := 1) (sub : Nat := 0) : Dev :=
  d.set (ohFld k f) (srcIdx k * dim + sub) v

/-- The level mode of level l: 0 TRANSPARENT, 1 MONITOR, 2 OPERATIONAL (R75); a tributary has no level 0 (R71). -/
def Dev.lvlMode (d : Dev) (k l : Nat) : Nat :=
  if isTribSrc k && l == 0 then 0 else d.og k .CH_OH_LVL_CTL_lvl_mode 8 l

/-- Whether a level is monitored: not TRANSPARENT. -/
def Dev.monitored (d : Dev) (k l : Nat) : Bool := d.lvlMode k l != 0

/-- Bit `code` of the defects of level l. -/
def Dev.defBit (d : Dev) (k l code : Nat) : Bool := (d.og k .CH_OH_DEF_def 8 l).testBit code
/-- Bit `code` of the failures of level l. -/
def Dev.failBit (d : Dev) (k l code : Nat) : Bool := (d.og k .CH_OH_FAIL_fail 8 l).testBit code

/-- aTSF, aTSD of level l as published. -/
def Dev.atsf (d : Dev) (k l : Nat) : Bool := (d.og k .CH_OH_ACT_atsf).testBit l
def Dev.atsd (d : Dev) (k l : Nat) : Bool := (d.og k .CH_OH_ACT_atsd).testBit l

/-- The event argument of a source and level (R97). -/
def ohArg (k l : Nat) : Nat := srcIdx k + (if isTribSrc k then 4096 else 0) + l * 8192

/-! ### Tributary facts (R124, R135, R150) -/

/-- The indices at which register r differs from reset: the only ones where a field whose reset value is 0 may be set. -/
def Dev.listed (d : Dev) (r : Reg) : List Nat :=
  d.regs.filterMap (fun e => if e.1 / 2 ^ 20 = r.ctorIdx then some (e.1 % 2 ^ 20) else none)

/-- The kind of tributary t: 0 NONE, 1 ODU0, 2 ODU2, 3 ODU2e, 4 ODU4, 5 ODUflex(IMP). -/
def Dev.kind (d : Dev) (t : Nat) : Nat := d.get .ODU_CFG_kind t

/-- The lowest set bit of a mask below 32. -/
def lowBit (m : Nat) : Nat := ((List.range 32).find? (fun b => m.testBit b)).getD 0

/-- The channel that carries FlexE client x of its slice: the lowest-numbered PHY of its group (R135). -/
def Dev.flexeCarrier (d : Dev) (x : Nat) : Nat :=
  let s := x / 32
  24 * s + lowBit (d.get .SL_FLXE_GRP0_phys (s * 8 + d.get .SL_FLXE_CLI0_grp x))

/-- The channel that carries tributary t: its server, or its client's channel (R135). -/
def Dev.carrier (d : Dev) (t : Nat) : Nat :=
  if !d.bit .ODU_CFG_srv_none t then d.get .ODU_CFG_srv_ch t
  else if d.bit .ODU_MAP_client_kind t then d.flexeCarrier (d.get .ODU_MAP_client t)
  else d.get .ODU_MAP_client t

/-- The home heat of source k (R102). -/
def Dev.homeHeat (d : Dev) (k : Nat) : Nat := (if isTribSrc k then d.carrier (srcIdx k) else d.leader k) / 12 % 16

/-- The frame of a channel format as (bits, bit/s): its quotient is the frame period (R51, R29). -/
def chanFrame (m : Nat) : Nat × Nat :=
  if m == 0x01 then (1244160, 9953280000) else if isFlexO m then (65536, 10000000000) else (130560, laneKbps m * 1000)

/-- The frame of a tributary kind as (bits, bit/s) (R124): 122,368 bits at the nominal rate. -/
def kindFrame (kind s : Nat) : Nat × Nat :=
  match kind with
  | 1 => (122368, 1244160000) | 2 => (122368, 10037300000) | 3 => (122368, 10399500000)
  | 4 => (122368, 104794000000) | _ => (122368 * 238, s * 5156250000 * 239)

/-- The frame of source k as (bits, bit/s). -/
def Dev.srcFrame (d : Dev) (k : Nat) : Nat × Nat :=
  if isTribSrc k then kindFrame (d.kind (srcIdx k)) (d.get .ODU_CFG_flex_s (srcIdx k)) else chanFrame (d.mode k)

/-- The frame period of a frame in clk_tm ticks, to the nearest tick (R100). -/
def framePeriodTicks (f : Nat × Nat) : Nat := if f.2 = 0 then 0 else (f.1 * 250000000 + f.2 / 2) / f.2

/-- Whether the unit of source k is RUN (R101). -/
def Dev.srcRun (d : Dev) (k : Nat) : Bool :=
  if isTribSrc k then d.running .trib (srcIdx k) && d.kind (srcIdx k) != 0 else d.leader k == k && isFramed (d.mode k) && d.lineRun k

/-- Whether source k is an STM-64 channel. -/
def Dev.isStm (d : Dev) (k : Nat) : Bool := !isTribSrc k && d.mode k == 0x01

/-- tr_state of tributary t: 0 FREE, 1 HELD, 2 ACQUIRING, 3 LIVE. -/
def Dev.trState (d : Dev) (t : Nat) : Nat := d.get .ODU_STAT_tr_state t

/-- The index of channel n among the slice arrays of 24 places: 24s + p is n itself. -/
def slIdx (n : Nat) : Nat := n

/-! ### Protection members and where a group's output appears (R209–R211, R219) -/

/-- The source number of member k of group g. -/
def Dev.memberSrc (d : Dev) (g k : Nat) : Nat :=
  let m := d.get .PRT_GRP_MEM_member (g * 16 + k)
  if d.bit .PRT_GRP_CFG_level g then m else 192 + m

/-- The member places of group g: 0 protection, 1 to n working. -/
def Dev.memberPlaces (d : Dev) (g : Nat) : List Nat := List.range (d.get .PRT_GRP_CFG_n g + 1)

/-- The enabled groups that hold source k as a member, with its place. -/
def Dev.groupsOf (d : Dev) (k : Nat) : List (Nat × Nat) :=
  (d.listed .PRT_GRP_CFG).flatMap (fun g =>
    if d.bit .PRT_GRP_CFG_en g then
      (d.memberPlaces g).filterMap (fun j => if d.memberSrc g j = k then some (g, j) else none)
    else [])

/-- Whether group g bridges permanently: 1+1 (R219). -/
def Dev.onePlusOne (d : Dev) (g : Nat) : Bool := d.get .PRT_GRP_CFG_type g < 2

/-- The source whose signal stands at source k's place behind the selectors (R211): the protection member where k is the
working member that a 1:1 or 1:N group, or a channel-level group of MUX or MAP members, serves from protection; else k. -/
def Dev.carried (d : Dev) (k : Nat) : Nat :=
  match (d.groupsOf k).find? (fun e =>
      e.2 != 0 && d.get .PRT_GRP_STAT_sel_sig e.1 == e.2
        && (!d.onePlusOne e.1 || (!isTribSrc k && d.get .SL_SRV_CTL_pay_mode k != 0))) with
  | some e => d.memberSrc e.1 0
  | none => k

/-- The places at which the signal of source k stands. -/
def Dev.carriedBy (d : Dev) (k : Nat) : List Nat :=
  (k :: (d.groupsOf k).flatMap (fun e =>
    if e.2 = 0 then ((d.memberPlaces e.1).drop 1).map (d.memberSrc e.1) else [])).filter (fun j => d.carried j == k)

/-- The working member whose source a 1:1 or 1:N group bridges to its protection member k (R219). -/
def Dev.bridgedTo (d : Dev) (k : Nat) : Option Nat :=
  ((d.groupsOf k).find? (fun e =>
      e.2 == 0 && !d.onePlusOne e.1 && d.get .PRT_GRP_STAT_br_sig e.1 != 0)).map (fun e =>
    d.memberSrc e.1 (d.get .PRT_GRP_STAT_br_sig e.1))

/-- The channel whose signal the server place of tributary t holds. -/
def Dev.srvSignal (d : Dev) (t : Nat) : Nat := d.carried (d.get .ODU_CFG_srv_ch t)

/-! ### Snapshots (R72, R73) -/

/-- Snapshot bytes 0–1: source index and kind. -/
def Dev.srcWord (d : Dev) (k : Nat) : Nat := srcIdx k + (if isTribSrc k then 1 else if d.isStm k then 2 else 0) * 4096

/-- The indications of a frame tick. -/
structure TickInfo where
  inFrame : Bool
  mfValid : Bool
  fly : Nat
  ssfIn : Bool
  noData : Bool
deriving DecidableEq, Repr

/-- Whether snapshot byte i is a field of source k taken from the received frame: bytes 8–47, less the selected bytes, OMFI
outside an ODU4 multiplex, what STM-64 does not have, and SM on a tributary (R73). -/
def Dev.snapCarries (d : Dev) (k i : Nat) : Bool :=
  if i < 8 || 48 ≤ i || (43 ≤ i && i < 47) then false
  else if d.isStm k && (i == 11 || (17 ≤ i && i < 43)) then false
  else if isTribSrc k && 12 ≤ i && i < 15 then false
  else if i == 47 then !isTribSrc k && d.mode k == 0x08 && d.get .SL_SRV_CTL_pay_mode k == 2
  else true

/-- The overhead byte that selector j of CH_OH_XSEL copies to snapshot byte 43 + j: 0 where it is disabled (R96). -/
def Dev.selected (d : Dev) (k j : Nat) (rx : FrameRx) : Byte :=
  if d.og k ⟨.CH_OH_XSEL, 8 * j + 7, 1⟩ == 0 then 0 else byteAt rx.oh (d.og k ⟨.CH_OH_XSEL, 8 * j, 6⟩)

/-- The byte of a received frame at snapshot byte i; a tributary has no SM violations in byte 8. -/
def rxByte (k i : Nat) (rx : FrameRx) : Byte :=
  let b := byteAt rx.bytes i
  if i == 8 && isTribSrc k then b &&& 0xF0 else b

/-- The OPU payload area of an ODU frame: columns 17 to 3824 of its four rows of 3,824 bytes, bytes not given being 0 (R225). -/
def opuPayload (frame : List Byte) : List Byte :=
  let f := frame ++ List.replicate (15296 - frame.length) 0
  (List.range 4).flatMap (fun r => (f.drop (3824 * r + 16)).take 3808)

/-- The payload signature of a frame of source k (R73): the CRC-32C of its OPU payload area (R225). Of an STM-64 or FlexO
frame, which has no such area, it is as extraction gives it. -/
def Dev.rxSig (d : Dev) (k : Nat) (rx : FrameRx) : Word :=
  if d.isStm k || (!isTribSrc k && isFlexO (d.mode k)) then BitVec.ofNat 32 (leField rx.bytes 48 4)
  else crc32c (opuPayload rx.frame)

/-- The 64 bytes of the snapshot of a tick. -/
def Dev.snapshot (d : Dev) (k : Nat) (t : TickInfo) (rx : FrameRx) (seq : BitVec 16) : List Byte :=
  let w := d.srcWord k
  let sig := if t.inFrame then (d.rxSig k rx).toNat else 0
  let flag (b : Bool) (i : Nat) : Nat := if b then 2 ^ i else 0
  let pat := (byteAt rx.bytes 3).toNat
  let b3 := flag t.inFrame 0 + flag t.mfValid 1 + flag (rx.pn11 && !d.isStm k) 2
    + (if t.inFrame && !d.isStm k then pat / 8 % 8 * 8 else 0) + flag t.ssfIn 6 + flag t.noData 7
  (List.range 64).map (fun i =>
    if i < 2 then BitVec.ofNat 8 (w / 256 ^ i)
    else if i == 2 then BitVec.ofNat 8 (if d.isStm k then 0 else t.fly)
    else if i == 3 then BitVec.ofNat 8 b3
    else if i < 8 then BitVec.ofNat 8 (d.now / 256 ^ (i - 4))
    else if i == 52 || i == 53 then BitVec.ofNat 8 (seq.toNat / 256 ^ (i - 52))
    else if t.inFrame && 43 ≤ i && i < 47 then d.selected k (i - 43) rx
    else if 48 ≤ i && i < 52 then BitVec.ofNat 8 (sig / 256 ^ (i - 48))
    else if t.inFrame && d.snapCarries k i then rxByte k i rx else 0)

/-- Violations of level l in a snapshot (R73). -/
def violations (stm : Bool) (snap : List Byte) (l : Nat) : Nat :=
  if stm then (if l = 0 then (byteAt snap 8).toNat else if l = 1 then leField snap 9 2 else 0)
  else if l = 0 then (byteAt snap 8).toNat % 16
  else if l = 1 then (byteAt snap 8).toNat / 16
  else leField snap 9 3 / 16 ^ (l - 2) % 16

/-- The overhead byte 3 of level l on OTN (BEI/BIAE, BDI, STAT or IAE; G.709), with SM for level 0 (R73). -/
def byte3 (snap : List Byte) (l : Nat) : Nat :=
  (byteAt snap (if l = 0 then 14 else if l = 1 then 17 else 18 + 3 * (l - 2) + 2)).toNat

/-- The trail-trace byte of level l (byte 1 of SM, PM or TCMi; J0 on STM-64). -/
def ttiByte (snap : List Byte) (l : Nat) : Byte :=
  byteAt snap (if l = 0 then 12 else if l = 1 then 15 else 18 + 3 * (l - 2))

/-- in_frame of a snapshot. -/
def snapInFrame (snap : List Byte) : Bool := (byteAt snap 3).toNat.testBit 0

/-! ### Hardware PM counts (R74, R91) -/

/-- Where a tick begins a new DTIME second, the counts of the second before become those to close, and a P2 is due; at
a new 10 ms period an evaluation is due (R98). -/
def Dev.pmRoll (d : Dev) (k : Nat) : Dev :=
  let o := d.oh k
  let o := if o.second = d.second then o
    else { o with pmPrev := o.pm, pmSec := o.second, pm := [], second := d.second, p2Due := true }
  let ten := d.now / 10 ^ 7
  d.setOh k (if o.tenMs = ten then o else { o with tenMs := ten, tenDue := true })

/-- One tick counted at level l: an errored block on any violation, and on a tick out of frame (R84, R91). -/
def PmSt.tick (p : PmSt) (inFrame : Bool) (viol : Nat) : PmSt :=
  { p with frames := p.frames + 1, neBip := p.neBip + if inFrame then viol else 0
           neEb := p.neEb + if inFrame && viol == 0 then 0 else 1 }

/-- Hardware near-end counts of one tick at every monitored level. -/
def Dev.pmCount (d : Dev) (k : Nat) (snap : List Byte) : Dev :=
  let o := d.oh k
  let pm := (List.range 8).foldl (fun pm l =>
    if d.monitored k l then
      Table.put pm l ((Table.get pm l .init).tick (snapInFrame snap) (violations (d.isStm k) snap l)) .init
    else pm) o.pm
  d.setOh k { o with pm := pm }

/-! ### Task creation (R98, R101, R110, R113, R114) -/

/-- The home queue h is served (STR_MAPS.served). -/
def Dev.served (d : Dev) (h : Nat) : Bool := (d.get .STR_MAPS_served 0).testBit h

/-- The lowest shed state the force and the thermal shedding allow (R110, R389). -/
def Dev.shedFloor (d : Dev) : Nat :=
  if d.bit .GLB_THERM_STAT_therm 0 || 2 ≤ d.get .STR_CTL_shed_force 0 then 2
  else if d.get .STR_CTL_shed_force 0 == 1 then 1 else 0

/-- The shed state of queue h rises to at least v: event 0x0502 (R110). -/
def Dev.shedRaise (d : Dev) (h v : Nat) : Dev :=
  if v ≤ d.get .STR_HEAT_STAT_shed_state h then d
  else ((d.set .STR_HEAT_STAT_shed_state h v).set .STR_HEAT_EVT_shed_chg h 1).raise 0x0502 (h + v * 256)

/-- The shed state that an occupancy asks for under the thresholds in force. -/
def HeatSt.shedFor (q : HeatSt) (occ : Nat) : Nat :=
  if max q.lvl2 q.lvl3 ≤ occ then 2 else if q.lvl3 ≤ occ then 1 else 0

/-- The queue of heat h replaced, with q_occ and q_max. -/
def Dev.setQueue (d : Dev) (h : Nat) (q : List Task) : Dev :=
  let d := (d.setHeat h { d.heat h with queue := q }).set .STR_HEAT_STAT_q_occ h q.length
  d.set .STR_HEAT_QMAX_q_max h (max (d.get .STR_HEAT_QMAX_q_max h) q.length)

/-- A task of home heat h is lost (R113). -/
def Dev.taskLost (d : Dev) (h : Nat) : Dev :=
  ((d.bump .STR_HEAT_LOST_lost_cnt h 1).set .STR_HEAT_EVT_lost h 1).raise1 0x0506 h h

/-- Count a created task in its second. -/
def Dev.countTask (d : Dev) : Dev :=
  if d.sys.tasksSecond = d.second then { d with sys := { d.sys with tasksNow := d.sys.tasksNow + 1 } }
  else { d with sys := { d.sys with tasksNow := 1, tasksSecond := d.second } }

/-- STR_TASKS_SEC takes the tasks of the DTIME second that has ended, which may be none. -/
def Dev.showTasks (d : Dev) (second : Nat) : Dev :=
  d.set .STR_TASKS_SEC_tasks 0 (if d.sys.tasksSecond = second then d.sys.tasksNow else 0)

/-- The counts of a second marked incomplete at every level (R93). -/
def pmMiss (t : Table PmSt) : Table PmSt :=
  (List.range 8).foldl (fun t l => Table.put t l { Table.get t l .init with incomplete := true } .init) t

/-- A second of source k is incomplete (R93). -/
def Dev.secondMissed (d : Dev) (k second : Nat) : Dev :=
  let o := d.oh k
  d.setOh k (if second = o.second then { o with pm := pmMiss o.pm } else { o with pmPrev := pmMiss o.pmPrev })

/-- A frame of source k that no task evaluates (R93, R113): its second is incomplete, its dDEG windows are not judged. -/
def Dev.frameMissed (d : Dev) (k second : Nat) : Dev :=
  let o := d.oh k
  let deg := (List.range 8).foldl (fun t l => Table.put t l { Table.get t l .init with valid := false } .init) o.deg
  d.setOh k (if second = o.second then { o with pm := pmMiss o.pm, deg := deg } else { o with pmPrev := pmMiss o.pmPrev })

/-- The PSI multiframes that end with a frame of source k, by server (R139). -/
def Dev.psiEnded (d : Dev) (k : Nat) : Table (List Byte) :=
  if isTribSrc k then []
  else (d.carriedBy k).filterMap (fun n => if (d.server n).psiDone.isEmpty then none else some (n, (d.server n).psiDone))

/-- The frame task of a snapshot (R98): none without firmware, RUN and a monitored level (R101); lost where the home
queue is unserved or full (R113). Work that is due stays due until a task carries it. -/
def Dev.createTask (d : Dev) (k : Nat) (snap : List Byte) (rdi : Bool) : Dev :=
  let h := d.homeHeat k
  if !d.srcRun k || !(List.range 8).any (d.monitored k) || !d.pdOn (domSlice (h / 2)) then d
  else if !d.bit .GLB_READY_FN_stride_fw 0 then d.frameMissed k d.second
  else
    let d := d.countTask
    let q := (d.heat h).queue
    if !d.served h || 1024 ≤ q.length then (d.frameMissed k d.second).taskLost h
    else
      let o := d.oh k
      let t : Task :=
        { src := k, parts := if o.p2Due then [0, 1, 2, 3] else [0, 1, 3], secondClose := o.p2Due, tenMs := o.tenDue
          home := h, born := d.dtime, seq := o.seq, period := framePeriodTicks (d.srcFrame k), snap := snap
          gen := o.gen, rdi := rdi, psi := d.psiEnded k }
      let d := (d.setOh k { o with p2Due := false, tenDue := false }).setQueue h (q ++ [t])
      d.shedRaise h ((d.heat h).shedFor (q.length + 1))

/-- The part of a frame tick that overhead extraction does for source k: sequence number, snapshot, hardware counts, the
last snapshot in frame, and the task. -/
def Dev.extract (d : Dev) (k : Nat) (t : TickInfo) (rx : FrameRx) : Dev :=
  let o := d.oh k
  let seq := o.seq + 1
  let d := (d.setOh k { o with seq := seq, noData := t.noData, inFrame := t.inFrame }).pmRoll k
  let snap := d.snapshot k t rx seq
  let d := if t.inFrame then
      (List.range 16).foldl (fun d w => d.oset k .CH_OH_LAST_snap (leField snap (4 * w) 4) 16 w) d
    else d
  (d.pmCount k snap).createTask k snap rx.rdi

/-! ### Consequent actions (R86) -/

/-- dMSIM on tributary t's slots, as learned from its server's accepted MSI (R139). -/
def Dev.tribMsim (d : Dev) (t : Nat) : Bool := (d.trib t).msim

/-- ssf_in of tributary t: its server's aTSF at the HO ODU path level as published (R73, R86). -/
def Dev.ssfIn (d : Dev) (t : Nat) : Bool :=
  !d.bit .ODU_CFG_srv_none t && d.atsf (d.srvSignal t) 1

/-- dLOOMFI of the server of tributary t. -/
def Dev.tribLoomfi (d : Dev) (t : Nat) : Bool :=
  !d.bit .ODU_CFG_srv_none t && d.bit .SL_SRV_STAT_loomfi (slIdx (d.get .ODU_CFG_srv_ch t))

/-- dPLM of the server of tributary t. -/
def Dev.tribPlm (d : Dev) (t : Nat) : Bool := !d.bit .ODU_CFG_srv_none t && d.defBit (d.srvSignal t) 1 13

/-- The server term of a level of source k (R86): on a channel aTSF of level 0 for the levels above it; on a tributary
ssf_in of the snapshot that its P0 took (R90), dLOOMFI, dMSIM, tr_state not LIVE or dLOFLOM. -/
def Dev.serverTerm (d : Dev) (k l : Nat) (atsf0 : Bool) : Bool :=
  if isTribSrc k then
    let t := srcIdx k
    (d.oh k).ssfIn || d.tribLoomfi t || d.tribMsim t || d.trState t != 3 || d.defBit k 1 16
  else l != 0 && atsf0

/-- Whether TIM acts at level l. -/
def Dev.timActs (d : Dev) (k l : Nat) : Bool := d.defBit k l 8 && d.og k .CH_OH_LVL_CTL_tim_act 8 l != 0

/-- aTSF of level l (R86). -/
def Dev.deriveTsf (d : Dev) (k l : Nat) (atsf0 : Bool) : Bool :=
  d.monitored k l &&
    (if l == 0 then
      d.defBit k 0 0 || d.defBit k 0 1 || d.defBit k 0 2 || d.defBit k 0 4 || d.timActs k 0
    else
      d.serverTerm k l atsf0 || d.defBit k l 4 || d.defBit k l 5 || d.defBit k l 6
        || (d.defBit k l 7 && d.og k .CH_OH_LVL_CTL_ltc_act 8 l != 0) || d.timActs k l)

/-- aTSD of level l (R86). -/
def Dev.deriveTsd (d : Dev) (k l : Nat) : Bool :=
  d.monitored k l && (d.defBit k l 12 || (l == 0 && d.defBit k 0 3 && d.og k .CH_OH_CTL_fdeg_sd != 0))

/-- A mask over the eight levels. -/
def lvlMask (f : Nat → Bool) : Nat := (List.range 8).foldl (fun v l => v + if f l then 2 ^ l else 0) 0

/-- The defects of level l that mask other causes: LOS, LOF, LOM, AIS, LCK, OCI, LTC (R85). -/
def Dev.signalGone (d : Dev) (k l : Nat) : Bool :=
  [0, 1, 2, 4, 5, 6, 7].any (d.defBit k l)

/-- The fault cause of a defect after the correlation of G.798 and G.783 (R85, R86). -/
def Dev.causeOf (d : Dev) (k l code : Nat) (atsf0 : Bool) : Bool :=
  let srv := d.serverTerm k l atsf0
  let ais := d.defBit k l 4
  d.defBit k l code &&
    match code with
    | 0 => true
    | 1 => !d.defBit k l 0 && !ais
    | 2 => !d.defBit k l 0 && !d.defBit k l 1 && !ais
    | 3 => !d.defBit k l 0
    | 4 => if l == 0 then !d.defBit k 0 0 else !srv
    | 5 => !srv
    | 6 => !srv
    | 7 => !srv
    | 8 => !srv && !d.signalGone k l
    | 13 => !(d.deriveTsf k 1 atsf0)
    | 14 => !(if isTribSrc k then (d.oh k).ssfIn else d.deriveTsf k 1 atsf0) && !d.defBit k 1 13
    | 15 => !(d.deriveTsf k 1 atsf0) && !d.defBit k 1 13
    | 16 => !(d.oh k).ssfIn && !d.tribLoomfi (srcIdx k) && !d.tribMsim (srcIdx k) && !d.tribPlm (srcIdx k)
    | _ => !srv && !d.signalGone k l && !d.timActs k l

/-- Record the transitions of every fault cause of the source with the DTIME of their frame (R85). -/
def Dev.trackCauses (d : Dev) (k : Nat) (atsf0 : Bool) : Dev :=
  let o := d.oh k
  let cs := (List.range 8).foldl (fun cs l =>
    if d.og k .CH_OH_DEF_def 8 l == 0 && d.og k .CH_OH_FAIL_fail 8 l == 0 && !cs.any (fun e => e.1 / 32 == l) then cs
    else (List.range 21).foldl (fun cs c =>
      let now := d.causeOf k l c atsf0
      let i := 32 * l + c
      if (Table.get cs i ⟨false, 0⟩).present == now then cs else Table.ins cs i ⟨now, o.born⟩) cs) o.causes
  d.setOh k { o with causes := cs }

/-- Publish the consequent actions of source k (R86): aTSF, aTSD, BDI, aSSF, and the fault causes. -/
def Dev.actions (d : Dev) (k : Nat) : Dev :=
  let tsf0 := d.deriveTsf k 0 false
  let tsf := lvlMask (fun l => d.deriveTsf k l tsf0)
  let tsd := lvlMask (d.deriveTsd k)
  let bdi := lvlMask (fun l => d.lvlMode k l == 2 && (tsf.testBit l || d.og k .CH_OH_LVL_CTL_bdi_force 8 l != 0))
  let ssf := tsf.testBit 1 || [13, 14, 15, 16].any (d.defBit k 1)
  ((((d.oset k .CH_OH_ACT_atsf tsf).oset k .CH_OH_ACT_atsd tsd).oset k .CH_OH_ACT_abdi bdi).oset k .CH_OH_ACT_assf
    (if ssf then 1 else 0)).trackCauses k tsf0

/-- aAIS of source k: aTSF of any OPERATIONAL level (R86). -/
def Dev.aAis (d : Dev) (k : Nat) : Bool := (List.range 8).any (fun l => d.lvlMode k l == 2 && d.atsf k l)

/-! ### Defects and failures (R80–R85) -/

/-- Append to the transition log, which keeps the oldest 8, with the DTIME and sequence number of the frame whose P0 finds the
transition (R94, R112, R311). -/
def Dev.logTransition (d : Dev) (k l code : Nat) (on : Bool) : Dev :=
  let o := d.oh k
  if o.tlog.length < 8 then d.setOh k { o with tlog := o.tlog ++ [⟨l, code, on, o.frameSeq, o.born⟩] }
  else (d.setOh k { o with tlogDrop := o.tlogDrop + 1, dropAt := if o.tlogDrop = 0 then o.born else o.dropAt }).bump .STR_HEAT_TLOG_tlog_drop (d.homeHeat k) 1

/-- Defect `code` of level l takes value b and is logged; actions are published by the caller. -/
def Dev.setDefect (d : Dev) (k l code : Nat) (b : Bool) : Dev :=
  if d.defBit k l code == b then d
  else
    let d := if b then d.setOh k { d.oh k with setAt := Table.ins (d.oh k).setAt (32 * l + code) (d.oh k).born } else d
    (d.oset k .CH_OH_DEF_def (putBit (d.og k .CH_OH_DEF_def 8 l) code b) 8 l).logTransition k l code b

/-- Failure `code` of level l takes value b: CH_OH_FAIL, the event and the FAILURE record with the time of the evaluation (R85,
R94, R97, R311). -/
def Dev.setFailure (d : Dev) (k l code : Nat) (b : Bool) (at_ : DTime) : Dev :=
  if d.failBit k l code == b then d
  else
    let d := d.oset k .CH_OH_FAIL_fail (putBit (d.og k .CH_OH_FAIL_fail 8 l) code b) 8 l
    let d := d.oset k ⟨.CH_OH_EVT, l, 1⟩ 1
    let d := d.record 0x03 at_
      (leBytes 2 (d.srcWord k) ++ [BitVec.ofNat 8 l, BitVec.ofNat 8 (code + if b then 128 else 0), 0, 0, 0, 0])
    d.raise ((if b then 0x0410 else 0x0430) + code) (ohArg k l)

/-- The defects and failures of level l clear at once (R82). -/
def Dev.clearLevel (d : Dev) (k l : Nat) : Dev :=
  (List.range 21).foldl (fun d c => (d.setDefect k l c false).setFailure k l c false d.dtime) d

/-- The unit of source k stops (R82): every defect and failure clears at once, and the actions with them. -/
def Dev.srcStopped (d : Dev) (k : Nat) : Dev := ((List.range 8).foldl (fun d l => d.clearLevel k l) d).actions k

/-- The length in ns of a dDEG window: 1 s, 100 ms or 10 ms (R83). -/
def Dev.degLen (d : Dev) (k l : Nat) : Nat :=
  match d.og k .CH_OH_LVL_CTL_deg_int 8 l with | 0 => 10 ^ 9 | 1 => 10 ^ 8 | _ => 10 ^ 7

/-- The DTIME at which the dDEG window in progress began: windows are laid from second boundaries (R83). -/
def Dev.degBegin (d : Dev) (k l : Nat) : Nat := d.now / d.degLen k l * d.degLen k l

/-- START of source k (R83, R90, R93): runs, persistency and windows start afresh, those of acceptance too, accepted values
stay; its tasks of before belong to another start and are discarded at dispatch (R101). The second in progress is incomplete,
with the near-end counts of its ticks before the STOP; where the STOP fell in an earlier second, that second is closed as
incomplete by the next task (R93, R98). -/
def Dev.srcStarted (d : Dev) (k : Nat) : Dev :=
  let o := d.oh k
  let same := o.second = d.second
  let pm := (List.range 8).map (fun l =>
    let p := if same then Table.get o.pm l .init else .init
    (l, { p with feBip := 0, feEb := 0, incomplete := true }))
  let stop := (List.range 8).map (fun l => (l, { Table.get o.pm l .init with incomplete := true }))
  let due := !same && !o.pm.isEmpty
  let deg := (List.range 8).map (fun l => (l, { DegSt.init with at_ := d.degBegin k l }))
  let d := d.setOh k { o with
    runs := [], deg := deg, causes := [], tti := [], ttiBuf := [], pt := .init, aps := [], ms := []
    pm := pm, pmPrev := if same then o.pmPrev else if due then stop else [], pmSec := if same then o.pmSec else o.second
    second := d.second, p2Due := (same && o.p2Due) || due
    gen := o.gen + 1, born := d.dtime, evalAt := d.dtime, evalDue := false, ssfIn := false }
  d.oset k .CH_OH_ACC_pt_valid 0

end Sys2Proof.Machine
end

