-- ==== Sys2Proof/Machine/Pool.lean ====
section
/-!
DEFINITION. The cell pool and its queues (chapter 08): pool bytes in their canonical form, cells and headers, the queue
operations, memory errors, the host port and the BAR2 aperture.
-/
namespace Sys2Proof.Machine

/-! ### Pool bytes

A byte that is not listed reads as 0: start-up writes every cell of every live site with zero data (S7 of R358). -/

/-- The byte at a. -/
def memRead : List Host.Cell → Nat → Byte
  | [], _ => 0
  | (i, b) :: r, a => if i = a then b else memRead r a

/-- The bytes with b at a, in rising order, no zero byte listed. -/
def memWrite : List Host.Cell → Nat → Byte → List Host.Cell
  | [], a, b => if b = 0 then [] else [(a, b)]
  | (i, c) :: r, a, b =>
    if a < i then (if b = 0 then (i, c) :: r else (a, b) :: (i, c) :: r)
    else if i = a then (if b = 0 then r else (a, b) :: r)
    else (i, c) :: memWrite r a b

/-- Bytes written from a on: what lies below, the bytes that are not zero, what lies above. -/
def memWriteAll (m : List Host.Cell) (a : Nat) (bs : List Byte) : List Host.Cell :=
  m.filter (·.1 < a) ++ (bs.zipIdx.filter (·.1 != 0)).map (fun p => (a + p.2, p.1))
    ++ m.filter (a + bs.length ≤ ·.1)

/-- The n bytes from a on. -/
def memSlice (m : List Host.Cell) (a n : Nat) : List Byte :=
  let near := m.filter (fun e => a ≤ e.1 && e.1 < a + n)
  (List.range n).map (fun j => memRead near (a + j))

/-- The canonical form: addresses strictly rising, no zero byte listed. -/
def memWf : List Host.Cell → Bool
  | [] => true
  | [(_, b)] => b != 0
  | (i, b) :: (j, c) :: r => b != 0 && decide (i < j) && memWf ((j, c) :: r)

/-- The memory of a pool is in its canonical form. -/
def Memory.wf (p : Pool) : Bool := memWf p.mem

/-! ### Cells (R185–R188) -/

/-- The null pointer. -/
def nullPtr : Nat := 2 ^ 32 - 1
/-- The site and the index within it of a pointer (R186). -/
def ptrSite (p : Nat) : Nat := p / 2 ^ 25
def ptrIdx (p : Nat) : Nat := p % 2 ^ 25

/-- Cells of a site by density code and arrangement (R185). -/
def siteCells (density : Nat) (clamshell : Bool) : Nat :=
  let one := match density with
    | 0 => 4194304 | 1 => 6291456 | 2 => 8388608 | 3 => 12582912 | 4 => 16777216 | _ => 0
  if clamshell then 2 * one else one

def Pool.site (p : Pool) (k : Nat) : SiteSt := Table.get p.sites k .init
def Pool.setSite (p : Pool) (k : Nat) (v : SiteSt) : Pool := { p with sites := Table.put p.sites k v .init }
def Pool.queue (p : Pool) (i : Nat) : QueueSt := Table.get p.queues i .init
def Pool.setQ (p : Pool) (i : Nat) (v : QueueSt) : Pool := { p with queues := Table.put p.queues i v .init }

/-- Whether a pointer names no cell of a live site (R186). -/
def Pool.hole (p : Pool) (ptr : Nat) : Bool := decide ((p.site (ptrSite ptr)).size ≤ ptrIdx ptr) || decide (2 ^ 29 ≤ ptr)

/-- The first cell never used of a site from index i on that is not retired, searched over n indices. -/
def freshFrom (s : SiteSt) : Nat → Nat → Option Nat
  | 0, _ => none
  | n + 1, i => if s.size ≤ i then none else if s.retired.contains i then freshFrom s n (i + 1) else some i

/-- The pointer of the first cell never used of site k from index i on, or the null pointer. -/
def Pool.freshPtr (p : Pool) (k i : Nat) : Nat :=
  match freshFrom (p.site k) ((p.site k).retired.length + 1) i with | some j => k * 2 ^ 25 + j | none => nullPtr

/-- The head of the free list of site k: the cell returned last, else the first never used (R188; log entry 11). -/
def Pool.freeHead (p : Pool) (k : Nat) : Nat :=
  match (p.site k).free with | i :: _ => k * 2 ^ 25 + i | [] => p.freshPtr k (p.site k).fresh

/-- The header of a cell: as written, or, of a cell no queue has written, linked to the next such cell of its site. -/
def Pool.hdr (p : Pool) (ptr : Nat) : CellHdr :=
  (Table.find p.hdrs ptr).getD ⟨p.freshPtr (ptrSite ptr) (ptrIdx ptr + 1), Config.freeCellSeq ptr, false⟩

/-- The header with poison or without, written (R187, R200). -/
def Pool.setHdr (p : Pool) (ptr : Nat) (h : CellHdr) : Pool := { p with hdrs := Table.ins p.hdrs ptr h }

/-- The 448 data bytes of a cell. -/
def Pool.data (p : Pool) (ptr : Nat) : List Byte := memSlice p.mem (ptr * 512) 448

/-- The byte of a cell at place j as BAR2 shows it (R187, R205). -/
def Pool.cellByte (p : Pool) (ptr j : Nat) : Byte :=
  if j < 448 then memRead p.mem (ptr * 512 + j)
  else if j < 504 then 0
  else
    let h := p.hdr ptr
    let chk := cellCheck h.next h.seq.toNat ptr
    byteAt (leBytes 4 h.next ++ leBytes 2 h.seq.toNat ++ leBytes 2 (if h.poison then chk ^^^ 0xFFFF else chk)) (j - 504)

/-- Take a free cell of site k: the head of its free list. -/
def Pool.takeFrom (p : Pool) (k : Nat) : Option (Nat × Pool) :=
  let s := p.site k
  match s.free with
  | i :: r => some (k * 2 ^ 25 + i, p.setSite k { s with free := r })
  | [] =>
    match freshFrom s (s.retired.length + 1) s.fresh with
    | some i => some (k * 2 ^ 25 + i, p.setSite k { s with fresh := i + 1 })
    | none => none

/-- Allocate a cell from the live sites in rotation, skipping empty ones (R188). -/
def Pool.alloc (p : Pool) : Option (Nat × Pool) :=
  (List.range 16).foldl (fun (r : Option (Nat × Pool)) j =>
    match r with
    | some x => some x
    | none =>
      let k := (p.rot + j) % 16
      (p.takeFrom k).map (fun x => (x.1, { x.2 with rot := (k + 1) % 16 }))) none

/-- The cells of a list that lie on live sites. -/
def Pool.liveOf (p : Pool) (ptrs : List Nat) : List Nat := ptrs.filter (fun c => !p.hole c)

/-- Return a cell to its site's free list: it becomes the head and its header links to the former head (R188). A cell of a
site that has been lost goes nowhere (R199). -/
def Pool.giveOne (p : Pool) (c : Nat) : Pool :=
  if p.hole c then p
  else
    let k := ptrSite c
    (p.setHdr c ⟨p.freeHead k, (p.hdr c).seq, false⟩).setSite k { p.site k with free := ptrIdx c :: (p.site k).free }

/-- Return cells to their sites' free lists. -/
def Pool.giveBack (p : Pool) (ptrs : List Nat) : Pool := ptrs.foldl Pool.giveOne p

/-- The links of the free list of site k, written anew. -/
def Pool.linkFree (p : Pool) (k : Nat) : Pool :=
  let f := (p.site k).free.map (k * 2 ^ 25 + ·)
  (f.zip (f.drop 1 ++ [p.freshPtr k (p.site k).fresh])).foldl (fun p e => p.setHdr e.1 { p.hdr e.1 with next := e.2 }) p

/-- The queue whose list or spare cell holds a pointer. -/
def Pool.ownerOf (p : Pool) (ptr : Nat) : Option Nat :=
  (p.queues.find? (fun e => e.2.cells.contains ptr || e.2.spare == some ptr)).map (·.1)

/-- Whether a cell is on its site's free list. -/
def Pool.isFree (p : Pool) (ptr : Nat) : Bool :=
  let s := p.site (ptrSite ptr)
  !p.hole ptr && !s.retired.contains (ptrIdx ptr) && (s.free.contains (ptrIdx ptr) || s.fresh ≤ ptrIdx ptr)

/-- Write a cell's data and header (R188). -/
def Pool.writeCell (p : Pool) (ptr : Nat) (data : List Byte) (next : Nat) (seq : BitVec 16) : Pool :=
  let d := (List.range 448).map (fun j => byteAt data j)
  ({ p with mem := memWriteAll p.mem (ptr * 512) d } : Pool).setHdr ptr ⟨next, seq, false⟩

/-! ### Queues (R189–R196) -/

/-- Positions of queue i, as 32-bit counts. -/
def Dev.qWr (d : Dev) (i : Nat) : Word := d.word .CPL_Q_WR i
def Dev.qRd (d : Dev) (i : Nat) : Word := d.word .CPL_Q_RD i
def Dev.qRel (d : Dev) (i : Nat) : Word := d.word .CPL_Q_REL i
def Dev.qMark (d : Dev) (i : Nat) : Word := d.word .CPL_Q_MARK i
/-- Occupancy wr − rel, the place of rd above rel, and the readable depth. -/
def Dev.qOcc (d : Dev) (i : Nat) : Nat := (d.qWr i - d.qRel i).toNat
def Dev.qRdOff (d : Dev) (i : Nat) : Nat := (d.qRd i - d.qRel i).toNat
def Dev.qMarkOff (d : Dev) (i : Nat) : Nat := (d.qMark i - d.qRel i).toNat
def Dev.qDepth (d : Dev) (i : Nat) : Nat := (d.qWr i - d.qRd i).toNat

/-- Whether queue i has a STREAM producer (R190). -/
def Dev.qStream (d : Dev) (i : Nat) : Bool := d.get .CPL_Q_CFG_owner_kind i == 1 || d.get .CPL_Q_CFG_owner_kind i == 2

/-- The end of a cycle of queue i: occupancy, pointer at rel, hurdle crossing and re-arming (R196). -/
def State.qEnd (s : State) (i : Nat) : State :=
  let occ := s.dev.qOcc i
  let was := s.dev.get .CPL_Q_OCC_occ i
  let d := (s.dev.set .CPL_Q_OCC_occ i occ).set .CPL_Q_RDPTR_rdptr i ((s.pool.queue i).cells.head?.getD nullPtr)
  let h := d.get .CPL_Q_HURDLE_hurdle i
  let lvl := h - 64 * d.get .CPL_Q_LAG_hurdle_hyst i
  let d :=
    if d.bit .CPL_Q_STAT_hurdle_armed i then
      if h != 0 && was < h && h ≤ occ then ((d.set .CPL_Q_STAT_hurdle_armed i 0).set .CPL_Q_EVT_hurdle_hit i 1).raise 0x0802 i else d
    else if (if lvl = 0 then occ = 0 else occ < lvl) then d.set .CPL_Q_STAT_hurdle_armed i 1 else d
  { s with dev := d }

/-- The mark of queue i is invalidated with a cause (R192, R194, R197, R202). -/
def Dev.markLost (d : Dev) (i cause : Nat) : Dev :=
  if d.bit .CPL_Q_STAT_mark_valid i then
    (((d.set .CPL_Q_STAT_mark_valid i 0).set .CPL_Q_STAT_mark_cause i cause).set .CPL_Q_EVT_mark_lost_evt i 1).raise
      0x0803 (i + cause * 4096)
  else d

/-- Cells become free: those of live sites go to their free lists, counted in CPL_POOL_FREE. -/
def State.freeCells (s : State) (ptrs : List Nat) : State :=
  { s with dev := s.dev.wrap .CPL_POOL_FREE_free 0 (s.pool.liveOf ptrs).length, pool := s.pool.giveBack ptrs }

/-- Free n cells from rel on (at most the occupancy), moving rel. -/
def State.qFree (s : State) (i n : Nat) : State :=
  let q := s.pool.queue i
  let s := (s.onDev (fun d => d.setWord .CPL_Q_REL i (d.qRel i + BitVec.ofNat 32 n))).freeCells (q.cells.take n)
  { s with pool := s.pool.setQ i { q with cells := q.cells.drop n } }

/-- Release n cells; a release that passes a valid mark clears it with the cause (R192, R194). -/
def State.qRelease (s : State) (i n cause : Nat) : State :=
  let s := if s.dev.bit .CPL_Q_STAT_mark_valid i && decide (s.dev.qMarkOff i < n) then
      s.onDev (fun d => d.markLost i cause) else s
  s.qFree i n

/-- A force-release of n cells (R193, R194): counted, the mark lost, a reader behind moved up. -/
def State.qForce (s : State) (i n : Nat) : State :=
  let lost := s.dev.bit .CPL_Q_STAT_mark_valid i && decide (s.dev.qMarkOff i < n)
  let excess := n - s.dev.qRdOff i
  let s := s.qRelease i n 0
  s.onDev (fun d =>
    let d := d.bump .CPL_Q_CNT_A_forced_cnt i n
    let d := if lost then d.bump .CPL_Q_CNT_A_mark_lost i 1 else d
    if excess = 0 then d
    else (((d.setWord .CPL_Q_RD i (d.qRel i)).bump .CPL_Q_CNT_B_overrun_cnt i excess).set .CPL_Q_EVT_overrun i 1).raise1
      0x0804 i i)

/-- Whether usable cells are known: from S7 on, a rebuild included. -/
def Dev.poolKnown (d : Dev) : Bool := d.bit .CPL_POOL_STAT_pool_ready 0 || d.bit .CPL_POOL_STAT_rebuild_busy 0

/-- pool_short follows usable cells against the sum of quotas and spares (R199). It clears as soon as usable cells reach the sum
again (DESIGN CHOICE, log entry 98). -/
def Dev.poolShort (d : Dev) : Dev :=
  let short := decide (d.get .CPL_POOL_CELLS_usable 0 < d.get .CPL_POOL_QSUM_qsum 0)
  if d.bit .CPL_POOL_STAT_pool_short 0 == short then d
  else (d.setB .CPL_POOL_STAT_pool_short 0 short).raiseIf short 0x0808 (d.get .CPL_POOL_CELLS_usable 0 / 65536)

/-- Take a free cell, counted in CPL_POOL_FREE. -/
def State.takeCell (s : State) : Option (Nat × State) :=
  match s.pool.alloc with
  | none => none
  | some (c, p) => some (c, { s with pool := p, dev := s.dev.set .CPL_POOL_FREE_free 0 (s.dev.get .CPL_POOL_FREE_free 0 - 1) })

/-- Give queue i, where it is enabled, its spare cell if it has none and one is free (R188). -/
def State.ensureSpare (s : State) (i : Nat) : State :=
  match (s.pool.queue i).spare with
  | some _ => s
  | none =>
    match (if s.dev.bit .CPL_Q_CFG_en i then s.takeCell else none) with
    | none => s
    | some (c, s) => { s with pool := s.pool.setQ i { s.pool.queue i with spare := some c } }

/-- Write one cell at wr of queue i: into the spare cell, whose successor becomes the new spare. Nothing where no cell is
to be had. -/
def State.qWrite (s : State) (i : Nat) (data : List Byte) : Option State :=
  let s := s.ensureSpare i
  match (s.pool.queue i).spare, s.takeCell with
  | some c, some (n, s) =>
    let q := s.pool.queue i
    let wr := s.dev.qWr i
    let p := (s.pool.writeCell c data n (wr.setWidth 16)).setQ i { q with cells := q.cells ++ [c], spare := some n }
    some { s with pool := p, dev := s.dev.setWord .CPL_Q_WR i (wr + 1) }
  | _, _ => none

/-- A STREAM write is discarded and counted, in units of 2^16 (R197, R199). -/
def State.qDrop (s : State) (i : Nat) : State :=
  let q := s.pool.queue i
  let n := q.dropped + 1
  { s with pool := s.pool.setQ i { q with dropped := n }
           dev := if n % 65536 = 0 then s.dev.bump .CPL_Q_CNT_B_drop_cnt i 1 else s.dev }

/-- A STALL push waits with its data (R193). -/
def State.qWait (s : State) (i : Nat) (data : List Byte) : State :=
  { s with pool := s.pool.setQ i { s.pool.queue i with waiting := some data }
           dev := s.dev.set .CPL_Q_STAT_prod_wait i 1 }

/-- A STREAM push that finds no free cell force-releases its own oldest cells, at most n of them, until it has one to write;
with none left the push is discarded (R199). -/
def State.qWriteForced (s : State) (i : Nat) (data : List Byte) : Nat → State
  | 0 => s.qDrop i
  | n + 1 =>
    match (s.qForce i 1).qWrite i data with
    | some t => t
    | none => (s.qForce i 1).qWriteForced i data n

/-- PUSH of one cell (R191, R193, R197, R199). -/
def State.push (s : State) (i : Nat) (data : List Byte) : State :=
  let d := s.dev
  let quota := d.get .CPL_Q_QUOTA_quota i
  if d.qStream i then
    if !d.running .queue i then s.qDrop i
    else
      let excess := d.qOcc i - quota
      let s := if quota ≤ d.qOcc i then s.qForce i (min (d.qOcc i) (if excess = 0 then 1 else 2)) else s
      match s.qWrite i data with
      | some s => s.qEnd i
      | none => (s.qWriteForced i data (s.dev.qOcc i)).qEnd i
  else if !d.running .queue i || quota ≤ d.qOcc i then s.qWait i data
  else
    match s.qWrite i data with
    | some s => s.qEnd i
    | none => s.qWait i data

def execPush (q : Queue) (data : List Byte) (s : State) : Host.Outcome State Fault Refusal := .next (s.push q.val data)

/-! ### Reading cells (R200–R203) -/

/-- Corrected words of site k are counted; over ce_thr in a second, event 0x0809 (R200). -/
def State.countCe (s : State) (k n : Nat) : State :=
  if n = 0 then s
  else
    let st := s.pool.site k
    let sec := s.dev.second + 1
    let c := (if st.ceSecond = sec then st.ceCount else 0) + n
    let d := s.dev.bump .CPL_SITE_CE_ce_cnt k n
    let d := if d.get .CPL_CE_THR_ce_thr 0 < c then d.raise1 0x0809 k k else d
    { s with dev := d, pool := s.pool.setSite k { st with ceSecond := sec, ceCount := c } }

/-- A cell read with uncorrectable words is poisoned and counted; event 0x0805 where it belongs to queue i (R200). -/
def State.poisonCell (s : State) (i : Option Nat) (ptr ue : Nat) : State :=
  if ue = 0 then s
  else
    let k := ptrSite ptr
    let h := s.pool.hdr ptr
    let d := s.dev.bump .CPL_SITE_UE_ue_cnt k ue
    let d := if h.poison then d else d.bump .CPL_SITE_UE_poison_cnt k 1
    let d := match i with | some i => (d.set .CPL_Q_EVT_poison i 1).raise1 0x0805 i (i + k * 4096) | none => d
    { s with dev := d, pool := s.pool.setHdr ptr { h with poison := true } }

/-- Records staged in the cells of queue i are lost with them: a GAP of reason 2 is owed (log entry 69). -/
def Dev.stagedGone (d : Dev) (i : Nat) : Dev :=
  let lost := d.recr.staged.filter (fun e => e.cells != 0 && e.queue == i)
  match lost with
  | [] => d
  | e :: _ =>
    let o := Table.get d.recr.dropped 2 (0, e.r.at_)
    { d with recr := { d.recr with staged := d.recr.staged.filter (fun e => e.cells == 0 || e.queue != i)
                                   dropped := Table.ins d.recr.dropped 2 (o.1 + lost.length, o.2) } }

/-- A chain fault at the cell `off` places above rel (R202). -/
def State.chainFault (s : State) (i off : Nat) : State :=
  let q := s.pool.queue i
  let good := q.cells.take off
  let bad := q.cells.drop off
  let wr := s.dev.qWr i
  let d := s.dev.markLost i 2
  let d := ((d.setWord .CPL_Q_REL i wr).setWord .CPL_Q_RD i wr).setWord .CPL_Q_MARK i wr
  let d := (d.wrap .CPL_POOL_STRAND_strand 0 bad.length).set .CPL_POOL_CELLS_usable 0
    (d.get .CPL_POOL_CELLS_usable 0 - (s.pool.liveOf bad).length)
  let d := (d.set .CPL_Q_STAT_mark_cause i 2).set .CPL_Q_EVT_chain_fault i 1
  let s := ({ s with dev := ((d.raise 0x0807 i).poolShort).stagedGone i } : State).freeCells good
  let p : Pool := { s.pool with stranded := s.pool.stranded ++ bad }
  ({ s with pool := p.setQ i { q with cells := [] } } : State).qEnd i

/-- POP of one cell (R191): the cell read and whether it was poisoned, or a stalled consumer; a chain fault leaves nothing
to read. A cell of a lost site reads with a header that does not fit (log entry 70). -/
def State.pop (s : State) (i : Nat) (r : CellRead) : State × Option (Nat × Bool) :=
  let d := s.dev
  if !d.running .queue i || d.qDepth i = 0 then (s.onDev (·.set .CPL_Q_STAT_cons_wait i 1), none)
  else
    let off := d.qRdOff i
    let ptr := (s.pool.queue i).cells.getD off nullPtr
    if r.hdrFault || s.pool.hole ptr then ((s.chainFault i off).onDev (·.set .CPL_Q_STAT_cons_wait i 1), none)
    else
      let s := (s.countCe (ptrSite ptr) r.corrected).poisonCell (some i) ptr r.uncorr.length
      let d := (s.dev.setWord .CPL_Q_RD i (s.dev.qRd i + 1)).set .CPL_Q_STAT_cons_wait i 0
      (({ s with dev := d } : State).qEnd i, some (ptr, (s.pool.hdr ptr).poison))

/-- A cell that reads without an error. -/
def cleanRead : CellRead := ⟨0, [], false⟩

/-- n POPs of queue i in turn, read as rs say: the cells with their poison, none where one of them fails, and what is left
of rs. -/
def State.popN (s : State) (i : Nat) (rs : List CellRead) : Nat → State × Option (List (Nat × Bool)) × List CellRead
  | 0 => (s, some [], rs)
  | n + 1 =>
    let (s, o) := s.pop i (rs.headD cleanRead)
    match o with
    | none => (s, none, rs.tail)
    | some c =>
      let x := s.popN i rs.tail n
      (x.1, x.2.1.map (c :: ·), x.2.2)

/-! ### Control operations (R191, R192) -/

/-- MARK: mark := rd. -/
def Dev.qMarkNow (d : Dev) (i : Nat) : Dev := (d.setWord .CPL_Q_MARK i (d.qRd i)).set .CPL_Q_STAT_mark_valid i 1

def execMark (q : Queue) (s : State) : Host.Outcome State Fault Refusal := .next (s.onDev (·.qMarkNow q.val))

/-- A refused queue command sets cmd_err. -/
def Dev.qCmdErr (d : Dev) (i : Nat) : Dev := d.set .CPL_Q_EVT_cmd_err i 1

/-- MARK_AT p with rel ≤ p ≤ wr, otherwise refused. -/
def Dev.qMarkAt (d : Dev) (i : Nat) (p : Word) : Dev :=
  if (p - d.qRel i).toNat ≤ d.qOcc i then (d.setWord .CPL_Q_MARK i p).set .CPL_Q_STAT_mark_valid i 1 else d.qCmdErr i

def execMarkAt (q : Queue) (p : Word) (s : State) : Host.Outcome State Fault Refusal :=
  .next (s.onDev (·.qMarkAt q.val p))

/-- REWIND: rd := mark with a valid mark, otherwise refused. -/
def Dev.qRewind (d : Dev) (i : Nat) : Dev :=
  if d.bit .CPL_Q_STAT_mark_valid i then d.setWord .CPL_Q_RD i (d.qMark i) else d.qCmdErr i

def execRewind (q : Queue) (s : State) : Host.Outcome State Fault Refusal := .next (s.onDev (·.qRewind q.val))

/-- RELEASE_TO p: rel := min(p, rd), never backwards. -/
def State.qReleaseTo (s : State) (i : Nat) (p : Word) : State :=
  let off := (p - s.dev.qRel i).toNat
  if 2 ^ 31 ≤ off then s else (s.qRelease i (min off (s.dev.qRdOff i)) 1).qEnd i

def execReleaseTo (q : Queue) (p : Word) (s : State) : Host.Outcome State Fault Refusal := .next (s.qReleaseTo q.val p)

/-- The lagged release of the end of a cycle: rel := min(rd − lag, mark), never backwards (R192). -/
def State.laggedRelease (s : State) (i : Nat) : State :=
  let d := s.dev
  if d.bit .CPL_Q_CFG_release_mode i then
    let off := d.qRdOff i - d.get .CPL_Q_LAG_lag i
    let off := if d.bit .CPL_Q_STAT_mark_valid i then min off (d.qMarkOff i) else off
    (s.qFree i off).qEnd i
  else s

def execLaggedRelease (q : Queue) (s : State) : Host.Outcome State Fault Refusal := .next (s.laggedRelease q.val)

/-! ### Waiting producers and consumers, the host port (R193, R206) -/

/-- Whether the host port is busy with queue i. -/
def Dev.hostOn (d : Dev) (i : Nat) : Bool := d.bit .CPL_HOST_OP_busy 0 && d.host.opQueue == i

/-- A waiting STALL push finds room and proceeds (R193). -/
def State.stallPushProceed (s : State) (i : Nat) : State :=
  match (s.pool.queue i).waiting with
  | none => s
  | some data =>
    if s.dev.running .queue i && !s.dev.qStream i && decide (s.dev.qOcc i < s.dev.get .CPL_Q_QUOTA_quota i) then
      match s.qWrite i data with
      | none => s
      | some s =>
        let d := s.dev.set .CPL_Q_STAT_prod_wait i 0
        let d := if d.get .CPL_Q_CFG_owner_kind i == 0 && d.hostOn i then d.set .CPL_HOST_OP_busy 0 0 else d
        ({ s with dev := d, pool := s.pool.setQ i { s.pool.queue i with waiting := none } } : State).qEnd i
    else s

def execStallPushProceed (q : Queue) (s : State) : Host.Outcome State Fault Refusal := .next (s.stallPushProceed q.val)

/-- The host port takes a popped cell: data words, poison, busy ends (R201, R206). -/
def State.hostTake (s : State) (o : Option (Nat × Bool)) : State :=
  match o with
  | none => s
  | some (ptr, poison) =>
    let data := s.pool.data ptr
    let d := (List.range 112).foldl (fun d w => d.set .CPL_HOST_DATA_data w (leField data (4 * w) 4)) s.dev
    let d := d.set .CPL_HOST_OP_busy 0 0
    { s with dev := if poison then d.set .CPL_HOST_OP_poison 0 1 else d }

/-- Whether the host port accepts a PUSH or POP on queue i: not busy, a HOST queue, RUN (R206). -/
def Dev.hostOpOk (d : Dev) (i : Nat) : Bool :=
  !d.bit .CPL_HOST_OP_busy 0 && d.get .CPL_Q_CFG_owner_kind i == 0 && d.running .queue i

/-- A PUSH or POP of queue i is written: the queue field takes it, unless one is in progress, which discards the write; the
port serves it from then on where it may (R13, R206). -/
def Dev.hostOpBegin (d : Dev) (i : Nat) : Dev :=
  if d.bit .CPL_HOST_OP_busy 0 then d.set .CPL_HOST_OP_op_err 0 1
  else
    let ok := d.hostOpOk i
    let d := d.set .CPL_HOST_OP_queue 0 i
    if ok then { d with host := { d.host with opQueue := i } } else d.set .CPL_HOST_OP_op_err 0 1

/-- PUSH by the host port: its data words as one cell, waiting at quota. -/
def State.hostPush (s : State) (i : Nat) : State :=
  let ok := s.dev.hostOpOk i
  let s := s.onDev (·.hostOpBegin i)
  if ok then
    let data := (List.range 112).flatMap (fun w => leBytes 4 (s.dev.get .CPL_HOST_DATA_data w))
    let s := s.push i data
    s.onDev (fun d => d.setB .CPL_HOST_OP_busy 0 (d.bit .CPL_Q_STAT_prod_wait i))
  else s

def execHostPush (q : Queue) (s : State) : Host.Outcome State Fault Refusal := .next (s.hostPush q.val)

/-- POP by the host port: the next cell into its data words, waiting on an empty queue. -/
def State.hostPop (s : State) (i : Nat) (r : CellRead) : State :=
  let ok := s.dev.hostOpOk i
  let s := s.onDev (·.hostOpBegin i)
  if ok then
    let (s, o) := s.pop i r
    match o with
    | some _ => s.hostTake o
    | none => s.onDev (fun d => d.setB .CPL_HOST_OP_busy 0 (d.bit .CPL_Q_STAT_cons_wait i))
  else s

def execHostPop (q : Queue) (r : CellRead) (s : State) : Host.Outcome State Fault Refusal := .next (s.hostPop q.val r)

/-- CANCEL by the host port: the waiting operation ends without effect (R206). -/
def State.hostCancel (s : State) : State :=
  if s.dev.bit .CPL_HOST_OP_busy 0 then
    let i := s.dev.host.opQueue
    let d := ((s.dev.set .CPL_HOST_OP_busy 0 0).set .CPL_Q_STAT_prod_wait i 0).set .CPL_Q_STAT_cons_wait i 0
    { s with dev := d, pool := s.pool.setQ i { s.pool.queue i with waiting := none } }
  else s

def execHostCancel (s : State) : Host.Outcome State Fault Refusal := .next s.hostCancel

/-! ### BAR2 (R205) -/

/-- The pool byte address of a BAR2 offset. -/
def Dev.bar2Addr (d : Dev) (off : Nat) : Nat := d.get .CPL_BAR2_BASE_base 0 * 2 ^ 20 + off

/-- The cells that n bytes of the pool's byte space from a on lie in. -/
def cellsAt (a n : Nat) : List Nat := (List.range (if n = 0 then 0 else (a + n - 1) / 512 - a / 512 + 1)).map (a / 512 + ·)

/-- hole and poison of an aperture access, and event 0x080B once per second. -/
def Dev.bar2Flags (d : Dev) (hole poison : Bool) : Dev :=
  let d := if hole then d.set .CPL_BAR2_STAT_hole 0 1 else d
  let d := if poison then d.set .CPL_BAR2_STAT_poison 0 1 else d
  if hole || poison then d.raise1 0x080B 0 ((if poison then 1 else 0) + if hole then 2 else 0) else d

/-- An aperture access that touches a cell of a site without power completes DOWN (R297), beside what R205 says of a hole
(DEDUCED, log entry 102). -/
def Dev.bar2Down (d : Dev) (cells : List Nat) : Dev :=
  if cells.any (fun c => decide (c < 2 ^ 29) && !d.pdOn (domSite (ptrSite c))) then d.mxDown 4 false else d

/-- The data words of cell c that an access of the bytes from a to e - 1 touches, of those in a list. -/
def wordsTouched (a e c : Nat) (ws : List Nat) : List Nat :=
  ws.filter (fun w => decide (c * 512 + 8 * w < e) && decide (a < c * 512 + 8 * w + 8))

/-- Of the data words of a cell, those that an access of the bytes from a to e - 1 touches in part only. -/
def wordsInPart (a e c : Nat) (ws : List Nat) : List Nat :=
  (wordsTouched a e c ws).filter (fun w => decide (c * 512 + 8 * w < a) || decide (e < c * 512 + 8 * w + 8))

/-- The aperture reads the words of cell c that `ws` picks from a list: corrected ones are counted, uncorrectable ones poison
the cell (R200). -/
def State.bar2Cell (s : State) (c : Nat) (r : CellRead) (ws : List Nat → List Nat) : State :=
  if s.pool.hole c then s
  else
    (s.countCe (ptrSite c) (min r.corrected (ws (List.range 56)).length)).poisonCell (s.pool.ownerOf c) c (ws r.uncorr).length

/-- Whether the endpoint takes a memory request of n bytes: in D0, and no larger than Max_Payload_Size (R330, R331). -/
def Dev.takesMem (d : Dev) (n : Nat) : Bool := !d.host.cfg.d3hot && decide (n ≤ 128 * 2 ^ d.host.cfg.mps.toNat)

/-- Whether the host port reaches no target: host_stalled, or M0 stalled on a decode miss, which issues nothing further and
lets an access end at host_to (R298, R332; log entry 33). -/
def Dev.hostStuck (d : Dev) : Bool := d.bit .GLB_HOST_STAT_host_stalled 0 || (Table.find d.matrix.miss 0).isSome

/-- A host read of the aperture: stored bytes, 0 in holes; an uncorrectable word or a poisoned cell sets poison (R201). The
cells touched read as `reads`, in ascending order. -/
def State.bar2Read (s : State) (off len : Nat) (reads : List CellRead) : State :=
  if s.dev.sys.held then s
  else if !s.dev.takesMem len then s.onDev (fun d => { d with host := { d.host with completion := .unsupported } })
  else if s.dev.hostStuck then s.onDev (fun d => { d with host := { d.host with completion := .aborted } })
  else
    let addr (j : Nat) := s.dev.bar2Addr (off + j)
    let hole := (List.range len).any (fun j => s.pool.hole (addr j / 512))
    let bytes := (List.range len).map (fun j =>
      if s.pool.hole (addr j / 512) then 0 else s.pool.cellByte (addr j / 512) (addr j % 512))
    let a := addr 0
    let s := ((cellsAt a len).zipIdx).foldl (fun s c =>
      s.bar2Cell c.1 (reads.getD c.2 cleanRead) (wordsTouched a (a + len) c.1)) s
    s.onDev (fun d =>
      (({ d with host := { d.host with bar2Data := bytes, completion := .successful } } : Dev).bar2Down (cellsAt a len)).bar2Flags hole
        ((List.range len).any (fun j =>
          !s.pool.hole (addr j / 512) && decide (addr j % 512 < 448) && (s.pool.hdr (addr j / 512)).poison)))

def execBar2Read (off : BitVec 30) (len : Nat) (reads : List CellRead) (s : State) : Host.Outcome State Fault Refusal :=
  .next (s.bar2Read off.toNat len reads)

/-- A host write of the aperture: data bytes of cells only. The words written in part are read first, and the cells touched
read as `reads`, in ascending order (R200, R205). -/
def State.bar2Write (s : State) (off : Nat) (data : List Byte) (reads : List CellRead) : State :=
  if s.dev.sys.held then s
  else if !s.dev.takesMem data.length then
    s.onDev (fun d => { d with host := { d.host with completion := .unsupported } })
  else if s.dev.hostStuck then s.onDev (fun d => { d with host := { d.host with completion := .aborted } })
  else
    let addr (j : Nat) := s.dev.bar2Addr (off + j)
    let hole := (List.range data.length).any (fun j => s.pool.hole (addr j / 512))
    let a := addr 0
    let s := ((cellsAt a data.length).zipIdx).foldl (fun s c =>
      s.bar2Cell c.1 (reads.getD c.2 cleanRead) (wordsInPart a (a + data.length) c.1)) s
    let mem := (List.range data.length).foldl (fun m j =>
      if s.pool.hole (addr j / 512) || 448 ≤ addr j % 512 then m else memWrite m (addr j) (byteAt data j)) s.pool.mem
    { s with pool := { s.pool with mem := mem }
             dev := (({ s.dev with host := { s.dev.host with completion := .successful } } : Dev).bar2Down
               (cellsAt a data.length)).bar2Flags hole false }

def execBar2Write (off : BitVec 30) (data : List Byte) (reads : List CellRead) (s : State) :
    Host.Outcome State Fault Refusal :=
  .next (s.bar2Write off.toNat data reads)

/-! ### Queue unit operations, pool ready, rebuild (R197, R202) -/

/-- A flush frees every cell and sets every position to 0 (R197). -/
def State.qFlush (s : State) (i : Nat) : State :=
  let q := s.pool.queue i
  let d := s.dev.markLost i 3
  let d := (((d.setWord .CPL_Q_REL i 0).setWord .CPL_Q_RD i 0).setWord .CPL_Q_WR i 0).setWord .CPL_Q_MARK i 0
  let s := ({ s with dev := (d.set .CPL_Q_STAT_mark_cause i 3).stagedGone i } : State).freeCells q.cells
  ({ s with pool := s.pool.setQ i { q with cells := [] } } : State).qEnd i

/-- An empty queue that is no longer enabled gives up its spare; one that keeps its contents keeps the cell its last header
links to (R188, R197; log entry 71). -/
def State.dropSpare (s : State) (i : Nat) : State :=
  let q := s.pool.queue i
  match (if q.cells.isEmpty then q.spare else none) with
  | none => s
  | some c =>
    let s := s.freeCells [c]
    { s with pool := s.pool.setQ i { q with spare := none } }

/-- Cells of live sites less retired and stranded. -/
def Pool.usable (p : Pool) : Nat :=
  (List.range 16).foldl (fun n k => n + ((p.site k).size - (p.site k).retired.length)) 0 - (p.liveOf p.stranded).length

/-- pool_ready rises: event 0x0801 and the ready bit (R202, R361). -/
def Dev.poolUp (d : Dev) : Dev :=
  ((d.set .CPL_POOL_STAT_pool_ready 0 1).raise 0x0801 (d.get .CPL_POOL_CELLS_usable 0 / 65536)).readyFn 7 true

/-- Whether every queue is STOPPED: no state word of class QUEUE differs from reset. -/
def Dev.queuesStopped (d : Dev) : Bool := (d.listed .GLB_UC_ST).all (fun i => i / 256 != uclassCode .queue - 1)

end Sys2Proof.Machine
end

