-- ==== Sys2Proof/Machine/Protect.lean ====
section
/-!
DEFINITION. Protection groups (chapter 09): members, SF and SD, requests, commands and APS, selection, and the decision
of switches; the hitless side is in Hitless.
-/
namespace Sys2Proof.Machine

/-! ### Members (R213) -/

/-- SF of member j of group g (R213). -/
def Dev.memberSf (d : Dev) (g j : Nat) : Bool :=
  let k := d.memberSrc g j
  let snc := d.bit .PRT_GRP_CFG_snc g
  let mon := d.get .PRT_GRP_CFG_mon_lvl g
  !d.srcRun k ||
    (if d.bit .PRT_GRP_CFG_level g then d.atsf k (if snc then mon else 0)
     else
       let t := srcIdx k
       d.ssfIn t || d.tribLoomfi t || d.tribMsim t || d.trState t != 3 || (snc && d.atsf k mon))

/-- SD of member j of group g (R213). -/
def Dev.memberSd (d : Dev) (g j : Nat) : Bool :=
  let k := d.memberSrc g j
  d.srcRun k && d.bit .PRT_GRP_CFG_snc g && d.bit .PRT_GRP_CFG_sd_en g && d.atsd k (d.get .PRT_GRP_CFG_mon_lvl g)

/-- A mask over the members of group g. -/
def Dev.memberMask (d : Dev) (g : Nat) (f : Nat → Bool) : Nat :=
  (d.memberPlaces g).foldl (fun v j => v + if f j then 2 ^ j else 0) 0

/-! ### Requests (R214–R216) -/

/-- The lowest working signal of a mask, if any. -/
def lowWorking (m : Nat) : Option Nat := ((List.range 16).find? (fun j => j != 0 && m.testBit j))

/-- The highest request of the members' conditions: SF-P, SF, SD on protection, SD, else NR. -/
def GroupSt.condition (x : GroupSt) : Nat × Nat :=
  if x.effSf.testBit 0 then (0xE, 0)
  else match lowWorking x.effSf with
    | some j => (0xB, j)
    | none =>
      if x.effSd.testBit 0 then (0x9, 0)
      else match lowWorking x.effSd with
        | some j => (0x9, j)
        | none => (0, 0)

/-- The request code of a command: LO, FS, MS, EXER (R214). -/
def cmdCode : Nat → Nat
  | 2 => 0xF | 3 => 0xD | 4 => 0x7 | 5 => 0x4 | _ => 0

/-- The far-end request code and the signals it requests and bridges, from the accepted APS bytes (G.873.1). -/
def Dev.farReq (d : Dev) (g : Nat) : Nat × Nat × Nat :=
  let v := d.get .PRT_GRP_APS_RX_aps_rx g
  (v % 256 / 16, v / 256 % 256, v / 65536 % 256)

/-- Whether group g listens to its far end: bidirectional types with APS (R209). -/
def Dev.bidir (d : Dev) (g : Nat) : Bool := d.get .PRT_GRP_CFG_type g != 0 && d.bit .PRT_GRP_CFG_aps_en g

/-- The local request and its signal: the higher of condition and command, else WTR, EXER, DNR, NR (R214). -/
def Dev.localReq (d : Dev) (g : Nat) (x : GroupSt) (wtr : Bool) : Nat × Nat :=
  let c := x.condition
  let cc := cmdCode x.cmd
  if x.cmd ≠ 0 && x.cmd ≠ 5 && c.1 < cc then (cc, if x.cmd = 2 then 0 else x.cmdSig)
  else if c.1 ≠ 0 then c
  else if wtr then (0x5, d.get .PRT_GRP_STAT_sel_sig g)
  else if x.cmd = 5 then (0x4, x.cmdSig)
  else if d.get .PRT_GRP_STAT_sel_sig g ≠ 0 && !d.bit .PRT_GRP_CFG_revertive g then
    (0x1, d.get .PRT_GRP_STAT_sel_sig g)
  else (0, 0)

/-- Whether the far-end request outranks the local one: a higher code, or the same SF or SD code with a lower signal. RR asks
for nothing: it answers a request of this end, and DNR or NR is sent against it (G.873.1). -/
def farWins (l : Nat × Nat) (f : Nat × Nat) : Bool :=
  f.1 != 0x2 && (l.1 < f.1 || (l.1 == f.1 && f.1 ≥ 0x9 && f.2 < l.2))

/-- Requests of group g are evaluated: MS and EXER fall to a higher request (R215); WTR starts when the working member's SF
or SD clears while protection is selected, and is cancelled by a higher request (R216); the wanted selection follows the
highest request, WTR, EXER and DNR keep the selection, and a change of request awaits its decision (R218). A standby makes
no local decision (R242). -/
def Dev.groupEval (d : Dev) (g : Nat) : Dev :=
  if !d.running .pgroup g || d.standby then d
  else
    let x := d.group g
    let far := d.farReq g
    let f := if d.bidir g then (far.1, far.2.1) else (0, 0)
    let sel := d.get .PRT_GRP_STAT_sel_sig g
    let c := x.condition
    let cc := cmdCode x.cmd
    let x := if (x.cmd = 4 || x.cmd = 5) && (cc < c.1 || cc < f.1) then { x with cmd := 0, cmdSig := 0 } else x
    let before := d.get .PRT_GRP_STAT_req_local g
    let wtrNow := x.wtrAt.isSome
    let recovers := (before == 0xB || before == 0x9) && x.reqSig != 0 && sel != 0 && c.1 == 0 && x.cmd != 2 && x.cmd != 3
      && x.cmd != 4 && d.bit .PRT_GRP_CFG_revertive g
    let l := d.localReq g x (wtrNow || recovers)
    let wtr := l.1 == 0x5
    let x := { x with wtrAt := if wtr then (if wtrNow then x.wtrAt else some d.now) else none }
    let far := farWins l f
    let top := if far then f else l
    let want := match top.1 with
      | 0xF => 0 | 0xE => 0 | 0xD => top.2 | 0xB => top.2 | 0x9 => top.2 | 0x7 => top.2
      | 0x5 => sel | 0x4 => sel | 0x1 => sel | _ => 0
    let changed := x.changed || l.1 != before || want != x.want || l.2 != x.reqSig
    let d := (d.set .PRT_GRP_STAT_req_local g l.1).set .PRT_GRP_STAT_req_far g
      (if d.bit .PRT_GRP_CFG_aps_en g then (d.farReq g).1 else 0)
    (d.setB .PRT_GRP_STAT_wtr_run g wtr).setGroup g { x with want := want, reqSig := l.2, changed := changed }

/-- SF and SD of group g are derived again (R213); what rises waits for hold-off (R216), what falls falls at once. -/
def Dev.groupConditions (d : Dev) (g : Nat) : Dev :=
  let x := d.group g
  let sf := d.memberMask g (d.memberSf g)
  let sd := d.memberMask g (d.memberSd g)
  let d := (d.set .PRT_GRP_SFSD_sf g sf).set .PRT_GRP_SFSD_sd g sd
  if d.get .PRT_GRP_TMR_holdoff g = 0 || d.standby then
    (d.setGroup g { x with rawSf := sf, rawSd := sd, effSf := sf, effSd := sd }).groupEval g
  else
    let ef := sf &&& x.effSf
    let ed := sd &&& x.effSd
    let waits := ef != sf || ed != sd
    let hold := if waits then (if x.holdAt.isSome then x.holdAt else some d.now) else none
    ((d.setB .PRT_GRP_STAT_holdoff_run g waits).setGroup g
      { x with rawSf := sf, rawSd := sd, effSf := ef, effSd := ed, holdAt := hold }).groupEval g

/-- The free timer of a learned entry whose TPN is absent runs only while aTSF of its server is 0 at level 1 (R143). It counts
DTIME (R379). -/
def TribSt.absentRun (x : TribSt) (now : Nat) (go : Bool) : TribSt :=
  match x.absentSince, go with
  | none, true => if x.absent then { x with absentSince := some now } else x
  | some t, false => { x with absentSince := none, absentAcc := x.absentAcc + (now - t) }
  | _, _ => x

/-- The free timers of the entries whose server's signal is source k, after its aTSF (R143). -/
def Dev.absentClocks (d : Dev) (k : Nat) : Dev :=
  let at_ := d.carriedBy k
  (d.tribs.filter (fun e => e.2.absent && at_.contains (d.get .ODU_CFG_srv_ch e.1))).foldl (fun d e =>
    d.setTrib e.1 (e.2.absentRun d.now (!d.atsf k 1))) d

/-- Source k publishes its actions (R86), and every RUN group it belongs to derives SF and SD from them (R213). -/
def Dev.publish (d : Dev) (k : Nat) : Dev :=
  let d := (d.actions k).absentClocks k
  (d.groupsOf k).foldl (fun d e => if d.running .pgroup e.1 then d.groupConditions e.1 else d) d

/-! ### Commands (R215) -/

/-- A refused command: cmd_refused and event 0x0908. -/
def Dev.cmdRefuse (d : Dev) (g op : Nat) : Dev := (d.set .PRT_GRP_EVT_cmd_refused g 1).raise 0x0908 (g + op * 2048)

/-- The highest request in force, local or, in a bidirectional group, far-end; RR is none. -/
def Dev.topReq (d : Dev) (g : Nat) : Nat :=
  let f := (d.farReq g).1
  max (d.get .PRT_GRP_STAT_req_local g) (if d.bidir g && f != 0x2 then f else 0)

/-- A command written to group g: a standby has the commands of its mirror and none of its own (R242, log entry 74). -/
def Dev.commanded (d : Dev) (f : Dev → Dev) : Dev := if d.standby then d else f d

/-- LO, FS, MS or EXER: refused where the group is not RUN, the signal is above n, FS names 0, or a higher request is in
force. -/
def Dev.groupCommand (d : Dev) (g op sig : Nat) : Dev :=
  if !d.running .pgroup g || (op != 2 && d.get .PRT_GRP_CFG_n g < sig) || (op == 3 && sig == 0)
      || cmdCode op < d.topReq g then d.cmdRefuse g op
  else (d.setGroup g { d.group g with cmd := op, cmdSig := if op = 2 then 0 else sig }).groupEval g

/-- CLEAR: the command in force and a running WTR end. -/
def Dev.groupClear (d : Dev) (g : Nat) : Dev :=
  if d.running .pgroup g then
    let x := d.group g
    let d := if x.wtrAt.isSome then d.set .PRT_GRP_STAT_req_local g 0 else d
    (d.setGroup g { x with cmd := 0, cmdSig := 0, wtrAt := none
                           want := if x.wtrAt.isSome then 0 else x.want, changed := x.changed || x.wtrAt.isSome }).groupEval g
  else d.cmdRefuse g 1

/-- FREEZE and CLEAR_FREEZE: selection and transmitted APS stay, or may move again at the next decision. -/
def Dev.groupFreeze (d : Dev) (g : Nat) : Dev :=
  if d.running .pgroup g then d.set .PRT_GRP_STAT_frozen g 1 else d.cmdRefuse g 6

/-- CLEAR_FREEZE is refused where no FREEZE is in force. -/
def Dev.groupUnfreeze (d : Dev) (g : Nat) : Dev :=
  if d.running .pgroup g && d.bit .PRT_GRP_STAT_frozen g then
    (d.set .PRT_GRP_STAT_frozen g 0).setGroup g { d.group g with changed := true }
  else d.cmdRefuse g 7

def execClear (g : Group) (s : State) : Host.Outcome State Fault Refusal :=
  .next (s.onDev (·.commanded (·.groupClear g.val)))

def execLockoutOfProtection (g : Group) (s : State) : Host.Outcome State Fault Refusal :=
  .next (s.onDev (·.commanded (·.groupCommand g.val 2 0)))

def execForcedSwitch (g : Group) (sig : BitVec 4) (s : State) : Host.Outcome State Fault Refusal :=
  .next (s.onDev (·.commanded (·.groupCommand g.val 3 sig.toNat)))

def execManualSwitch (g : Group) (sig : BitVec 4) (s : State) : Host.Outcome State Fault Refusal :=
  .next (s.onDev (·.commanded (·.groupCommand g.val 4 sig.toNat)))

def execExercise (g : Group) (sig : BitVec 4) (s : State) : Host.Outcome State Fault Refusal :=
  .next (s.onDev (·.commanded (·.groupCommand g.val 5 sig.toNat)))

def execFreeze (g : Group) (s : State) : Host.Outcome State Fault Refusal :=
  .next (s.onDev (·.commanded (·.groupFreeze g.val)))

def execClearFreeze (g : Group) (s : State) : Host.Outcome State Fault Refusal :=
  .next (s.onDev (·.commanded (·.groupUnfreeze g.val)))

/-! ### Timers (R216) -/

/-- Whether a timer that runs from DTIME `at_` has reached n ns; one that a new owner has stopped has not. -/
def timeUp (at_ : Option Int) (now n : Nat) : Bool := match at_ with | some t => decide (t + n ≤ now) | none => false

/-- The least hold-off: 100 ms steps of DTIME, within 5 ms (R216). -/
def Dev.holdTime (d : Dev) (g : Nat) : Nat := d.get .PRT_GRP_TMR_holdoff g * 10 ^ 8 - 5 * 10 ^ 6

/-- The least WTR: 1 s steps of DTIME, within 100 ms (R216). -/
def Dev.wtrTime (d : Dev) (g : Nat) : Nat := d.get .PRT_GRP_TMR_wtr g * 10 ^ 9 - 10 ^ 8

/-- The hold-off timer expires, once its time has run: what is still present becomes a request. -/
def Dev.holdOffExpire (d : Dev) (g : Nat) : Dev :=
  let x := d.group g
  if d.bit .PRT_GRP_STAT_holdoff_run g && timeUp x.holdAt d.now (d.holdTime g) then
    ((d.set .PRT_GRP_STAT_holdoff_run g 0).setGroup g
      { x with effSf := x.rawSf, effSd := x.rawSd, holdAt := none }).groupEval g
  else d

def execHoldOffExpire (g : Group) (s : State) : Host.Outcome State Fault Refusal :=
  .next (s.onDev (·.holdOffExpire g.val))

/-- WTR elapses with no higher request, once its time has run: the group reverts. -/
def Dev.wtrExpire (d : Dev) (g : Nat) : Dev :=
  if d.bit .PRT_GRP_STAT_wtr_run g && timeUp (d.group g).wtrAt d.now (d.wtrTime g) then
    let x := d.group g
    ((d.set .PRT_GRP_STAT_req_local g 0).setGroup g { x with wtrAt := none, want := 0, changed := true }).groupEval g
  else d

def execWtrExpire (g : Group) (s : State) : Host.Outcome State Fault Refusal := .next (s.onDev (·.wtrExpire g.val))

/-! ### Selection, bridge and transmitted APS (R211, R214, R217–R219) -/

/-- The signal bridged to protection: 1 in a 1+1 group; else the signal of the highest request. -/
def Dev.bridgeOf (d : Dev) (g : Nat) : Nat :=
  if d.onePlusOne g then 1 else (d.group g).want

/-- The signal to select: the wanted one; in a 1:1 or 1:N group once the far end reports it bridged (G.873.1). -/
def Dev.selectOf (d : Dev) (g : Nat) : Nat :=
  let w := (d.group g).want
  if d.standby || d.onePlusOne g || w == 0 || (d.farReq g).2.2 == w then w else 0

/-- The transmitted APS bytes: request (RR where the far end prevails), type bits, requested and bridged signal. -/
def Dev.apsTx (d : Dev) (g : Nat) : Nat :=
  let x := d.group g
  let l := (d.get .PRT_GRP_STAT_req_local g, x.reqSig)
  let far := d.farReq g
  let wins := d.bidir g && farWins l (far.1, far.2.1)
  let code := if wins then 0x2 else l.1
  let sig := if wins then far.2.1 else l.2
  let ty := (if d.bit .PRT_GRP_CFG_aps_en g then 8 else 0) + (if d.onePlusOne g then 0 else 4)
    + (if d.get .PRT_GRP_CFG_type g == 0 then 0 else 2) + (if d.bit .PRT_GRP_CFG_revertive g then 1 else 0)
  code * 16 + ty + sig * 256 + d.bridgeOf g * 65536

/-- Group g of a standby takes command, requests and wanted selection from its mirror (R242). -/
def Dev.followMirror (d : Dev) (g : Nat) : Dev :=
  match (if d.standby then d.mirrorSel g else none) with
  | none => d
  | some e =>
    let d := ((d.setB .PRT_GRP_STAT_frozen g e.frozen).set .PRT_GRP_STAT_req_local g e.reqLocal.toNat).set
      .PRT_GRP_STAT_req_far g e.reqFar.toNat
    d.setGroup g { d.group g with cmd := e.cmd.toNat, cmdSig := e.cmdSig.toNat, want := e.selSig.toNat }

/-- Bridge and transmitted APS follow the decision (R217, R219); a standby has those of its mirror alone (R242). -/
def Dev.bridgeNow (d : Dev) (g : Nat) : Dev :=
  let put (br tx : Nat) : Dev :=
    let d := d.set .PRT_GRP_STAT_br_sig g br
    if d.bit .PRT_GRP_CFG_aps_en g then d.set .PRT_GRP_APS_TX_aps_tx g tx else d
  if !d.standby then put (d.bridgeOf g) (d.apsTx g)
  else match d.mirrorSel g with
    | some e => put e.brSig.toNat e.apsTx.toNat
    | none => d

/-- The selection of group g changes (R230 step 5, R236): counters, event 0x0901, the PROT record; `quality` 0 for a
verified hitless switch, 1 to 3 as R231, 5 for a group that is not hitless. -/
def Dev.selectNow (d : Dev) (g new quality : Nat) : Dev :=
  let old := d.get .PRT_GRP_STAT_sel_sig g
  let d := ((d.set .PRT_GRP_STAT_sel_sig g new).bump .PRT_GRP_SW_sw_cnt g 1).set .PRT_GRP_EVT_switched g 1
  let d := d.setGroup g { d.group g with decided := none }
  let d := d.raise 0x0901 (g + new * 4096)
  let d := match quality with
    | 0 => d.bump .PRT_GRP_SW_sw_hitless g 1
    | 1 => d.bump .PRT_GRP_SWQ_sw_unver g 1
    | 2 => d.bump .PRT_GRP_SWQ_sw_plain g 1
    | _ => d
  let q := if quality = 5 then 0 else quality
  let d := if q = 0 then d else (d.set .PRT_GRP_EVT_not_hitless g 1).raise 0x0902 (g + q * 4096)
  d.record 0x06 d.dtime
    (leBytes 2 g ++ [BitVec.ofNat 8 (new + old * 16), BitVec.ofNat 8 (q + d.get .PRT_ALN_STAT_aln_state g * 8),
      BitVec.ofNat 8 (d.get .PRT_GRP_STAT_req_local g + d.get .PRT_GRP_STAT_req_far g * 16), 0, 0, 0]
      ++ leBytes 4 (d.get .PRT_ALN_OFFSET_delta g) ++ leBytes 4 (d.get .PRT_ALN_DELAY_delay_ns g))

/-- dFOP-PM, CM, NR and TO of group g: a change sets fop_chg and raises event 0x0909 (R217). -/
def Dev.setFop (d : Dev) (g fop : Nat) : Dev :=
  if fop = d.get .PRT_GRP_STAT_fop g then d
  else ((d.set .PRT_GRP_STAT_fop g fop).set .PRT_GRP_EVT_fop_chg g 1).raise 0x0909 (g + fop * 2048)

/-- Whether the far end has answered group g: in a 1:1 or 1:N group it bridges the signal requested, in a bidirectional 1+1
group it requests the same (G.873.1). -/
def Dev.farAnswers (d : Dev) (g : Nat) : Bool :=
  let sent := d.get .PRT_GRP_APS_TX_aps_tx g / 256 % 256
  let far := d.farReq g
  (if d.onePlusOne g then far.2.1 else far.2.2) == sent

/-- dFOP-NR and dFOP-TO of group g, judged with the C1 work of its protection member: the far end has not answered for 50 ms,
and no APS has been accepted for 17.5 s (log entry 73). Neither is judged while the member is in SF. -/
def Dev.fopTimes (d : Dev) (g : Nat) (received : Bool) : Dev :=
  let x := d.group g
  let sf := d.memberSf g 0
  let wait := d.bidir g && !sf && !d.farAnswers g
  let x := { x with apsAt := if received || sf then d.now else x.apsAt
                    nrAt := if wait then some (x.nrAt.getD d.now) else none }
  let d := d.setGroup g x
  let fop := d.get .PRT_GRP_STAT_fop g
  d.setFop g (putBit (putBit fop 2 (timeUp x.nrAt d.now (5 * 10 ^ 7))) 3 (timeUp (some x.apsAt) d.now 17500000000))

/-- Accepted APS bytes reach group g (R217): the far-end request and dFOP-PM, whose type bit disagrees; APS accepted on a
working member is dFOP-CM. A standby decides nothing by them (R242). -/
def Dev.apsDeliver (d : Dev) (g place v : Nat) : Dev :=
  let fop := d.get .PRT_GRP_STAT_fop g
  let fop' :=
    if place = 0 then putBit fop 0 ((v.testBit 2) == d.onePlusOne g)
    else putBit fop 1 (v % 256 / 16 != 0)
  let d := if place = 0 then d.set .PRT_GRP_APS_RX_aps_rx g v else d
  let d := d.setFop g fop'
  if d.standby then d
  else
    let d := d.groupEval g
    d.setGroup g { d.group g with changed := true }

end Sys2Proof.Machine
end

