-- ==== Sys2Proof/Machine/Hitless.lean ====
section
/-!
DEFINITION. Hitless alignment (chapter 09): the conditions of R220 and the budget of R233, the writer and the late
boundary of each frame tick, probes, laps, the alignment states of R228, and the switch instant.
-/
namespace Sys2Proof.Machine

/-! ### Dependencies and budget (R220, R233) -/

/-- Whether group g is configured hitless: a 1+1 ODU-level group (R209). -/
def Dev.hlCfg (d : Dev) (g : Nat) : Bool :=
  d.bit .PRT_GRP_CFG_en g && d.bit .PRT_GRP_CFG_hitless g && d.get .PRT_GRP_CFG_type g < 2 && !d.bit .PRT_GRP_CFG_level g

/-- The enabled DELAY queue of group g (R220). -/
def Dev.delayQueue (d : Dev) (g : Nat) : Option Nat :=
  (d.listed .CPL_Q_CFG).find? (fun i =>
    d.bit .CPL_Q_CFG_en i && d.get .CPL_Q_CFG_owner_kind i == 1 && d.get .CPL_Q_CFG_owner_idx i == g)

/-- The frame of group g's kind as (bits, bit/s). -/
def Dev.hlFrame (d : Dev) (g : Nat) : Nat × Nat := d.srcFrame (d.memberSrc g 1)

/-- The nominal rate of a kind in bit/s, which a hitless group charges (R124, R233). -/
def kindRate (kind s : Nat) : Nat :=
  match kind with
  | 1 => 1244160000 | 2 => 10037300000 | 3 => 10399500000 | 4 => 104794000000 | _ => s * 5156250000 * 239 / 238

/-- The nominal rate of group g. -/
def Dev.hlRate (d : Dev) (g : Nat) : Nat :=
  let t := srcIdx (d.memberSrc g 1)
  kindRate (d.kind t) (d.get .ODU_CFG_flex_s t)

/-- The hitless budget in Gbit/s: 10 times the pin rate of every live site (R233). -/
def Dev.hlBudget (d : Dev) : Nat :=
  (List.range 16).foldl (fun n k =>
    if (d.get .CPL_POOL_STAT_sites_live 0).testBit k then n + 10 * d.get .CPL_SITE_STAT_pin_rate k else n) 0

/-- The RUN hitless groups in ascending g. -/
def Dev.hlGroups (d : Dev) : List Nat := (d.listed .PRT_GRP_CFG).filter (fun g => d.hlCfg g && d.running .pgroup g)

/-- The groups admitted in ascending g within the budget, and their charge in bit/s (R233). -/
def Dev.hlAdmit (d : Dev) : List Nat × Nat :=
  d.hlGroups.foldl (fun (a : List Nat × Nat) g =>
    if a.2 + d.hlRate g ≤ d.hlBudget * 10 ^ 9 then (a.1 ++ [g], a.2 + d.hlRate g) else a) ([], 0)

/-- The condition of R220 that fails, as a cause: 1 a dependency, 8 the budget, 0 none. -/
def Dev.hlFails (d : Dev) (g : Nat) : Nat :=
  if !(d.hlCfg g && d.running .pgroup g) then 1
  else match d.delayQueue g with
    | none => 1
    | some q =>
      if !(d.running .queue q && d.bit .CPL_POOL_STAT_pool_ready 0) then 1
      else if d.hlAdmit.1.contains g then 0 else 8

/-- The alignment state: 0 OFF, 1 UNALIGNED, 2 ALIGNED, 3 RECAL, 4 BLIND. -/
def Dev.hlState (d : Dev) (g : Nat) : Nat := d.get .PRT_ALN_STAT_aln_state g

/-- Event 0x0904 of a cause. -/
def Dev.hlLostEvent (d : Dev) (g cause : Nat) : Dev := d.raise 0x0904 (g + cause * 4096)

/-- Any state to OFF (R228): unseated, with the cause. -/
def Dev.hlOff (d : Dev) (g cause : Nat) : Dev :=
  let was := d.hlState g
  let d := (((((d.set .PRT_ALN_STAT_aln_state g 0).set .PRT_ALN_STAT_seated g 0).set .PRT_ALN_STAT_pending g 0).set
    .PRT_ALN_STAT_cause g cause).set .PRT_ALN_STAT_mm_run g 0).set .PRT_ALN_STAT_lap_active g 0
  let d := d.setGroup g { d.group g with probe := none, cand := none, confirmed := none, matchRun := 0 }
  if was = 0 then d else (d.set .PRT_GRP_EVT_aln_chg g 1).hlLostEvent g cause

/-- OFF to UNALIGNED (R221, R228): the frame counts start at the queue's wr. -/
def Dev.hlEnter (d : Dev) (g q : Nat) : Dev :=
  let x := d.group g
  let d := (d.set .PRT_ALN_STAT_aln_state g 1).set .PRT_ALN_STAT_early_path g (d.get .CPL_Q_CFG_owner_path q)
  d.setGroup g { x with
    fe := 0, fl := 0, w0 := d.qWr q, wbuf := [], early := [], late := [], probe := none, cand := none, confirmed := none
    matchRun := 0, blindRun := 0, expired := 0, lapERun := 0, lapLRun := 0, lapEOk := false, lapLOk := false
    unverified := false, causes := 0, lateSigs := [], lapOver := false, actAt := none, dlv := none, bad := []
    rdRun := 0, rdNext := 0 }

/-- Group g meets, or stops meeting, the conditions of R220; event 0x090A once where the budget leaves it over. -/
def Dev.hlOne (d : Dev) (g : Nat) : Dev :=
  match d.hlFails g with
  | 0 =>
    if d.hlState g = 0 then match d.delayQueue g with
      | some q => d.hlEnter g q
      | none => d
    else d
  | cause =>
    let x := d.group g
    let off := d.hlState g != 0
    let d := if off then d.hlOff g cause
      else if d.hlCfg g && d.running .pgroup g then d.set .PRT_ALN_STAT_cause g cause else d
    if cause = 8 && !x.causes.testBit 8 then (d.setGroup g { d.group g with causes := 256 }).raise 0x090A g
    else if cause = 8 then d
    else d.setGroup g { d.group g with causes := 0 }

/-- The conditions of R220 are judged again for every group: after a change of a queue's or group's state, of pool_ready
or of the live sites. -/
def Dev.hitlessEval (d : Dev) : Dev :=
  let d := (d.listed .PRT_GRP_CFG).foldl (fun d g => if d.hlCfg g || d.hlState g != 0 then d.hlOne g else d) d
  let used := d.hlGroups.foldl (fun n g => n + d.hlRate g) 0
  (d.set .PRT_HL_BUDGET_budget 0 d.hlBudget).set .PRT_HL_BUDGET_used 0 ((used + 10 ^ 9 - 1) / 10 ^ 9)

/-! ### Delay figures (R232) -/

/-- Cells needed for a delay of n ns (R232). -/
def Dev.hlNeed (d : Dev) (g q n : Nat) : Nat :=
  (n * d.hlRate g + 3584 * 10 ^ 9 - 1) / (3584 * 10 ^ 9) + 35 + d.get .CPL_Q_LAG_lag q + 16

/-- Whether lap mode is in use (R228); beyond the lap limit an AUTO group aligns by signatures (R232). -/
def Dev.hlLap (d : Dev) (g : Nat) : Bool :=
  match d.get .PRT_GRP_CFG_align_mode g with
  | 1 => true
  | 2 => (d.group g).lapEOk && (d.group g).lapLOk && !(d.group g).lapOver
  | _ => false

/-- Whether a delay of n ns reaches the lap limit, 65,535 frame periods (R232). -/
def Dev.lapLimit (d : Dev) (g n : Nat) : Bool := decide (65535 * (d.hlFrame g).1 * 10 ^ 9 ≤ n * (d.hlFrame g).2)

/-- The limit that a delay of n ns breaks: 6 below d_min, 9 beyond dmax or in LAP mode the lap limit, 4 need above quota, 0
none. -/
def Dev.hlLimit (d : Dev) (g q n : Nat) : Nat :=
  let r := d.hlRate g
  if n * r < 2 * 3584 * 10 ^ 9 + 200 * r then 6
  else if d.get .PRT_GRP_ALN_dmax g * 100000 < n || (d.get .PRT_GRP_CFG_align_mode g = 1 && d.lapLimit g n) then 9
  else if d.get .CPL_Q_QUOTA_quota q < d.hlNeed g q n then 4 else 0

/-- D of a late frame: delay_ns, dmin_ns, dmax_ns, need and need_over (R221, R235), and whether laps can tell it (R232). -/
def Dev.hlMeasure (d : Dev) (g q n : Nat) : Dev :=
  let need := d.hlNeed g q n
  let v := min n (2 ^ 32 - 1)
  let d := d.setGroup g { d.group g with lapOver := d.lapLimit g n }
  ((((d.set .PRT_ALN_DELAY_delay_ns g v).set .PRT_ALN_DMIN_dmin_ns g (min v (d.get .PRT_ALN_DMIN_dmin_ns g))).set
    .PRT_ALN_DMAX_dmax_ns g (max v (d.get .PRT_ALN_DMAX_dmax_ns g))).set .PRT_ALN_NEED_need g (min need (2 ^ 30 - 1))).setB
    .PRT_ALN_STAT_need_over g (d.get .CPL_Q_QUOTA_quota q < need)

/-! ### Frames (R221, R222, R225) -/

/-- Δ in frames. -/
def Dev.hlDelta (d : Dev) (g : Nat) : Int := sx 32 (d.get .PRT_ALN_OFFSET_delta g)

/-- p(fe): the position of the first cell of early frame fe (R221). -/
def GroupSt.pos (x : GroupSt) (fe : Nat) : Word := x.w0 + BitVec.ofNat 32 (239 * fe / 7)

/-- One past the position of the last cell of early frame fe. -/
def GroupSt.posEnd (x : GroupSt) (fe : Nat) : Word := x.w0 + BitVec.ofNat 32 ((239 * (fe + 1) + 6) / 7)

/-- Early frame number i, while it is remembered. -/
def GroupSt.earlyAt (x : GroupSt) (i : Int) : Option FrameSig :=
  if i < 0 then none else if x.fe ≤ i.toNat then none else x.early[x.fe - 1 - i.toNat]?

/-- Every cell of early frame e has been written and lies at or after rel, and the mark is valid (R229). -/
def Dev.hlCells (d : Dev) (q : Nat) (x : GroupSt) (e : Int) : Bool :=
  if e < 0 then false
  else
    let off := (x.pos e.toNat - d.qRel q).toNat
    let len := (x.posEnd e.toNat - x.pos e.toNat).toNat
    d.bit .CPL_Q_STAT_mark_valid q && decide (off + len ≤ d.qOcc q)

/-- Whether the delayed (early) member is selected. -/
def Dev.hlEarlySel (d : Dev) (g : Nat) : Bool := d.get .PRT_GRP_STAT_sel_sig g == d.get .PRT_ALN_STAT_early_path g

/-- A run of advances (positive) or of breaks (negative) of L (R224). -/
def lapStep (run : Int) (prev : Option FrameSig) (f : FrameSig) : Int :=
  let adv := match prev with
    | some p => p.inFrame && f.inFrame && f.lap == (p.lap + 1) % 65536
    | none => false
  if adv then max run 0 + 1 else min run 0 - 1

/-- ODU-AIS of one frame of 15,296 bytes: the frame alignment overhead kept, all-ones otherwise (G.709). -/
def oduAis (mfas : Byte) : List Byte :=
  [0xF6, 0xF6, 0xF6, 0x28, 0x28, 0x28, mfas, 0, 0, 0, 0, 0, 0, 0] ++ List.replicate 15282 0xFF

/-- 15,296 bytes of a frame. -/
def frameBytes (bs : List Byte) : List Byte := (bs ++ List.replicate 15296 0).take 15296

/-- Push every whole cell of the bytes; what is left over. -/
def State.pushCells (s : State) (q : Nat) (bytes : List Byte) : State × List Byte :=
  let n := bytes.length / 448
  ((List.range n).foldl (fun s j => s.push q ((bytes.drop (448 * j)).take 448)) s, bytes.drop (448 * n))

/-- An early frame is written (R221), and, unseated, the mark keeps quota − 128 cells of history (R222). -/
def State.hlEarly (s : State) (g q : Nat) (f : FrameSig) (mfas : Byte) (frame : List Byte) : State :=
  let x := s.dev.group g
  let bytes := x.wbuf ++ (if f.inFrame then frameBytes frame else oduAis mfas)
  let (s, rest) := s.pushCells q bytes
  let fr := s.dev.hlFrame g
  let keep := s.dev.get .PRT_GRP_ALN_dmax g * 100000 * fr.2 / (fr.1 * 10 ^ 9) + 64
  let run := lapStep x.lapERun x.early.head? f
  let s := s.onDev (fun d => d.setGroup g
    { x with fe := x.fe + 1, wbuf := rest, early := (f :: x.early).take keep, lapERun := run })
  if s.dev.bit .PRT_ALN_STAT_seated g then s
  else s.onDev (fun d =>
    let back := d.get .CPL_Q_QUOTA_quota q - 128
    d.qMarkAt q (if d.qOcc q ≤ back then d.qRel q else d.qWr q - BitVec.ofNat 32 back))

/-- Alignment lost (R228): UNALIGNED with its cause, event 0x0904. -/
def Dev.hlLose (d : Dev) (g cause : Nat) : Dev :=
  let d := (((((d.set .PRT_ALN_STAT_aln_state g 1).set .PRT_ALN_STAT_seated g 0).set .PRT_ALN_STAT_pending g 0).set
    .PRT_ALN_STAT_cause g cause).set .PRT_ALN_STAT_mm_run g 0).set .PRT_GRP_EVT_aln_chg g 1
  (d.setGroup g { d.group g with cand := none, confirmed := none, matchRun := 0, expired := 0, causes := 0 }).hlLostEvent
    g cause

/-- A cause recorded in UNALIGNED: event 0x0904 once per cause (R228). -/
def Dev.hlNote (d : Dev) (g cause : Nat) : Dev :=
  let x := d.group g
  let d := d.set .PRT_ALN_STAT_cause g cause
  if x.causes.testBit cause then d
  else (d.setGroup g { x with causes := putBit x.causes cause true }).hlLostEvent g cause

/-- A frame's cells in the queue carry no poison (R201: such a frame is delivered as ODU-AIS). -/
def State.hlIntact (s : State) (q : Nat) (x : GroupSt) (e : Nat) : Bool :=
  let off := (x.pos e - s.dev.qRel q).toNat
  let len := (x.posEnd e - x.pos e).toNat
  (((s.pool.queue q).cells.drop off).take len).all (fun c => !(s.pool.hdr c).poison)

/-- Whether member j of group g has aTSF at its monitored level; level 1 under SNC/I (R227). -/
def Dev.hlTsf (d : Dev) (g j : Nat) : Bool :=
  d.atsf (d.memberSrc g j) (if d.bit .PRT_GRP_CFG_snc g then d.get .PRT_GRP_CFG_mon_lvl g else 1)

/-- Late frame f against early frame number e (R227): none where not verifiable, else whether they match. -/
def State.hlJudge (s : State) (g q : Nat) (x : GroupSt) (f : FrameSig) (e : Int) (distinct : Bool) : Option Bool :=
  match x.earlyAt e with
  | none => none
  | some y =>
    let lap := s.dev.hlLap g
    if f.inFrame && y.inFrame && f.clean && y.clean && !s.dev.hlTsf g 0 && !s.dev.hlTsf g 1
        && (lap || distinct) && s.hlIntact q x e.toNat then
      some (if lap then f.lap == y.lap else f.sig == y.sig)
    else none

/-- Frames lost or repeated (R231, R235). -/
def Dev.hlHit (d : Dev) (g n : Nat) : Dev := d.bump .PRT_GRP_HIT_hit_frames g n

/-- Δ := Δ' by a correction: corr_cnt, event 0x0905; the group is ALIGNED with no correction waiting (R228, R231). -/
def Dev.hlCorrect (d : Dev) (g : Nat) (delta : Int) : Dev :=
  let d := (((d.set .PRT_ALN_OFFSET_delta g (un 32 delta)).bump .PRT_ALN_CNT2_corr_cnt g 1).set .PRT_ALN_STAT_pending g
    0).set .PRT_ALN_STAT_aln_state g 2
  let d := (d.set .PRT_ALN_STAT_mm_run g 0).setGroup g { d.group g with confirmed := none, matchRun := 0, cand := none }
  (d.set .PRT_GRP_EVT_corrected g 1).raise 0x0905 g

/-- MARK_AT p(e) and REWIND of the delay queue; unseated where the position has been released (R195, R230). The boundary
is then taken for other actions (R231). -/
def Dev.hlReseat (d : Dev) (g q : Nat) (e : Int) : Dev :=
  let x := d.group g
  let d := d.setGroup g { x with actAt := some (x.fl - 1) }
  if d.hlCells q x e then ((d.qMarkAt q (x.pos e.toNat)).qRewind q).set .PRT_ALN_STAT_seated g 1
  else d.set .PRT_ALN_STAT_seated g 0

/-- A first seat; with the delayed member selected it repeats the delay's whole frames: quality 4 (R231). -/
def Dev.hlSeat (d : Dev) (g q : Nat) (e : Int) : Dev :=
  let d := d.hlReseat g q e
  if d.hlEarlySel g then
    let f := d.hlFrame g
    let n := d.get .PRT_ALN_DELAY_delay_ns g * f.2 / (f.1 * 10 ^ 9)
    ((d.hlHit g n).set .PRT_GRP_EVT_not_hitless g 1).raise 0x0902 (g + 4 * 4096)
  else d

/-- The runs of matches and mismatches take up a verdict (R227, R228). -/
def Dev.hlRuns (d : Dev) (g : Nat) (v : Option Bool) : Dev :=
  let x := d.group g
  match v with
  | none => d
  | some true => (d.set .PRT_ALN_STAT_mm_run g 0).setGroup g { x with matchRun := x.matchRun + 1 }
  | some false =>
    ((d.set .PRT_ALN_STAT_mm_run g (min (d.get .PRT_ALN_STAT_mm_run g + 1) 8)).bump .PRT_ALN_CNT2_mm_cnt g 1).setGroup g
      { x with matchRun := 0 }

/-- The aligned group at late boundary fl (R222, R228, R229): loss of the mark, a due correction, D and its limits, the
seat or the mark, the frame delivered, verification. A correction or first seat gives way to a switch that is asked for
(R231). -/
def State.hlAligned (s : State) (g q : Nat) (f : FrameSig) (fl : Nat) (distinct : Bool) : State :=
  if !s.dev.bit .CPL_Q_STAT_mark_valid q then s.onDev (·.hlLose g 3)
  else
    let s := s.onDev (fun d =>
      let x := d.group g
      match x.confirmed with
      | some dl =>
        if d.bit .PRT_ALN_STAT_seated g && !d.hlEarlySel g && !x.changed && x.decided.isNone
            && d.hlCells q x ((fl : Int) - d.hlDelta g) && d.hlCells q x ((fl : Int) - dl) then
          (d.hlCorrect g dl).hlReseat g q ((fl : Int) - dl)
        else d
      | none => d)
    let x := s.dev.group g
    let e := (fl : Int) - s.dev.hlDelta g
    let (s, lim) := match x.earlyAt e with
      | none => (s, 0)
      | some y =>
        let n := f.at_.toNat - y.at_.toNat
        (s.onDev (·.hlMeasure g q n), s.dev.hlLimit g q n)
    if lim != 0 then s.onDev (·.hlLose g lim)
    else
      let s := s.onDev (fun d =>
        if d.bit .PRT_ALN_STAT_seated g then (if e < 0 then d else d.qMarkAt q (x.pos e.toNat))
        else if !x.changed && x.decided.isNone && d.hlCells q x e then d.hlSeat g q e else d)
      if s.dev.bit .PRT_ALN_STAT_seated g then
        let s := s.onDev (fun d => if e < 0 then d else d.setGroup g { d.group g with dlv := some e.toNat })
        let v := s.hlJudge g q x f e distinct
        s.onDev (·.hlRuns g v)
      else s

/-- The latest early frame that carries L, as its number (R224). -/
def GroupSt.earlyLap (x : GroupSt) (l : Nat) : Option Nat :=
  (x.early.findIdx? (fun y => y.inFrame && y.lap == l)).map (fun i => x.fe - 1 - i)

/-- Candidate offsets at late boundary fl (R224, R228): a candidate's matches count on, a mismatch drops it; in lap mode
the late L names the candidate, and a late lap ahead of the early lap is cause 5. -/
def State.hlSearch (s : State) (g q : Nat) (f : FrameSig) (fl : Nat) (distinct : Bool) : State :=
  let x := s.dev.group g
  let cand := match x.cand with
    | none => none
    | some (dl, n) =>
      match s.hlJudge g q x f ((fl : Int) - dl) distinct with
      | none => some (dl, n)
      | some true => some (dl, n + 1)
      | some false => none
  let both := x.lapEOk && x.lapLOk
  if s.dev.hlLap g && both && f.inFrame then
    match x.earlyLap f.lap with
    | some e =>
      let dl : Int := (fl : Int) - (e : Int)
      let c := match cand with
        | some (o, n) => if o = dl then (o, n) else (dl, 0)
        | none => (dl, 0)
      s.onDev (fun d => d.setGroup g { x with cand := some c })
    | none =>
      let ahead := match x.early.head? with
        | some y => (f.lap + 65536 - y.lap) % 65536
        | none => 0
      s.onDev (fun d =>
        let d := d.setGroup g { x with cand := cand }
        if d.hlState g = 1 && 0 < ahead && ahead < 32768 then d.hlNote g 5 else d)
  else s.onDev (fun d => d.setGroup g { x with cand := cand })

/-- A late frame boundary (R222, R225–R228). -/
def State.hlLate (s : State) (g q : Nat) (f : FrameSig) : State :=
  let x := s.dev.group g
  let fl := x.fl
  let distinct := f.inFrame && !x.lateSigs.contains f.sig
  let s := s.onDev (fun d => d.setGroup g
    { x with fl := fl + 1, late := (f :: x.late).take 64, lateSigs := if f.inFrame then (f.sig :: x.lateSigs).take 15 else x.lateSigs
             lapLRun := lapStep x.lapLRun x.late.head? f
             blindRun := if !f.inFrame then x.blindRun else if distinct then 0 else x.blindRun + 1
             probe := x.probe.map (fun p => { p with late := p.late + 1 }) })
  let s := if 2 ≤ s.dev.hlState g then s.hlAligned g q f fl distinct else s
  if s.dev.hlState g = 1 || s.dev.hlState g = 3 then s.hlSearch g q f fl distinct else s

/-- A frame tick of source k reaches the hitless groups it is a member of (R221, R222). -/
def State.hlTick (s : State) (k : Nat) (inFrame : Bool) (fly : Nat) (rx : FrameRx) : State :=
  (s.dev.groupsOf k).foldl (fun s e =>
    let g := e.1
    if s.dev.hlState g = 0 then s
    else match s.dev.delayQueue g with
      | none => s
      | some q =>
        let f : FrameSig :=
          { sig := s.dev.rxSig k rx, lap := 256 * (byteAt rx.oh (s.dev.get .PRT_GRP_ALN_lap_pos g)).toNat + fly, inFrame := inFrame
            clean := violations false rx.bytes 1 == 0, at_ := s.dev.dtime }
        let early := (e.2 == 0) == s.dev.bit .PRT_ALN_STAT_early_path g
        let s := if early then s.hlEarly g q f (BitVec.ofNat 8 fly) rx.frame else s.hlLate g q f
        s.onDev (fun d => d.setB .PRT_ALN_STAT_lap_active g (d.hlLap g && d.hlState g != 0))) s

/-! ### The reader (R191, R194, R201, R222) -/

/-- The group whose reader reads DELAY queue i: one that is not OFF (R220). -/
def Dev.delayGroup (d : Dev) (i : Nat) : Option Nat :=
  let g := d.get .CPL_Q_CFG_owner_idx i
  if d.get .CPL_Q_CFG_owner_kind i == 1 && d.hlState g != 0 && d.delayQueue g == some i then some g else none

/-- Whether the reader of group g has read 8 cells beyond the frame it delivers: seated, it reads no further (R222). -/
def Dev.readAhead (d : Dev) (g i : Nat) : Bool :=
  let x := d.group g
  let e := (x.fl : Int) - 1 - d.hlDelta g
  d.bit .PRT_ALN_STAT_seated g && (decide (e < 0) || !(d.qRd i - x.posEnd e.toNat).toInt < 8)

/-- The number of the cell at position p, counted from w0; none before w0 (R221). -/
def GroupSt.cellNo (x : GroupSt) (p : Word) : Option Nat :=
  let n := x.fe * 15296 / 448
  let back := (x.w0 + BitVec.ofNat 32 n - p).toNat
  if back ≤ n then some (n - back) else none

/-- The reader has read cell c: where it does not follow on, delivery begins again with the first frame that starts in or
after it (R194); the frames with a byte in a poisoned cell are delivered as ODU-AIS (R201); unseated, the frame that the
cell ends is delivered at once (R222). -/
def GroupSt.readCell (x : GroupSt) (c : Nat) (poison seated : Bool) : GroupSt :=
  let run := if c = x.rdNext then x.rdRun else c
  let hit := if poison then [448 * c / 15296, (448 * c + 447) / 15296].eraseDups else []
  let ends := 448 * (c + 1) / 15296
  let whole := decide (448 * c / 15296 < ends) && decide (448 * run ≤ 15296 * (ends - 1))
  { x with rdRun := run, rdNext := c + 1, bad := (hit ++ x.bad).take 64
           dlv := if !seated && whole then some (ends - 1) else x.dlv }

/-- POP of a DELAY queue by the reader of its group: none where it is 8 cells ahead. -/
def State.delayPop (s : State) (g i : Nat) (r : CellRead) : State × Option (Nat × Bool) :=
  if s.dev.readAhead g i then (s, none)
  else
    let p := s.dev.qRd i
    let (s, o) := s.pop i r
    match o, (s.dev.group g).cellNo p with
    | some (ptr, poison), some c =>
      (s.onDev (fun d => d.setGroup g ((d.group g).readCell c poison (d.bit .PRT_ALN_STAT_seated g))), some (ptr, poison))
    | o, _ => (s, o)

/-- POP of queue i by its consumer. -/
def State.readPop (s : State) (i : Nat) (r : CellRead) : State × Option (Nat × Bool) :=
  match s.dev.delayGroup i with
  | some g => s.delayPop g i r
  | none => s.pop i r

def execPop (q : Queue) (r : CellRead) (s : State) : Host.Outcome State Fault Refusal := .next (s.readPop q.val r).1

/-- A stalled consumer finds a cell (R191); the host port takes the cell it waited for. -/
def State.popResume (s : State) (i : Nat) (r : CellRead) : State :=
  if s.dev.bit .CPL_Q_STAT_cons_wait i && s.dev.running .queue i && s.dev.qDepth i != 0 then
    let host := s.dev.get .CPL_Q_CFG_owner_kind i == 0 && s.dev.hostOn i
    let (s, o) := s.readPop i r
    if host then s.hostTake o else s
  else s

def execPopResume (q : Queue) (r : CellRead) (s : State) : Host.Outcome State Fault Refusal :=
  .next (s.popResume q.val r)

/-- Whether the frame that hitless group g delivers is ODU-AIS, where its delayed member is selected: written as such from a
tick out of frame, or read with a poisoned cell (R201, R221). -/
def Dev.delayedAis (d : Dev) (g : Nat) : Option Bool :=
  let x := d.group g
  if !(d.hlCfg g && d.hlEarlySel g && d.hlState g != 0) then none
  else x.dlv.map (fun e => x.bad.contains e || (match x.earlyAt e with | some y => !y.inFrame | none => false))

/-! ### The source port's lap count (R223) -/

/-- A source port passes a frame: the high byte starts at 0 and increments where MFAS wraps from 255 to 0. -/
def Dev.lapTick (d : Dev) (p : Nat) (mfas : Byte) : Dev :=
  if d.bit .PRT_LAP_TX_lap_en p then
    let l : LapSt := match Table.find d.laps p with
      | none => ⟨0, mfas⟩
      | some l => ⟨if mfas == 0 && l.mfas == 255 then l.high + 1 else l.high, mfas⟩
    { d with laps := Table.ins d.laps p l }
  else d

/-- The lap count of port p starts again (R223). -/
def Dev.lapStart (d : Dev) (p : Nat) : Dev := { d with laps := Table.del d.laps p }

/-! ### Laps and probes (R224, R226) -/

/-- The lap of a member becomes valid after 3 advances, or invalid after 3 breaks; in LAP mode an invalid lap records
cause 7. -/
def Dev.lapValid (d : Dev) (g : Nat) (late valid : Bool) : Dev :=
  let x := d.group g
  let run := if late then x.lapLRun else x.lapERun
  if d.hlState g = 0 || !(if valid then decide (3 ≤ run) else decide (run ≤ -3)) then d
  else
    let x := if late then { x with lapLOk := valid } else { x with lapEOk := valid }
    let d := d.setGroup g x
    let d := d.setB .PRT_ALN_STAT_lap_active g (d.hlLap g)
    if !valid && d.get .PRT_GRP_CFG_align_mode g = 1 then d.set .PRT_ALN_STAT_cause g 7 else d

def execLapValid (g : Group) (late valid : Bool) (s : State) : Host.Outcome State Fault Refusal :=
  .next (s.onDev (·.lapValid g.val late valid))

/-- The 16 newest frames of a list, oldest first, from place j on. -/
def window16 (l : List FrameSig) (j : Nat) : List FrameSig := ((l.drop j).take 16).reverse

/-- R226 step 1: a probe of the 16 newest early frames, which pass its tests. -/
def Dev.probeTaken (d : Dev) (g : Nat) : Dev :=
  let x := d.group g
  let w := window16 x.early 0
  let sigs := w.map (·.sig)
  if d.hlState g != 0 && !d.hlLap g && x.probe.isNone && w.length == 16 && w.all (fun y => y.inFrame && y.clean)
      && decide (12 ≤ sigs.eraseDups.length) then
    d.setGroup g { x with probe := some ⟨sigs, x.fe - 16, 0⟩ }
  else d

def execProbeTaken (g : Group) (s : State) : Host.Outcome State Fault Refusal := .next (s.onDev (·.probeTaken g.val))

/-- Whether the 16 frames at place j of a list show the probe. -/
def shows (p : Probe) (l : List FrameSig) (j : Nat) : Bool := (window16 l j).map (·.sig) == p.sigs

/-- R226 step 2: 16 consecutive late frames equal the probe; the candidate offset. -/
def Dev.probeFound (d : Dev) (g : Nat) : Dev :=
  let x := d.group g
  match x.probe with
  | none => d
  | some p =>
    if d.hlState g != 0 && shows p x.late 0 then
      (d.setGroup g { x with probe := none, cand := some ((x.fl : Int) - 16 - (p.fe : Int), 0) }).bump
        .PRT_ALN_CNT_probe_ok g 1
    else d

def execProbeFound (g : Group) (s : State) : Host.Outcome State Fault Refusal := .next (s.onDev (·.probeFound g.val))

/-- R226 step 3: the early member shows the probe again, or the late member shows it at two starts less than 16 apart. -/
def Dev.probeAmbiguous (d : Dev) (g : Nat) : Dev :=
  let x := d.group g
  match x.probe with
  | none => d
  | some p =>
    let again := decide (p.fe + 16 < x.fe) && shows p x.early 0
    let twice := shows p x.late 0 && (List.range 15).any (fun j => shows p x.late (j + 1))
    if again || twice then (d.setGroup g { x with probe := none }).bump .PRT_ALN_CNT_probe_amb g 1 else d

def execProbeAmbiguous (g : Group) (s : State) : Host.Outcome State Fault Refusal :=
  .next (s.onDev (·.probeAmbiguous g.val))

/-- R226 step 4: the probe's limit ⌈dmax × 0.1 ms ÷ P⌉ + 16 in late frames. -/
def Dev.probeLimit (d : Dev) (g : Nat) : Nat :=
  let f := d.hlFrame g
  (d.get .PRT_GRP_ALN_dmax g * f.2 + f.1 * 10000 - 1) / (f.1 * 10000) + 16

/-- R226 step 4, R228: the probe expires; in RECAL two expired probes without a confirmed offset lose the alignment. -/
def Dev.probeExpire (d : Dev) (g : Nat) : Dev :=
  let x := d.group g
  match x.probe with
  | none => d
  | some p =>
    if p.late < d.probeLimit g then d
    else
      let d := d.setGroup g { x with probe := none, expired := x.expired + 1 }
      if d.hlState g = 3 && x.confirmed.isNone && 1 ≤ x.expired then d.hlLose g 2 else d

def execProbeExpire (g : Group) (s : State) : Host.Outcome State Fault Refusal := .next (s.onDev (·.probeExpire g.val))

/-! ### Alignment states (R228, R231) -/

/-- The first confirmation after an unverified switch counts its frames (R231). -/
def Dev.hlConfirmed (d : Dev) (g : Nat) (dl : Int) : Dev :=
  let x := d.group g
  let d := if x.unverified && dl ≠ d.hlDelta g then d.hlHit g (dl - d.hlDelta g).natAbs else d
  d.setGroup g { d.group g with unverified := false, expired := 0 }

/-- R228: 8 verifiable frames have matched under the candidate; one that laps gave is dropped where D is beyond what laps can
tell (R232). -/
def Dev.alignConfirm (d : Dev) (g : Nat) : Dev :=
  let x := d.group g
  match x.cand, d.delayQueue g with
  | some (dl, n), some q =>
    if n < 8 then d
    else
      let d := d.setGroup g { x with cand := none }
      match d.hlState g with
      | 1 =>
        match x.late.head?, x.earlyAt ((x.fl : Int) - 1 - dl) with
        | some f, some y =>
          let ns := f.at_.toNat - y.at_.toNat
          let laps := d.hlLap g
          let d := d.hlMeasure g q ns
          match d.hlLimit g q ns with
          | 0 =>
            if laps && !d.hlLap g then d
            else
            let d := d.hlConfirmed g dl
            let d := ((d.set .PRT_ALN_OFFSET_delta g (un 32 dl)).set .PRT_ALN_STAT_aln_state g 2).set
              .PRT_ALN_STAT_mm_run g 0
            let d := d.setGroup g { d.group g with matchRun := 0 }
            (d.set .PRT_GRP_EVT_aln_chg g 1).raise 0x0903 g
          | c => d.hlNote g c
        | _, _ => d
      | 3 =>
        let d := d.hlConfirmed g dl
        if dl = d.hlDelta g then d
        else
          let d := d.setGroup g { d.group g with confirmed := some dl }
          if d.hlEarlySel g then d.set .PRT_ALN_STAT_pending g 1 else d.set .PRT_ALN_STAT_aln_state g 2
      | _ => d
  | _, _ => d

def execAlignConfirm (g : Group) (s : State) : Host.Outcome State Fault Refusal :=
  .next (s.onDev (·.alignConfirm g.val))

/-- BLIND is left: event 0x0907. -/
def Dev.blindLeft (d : Dev) (g : Nat) : Dev := (d.set .PRT_GRP_EVT_blind_chg g 1).raise 0x0907 g

/-- R228: 8 consecutive matches under Δ in RECAL or BLIND. -/
def Dev.alignMatchRun (d : Dev) (g : Nat) : Dev :=
  let st := d.hlState g
  if (st = 3 || st = 4) && 8 ≤ (d.group g).matchRun then
    let d := (d.set .PRT_ALN_STAT_aln_state g 2).set .PRT_ALN_STAT_pending g 0
    let d := (d.setGroup g { d.group g with confirmed := none, cand := none }).hlConfirmed g (d.hlDelta g)
    if st = 4 then d.blindLeft g else d
  else d

def execAlignMatchRun (g : Group) (s : State) : Host.Outcome State Fault Refusal :=
  .next (s.onDev (·.alignMatchRun g.val))

/-- R228: 8 consecutive mismatches in ALIGNED or BLIND: RECAL, Δ held. -/
def Dev.alignMismatchRun (d : Dev) (g : Nat) : Dev :=
  let st := d.hlState g
  if (st = 2 || st = 4) && d.get .PRT_ALN_STAT_mm_run g = 8 then
    let d := d.set .PRT_ALN_STAT_aln_state g 3
    let d := d.setGroup g { d.group g with probe := none, cand := none, expired := 0, confirmed := none }
    if st = 4 then d.blindLeft g else d
  else d

def execAlignMismatchRun (g : Group) (s : State) : Host.Outcome State Fault Refusal :=
  .next (s.onDev (·.alignMismatchRun g.val))

/-- R228: 64 consecutive late frames not distinct, in signature mode: BLIND, Δ held, event 0x0906. -/
def Dev.blindEnter (d : Dev) (g : Nat) : Dev :=
  let st := d.hlState g
  if (st = 2 || st = 3) && !d.hlLap g && 64 ≤ (d.group g).blindRun then
    let d := (d.set .PRT_ALN_STAT_aln_state g 4).set .PRT_ALN_STAT_mm_run g 0
    ((d.setGroup g { d.group g with matchRun := 0 }).set .PRT_GRP_EVT_blind_chg g 1).raise 0x0906 g
  else d

def execBlindEnter (g : Group) (s : State) : Host.Outcome State Fault Refusal := .next (s.onDev (·.blindEnter g.val))

/-! ### The switch instant (R218, R229–R231) -/

/-- Whether source k gives frame boundaries: its unit RUN with a running aligner or LO frame clock (R218). -/
def Dev.givesBoundary (d : Dev) (k : Nat) : Bool :=
  d.srcRun k && (if isTribSrc k then 2 ≤ d.trState (srcIdx k) else d.alnState k != 0)

/-- The source that signal j of group g is selected from: in a 1+1 group signal 1 is protection (R215). -/
def Dev.selectedSrc (d : Dev) (g j : Nat) : Nat := d.memberSrc g (if j = 0 then 1 else 0)

/-- Whether late boundary fl is switch-safe (R229), also under a correction that the switch would carry, whose REWIND would
otherwise be refused (R231). -/
def Dev.switchSafe (d : Dev) (g q : Nat) (fl : Nat) : Bool :=
  let st := d.hlState g
  let x := d.group g
  d.bit .PRT_ALN_STAT_seated g && (st == 2 || st == 3 || st == 4)
    && d.hlCells q x ((fl : Int) - d.hlDelta g) && x.confirmed.all (fun dl => d.hlCells q x ((fl : Int) - dl))

/-- Whether a correction or seat has taken the present boundary of group g, so that its next switch waits for the late
member's next boundary (R231). -/
def Dev.hlTaken (d : Dev) (g : Nat) : Bool :=
  d.hlCfg g && d.hlState g != 0 && (d.group g).actAt == some ((d.group g).fl - 1)
    && d.givesBoundary (d.memberSrc g (if d.bit .PRT_ALN_STAT_early_path g then 1 else 0))

/-- The switch of a seated group at late boundary fl (R230, R231). -/
def Dev.hlSwitch (d : Dev) (g q new fl : Nat) : Dev :=
  let x := d.group g
  let held := d.hlDelta g
  match x.confirmed with
  | some dl =>
    let away := d.hlEarlySel g
    let d := (d.hlCorrect g dl).hlReseat g q ((fl : Int) - dl)
    if away then (d.hlHit g (dl - held).natAbs).selectNow g new 3 else d.selectNow g new 0
  | none =>
    let quality := if d.hlState g = 2 then 0 else 1
    let d := d.hlReseat g q ((fl : Int) - held)
    let d := if quality = 1 then d.setGroup g { d.group g with unverified := true } else d
    d.selectNow g new quality

/-- The decision of group g (R218): bridge and transmitted APS follow it; a group that is not hitless switches at this
boundary, a seated one by R230 where the boundary is switch-safe, and every other hitless switch becomes plain. It waits
where a correction or seat has the boundary (R231). -/
def Dev.selectorDecision (d : Dev) (g : Nat) : Dev :=
  let x := d.group g
  if !d.running .pgroup g || (d.bit .PRT_GRP_STAT_frozen g && !d.standby) || !x.changed || d.hlTaken g then d
  else
    let d := ((d.setGroup g { x with changed := false, decided := none }).followMirror g).bridgeNow g
    let new := d.selectOf g
    if new = d.get .PRT_GRP_STAT_sel_sig g then d
    else if !d.hlCfg g then d.selectNow g new 5
    else match d.delayQueue g with
      | some q =>
        if d.switchSafe g q (x.fl - 1) then d.hlSwitch g q new (x.fl - 1)
        else d.setGroup g { d.group g with decided := some new }
      | none => d.setGroup g { d.group g with decided := some new }

def execSelectorDecision (g : Group) (s : State) : Host.Outcome State Fault Refusal :=
  .next (s.onDev (·.selectorDecision g.val))

/-- R218: the new member gives no frame boundary; the selector switches without one. -/
def Dev.switchNoBoundary (d : Dev) (g : Nat) : Dev :=
  let d := if (d.group g).changed && d.running .pgroup g then d.followMirror g else d
  let x := d.group g
  if !d.running .pgroup g || (d.bit .PRT_GRP_STAT_frozen g && !d.standby) || (!x.changed && x.decided.isNone) then d
  else
    let new := if x.changed then d.selectOf g else x.decided.getD (d.selectOf g)
    if d.givesBoundary (d.selectedSrc g new) then d
    else
      let d := (d.setGroup g { x with changed := false, decided := none }).bridgeNow g
      if new = d.get .PRT_GRP_STAT_sel_sig g then d else d.selectNow g new (if d.hlCfg g then 2 else 5)

def execSwitchNoBoundary (g : Group) (s : State) : Host.Outcome State Fault Refusal :=
  .next (s.onDev (·.switchNoBoundary g.val))

/-- R231: a decided switch that was not switch-safe is made at the new member's next frame boundary. -/
def Dev.plainSwitch (d : Dev) (g : Nat) : Dev :=
  match (d.group g).decided with
  | none => d
  | some new => if d.running .pgroup g && (!d.bit .PRT_GRP_STAT_frozen g || d.standby) then d.selectNow g new 2 else d

def execPlainSwitch (g : Group) (s : State) : Host.Outcome State Fault Refusal :=
  .next (s.onDev (·.plainSwitch g.val))

end Sys2Proof.Machine
end

