-- ==== Sys2Proof/Machine/Engines.lean ====
section
/-!
DEFINITION. Stride engines (chapter 05): taking tasks, the four parts of a task and their results (chapter 04), misses,
shedding, heat epochs and heat states.
-/
namespace Sys2Proof.Machine

/-! ### Detectors of one frame (R80, R81, R84) -/

/-- The set condition of a frame-counted defect in one snapshot, where the code is detected by frame counts at level l;
byte 3 of SM, PM and TCMi has BEI in its upper nibble, then BDI, then STAT, in SM IAE (G.709). On FlexO `rdi` is the RDI
bit of the group layer (G.709.1). -/
def frameCond (stm : Bool) (rdi : Option Bool) (snap : List Byte) (l code : Nat) : Option Bool :=
  let b := byte3 snap l
  let k2 := (byteAt snap 14).toNat % 8
  if stm then
    match l, code with
    | 1, 4 => some (k2 == 7)
    | 1, 18 => some (k2 == 6)
    | _, _ => none
  else
    match code with
    | 4 => if l = 0 then some ((byteAt snap 3).toNat.testBit 2) else some (b % 8 == 7)
    | 5 => if l = 0 then none else some (b % 8 == 5)
    | 6 => if l = 0 then none else some (b % 8 == 6)
    | 7 => if l < 2 then none else some (b % 8 == 0)
    | 9 => some (b.testBit 3)
    | 10 => if l = 0 then some (b.testBit 2) else if l = 1 then none else some (b % 8 == 2)
    | 11 => if l = 1 then none else some (b / 16 == 11)
    | 18 => if l = 0 then rdi else none
    | _ => none

/-- The consecutive frames that a frame-counted defect needs (R80, R81). -/
def frameNeed (l code : Nat) : Nat := if code = 9 || code = 18 || (code = 10 && l = 0) then 5 else 3

/-- The codes counted in frames. -/
def frameCodes : List Nat := [4, 5, 6, 7, 9, 10, 11, 18]

/-- The key of a run: set condition, or clear condition. -/
def runKey (l code : Nat) (clr : Bool) : Nat := 64 * l + 2 * code + if clr then 1 else 0

/-- The runs of one level after a frame; out of frame only generic AIS at level 0 counts on (R84). -/
def runsStep (stm : Bool) (rdi : Option Bool) (snap : List Byte) (l : Nat) (runs : Table Nat) : Table Nat :=
  frameCodes.foldl (fun r c =>
    if !(snapInFrame snap || (!stm && l == 0 && c == 4)) then r
    else match frameCond stm rdi snap l c with
      | none => r
      | some on =>
        let up := runKey l c (!on)
        let down := runKey l c on
        Table.put (Table.put r up (Table.get r up 0 + 1) 0) down 0 0) runs

/-! ### P0 (R83, R86, R88, R91) -/

/-- The BEI value counted at the far end (R91): 1 to 8, else 0; MS-REI on STM-64. -/
def beiValue (stm : Bool) (snap : List Byte) (l : Nat) : Nat :=
  if stm then (if l = 1 then (byteAt snap 16).toNat else 0)
  else
    let v := byte3 snap l / 16
    if v ≤ 8 then v else 0

/-- The dDEG window of level l takes a frame (R83, R84). -/
def DegSt.frame (w : DegSt) (errored tsf : Bool) : DegSt :=
  { w with eb := w.eb + (if errored then 1 else 0), valid := w.valid && !tsf }

/-- A window of the Poisson method takes a frame in frame with its B2 violations; at its last frame it is judged (R81). -/
def MsWin.frame (w : MsWin) (exp viol : Nat) : MsWin :=
  let f := w.frames + 1
  let v := w.viol + viol
  if Config.msFrames exp ≤ f then ⟨0, 0, decide (Config.msDetect exp ≤ v), decide (v < Config.msClear exp)⟩
  else { w with frames := f, viol := v }

/-- The windows of MS dDEG and dEXC, by code (R81, log entry 56). -/
def Dev.msStep (d : Dev) (k viol : Nat) (t : Table MsWin) : Table MsWin :=
  let w (c exp : Nat) (t : Table MsWin) : Table MsWin := Table.put t c ((Table.get t c .init).frame exp viol) .init
  w 17 (d.og k .CH_OH_DEGTHR_exc_exp 8 1) (w 12 (d.og k .CH_OH_DEGTHR_deg_exp 8 1) t)

/-- P0 of a task at one level: runs, dDEG window, BEI accumulator, engine PM counts. The aTSF of a frame, for near-end defect
seconds and for windows that are neither good nor bad, is the one published before that frame's own C0 work, and so are the
dBDI and MS-RDI of far-end defect seconds (DESIGN CHOICE, log entry 58). -/
def Dev.p0Level (d : Dev) (k l : Nat) (t : Task) : Dev :=
  if !d.monitored k l then d
  else
    let stm := d.isStm k
    let o := d.oh k
    let inF := snapInFrame t.snap
    let viol := violations stm t.snap l
    let tsf := d.atsf k l
    let deg := Table.put o.deg l ((Table.get o.deg l .init).frame (!inF || viol != 0) tsf) .init
    let bei := if d.lvlMode k l == 2 && inF && !(stm && l == 0) then Table.put o.bei l (min (Table.get o.bei l 0 + viol) 255) 0
      else o.bei
    let fe := if inF then beiValue stm t.snap l else 0
    let far := d.defBit k l (if stm then 18 else 9)
    let upd (p : PmSt) : PmSt :=
      { p with neDs := p.neDs || tsf, feBip := p.feBip + fe, feEb := p.feEb + (if fe = 0 then 0 else 1)
               feDs := p.feDs || (far && !(stm && l == 0)) }
    let now := t.born.toNat / 10 ^ 9 = o.second
    let o := if now then { o with pm := Table.put o.pm l (upd (Table.get o.pm l .init)) .init }
      else { o with pmPrev := Table.put o.pmPrev l (upd (Table.get o.pmPrev l .init)) .init }
    let rdi := if !isTribSrc k && isFlexO (d.mode k) then some t.rdi else none
    d.setOh k { o with runs := runsStep stm rdi t.snap l o.runs, deg := deg, bei := bei
                       ms := if stm && l == 1 && inF then d.msStep k viol o.ms else o.ms }

/-- BDI, IAE and BIAE of level l are false and counted afresh while its aTSF is 1, as G.798 has it (R80, log entry 15). -/
def Dev.farOff (d : Dev) (k l : Nat) : Dev :=
  if !d.monitored k l || d.isStm k || !d.atsf k l then d
  else [9, 10, 11].foldl (fun d c =>
    let o := d.oh k
    let runs := Table.put (Table.put o.runs (runKey l c false) 0 0) (runKey l c true) 0 0
    (d.setOh k { o with runs := runs }).setDefect k l c false) d

/-- P0: C0 work of a frame; the consequent actions are published at its end. The frame's DTIME, sequence number and ssf_in are
those its snapshot holds (R90, R94, R311). -/
def Dev.partP0 (d : Dev) (t : Task) : Dev :=
  let d := d.setOh t.src { d.oh t.src with
    born := t.born, frameSeq := t.seq, ssfIn := (byteAt t.snap 3).toNat.testBit 6 }
  let d := ((List.range 8).foldl (fun d l => d.p0Level t.src l t) d).publish t.src
  ((List.range 8).foldl (fun d l => d.farOff t.src l) d).publish t.src

/-! ### P1 (R78) -/

/-- The level that APS/PCC bytes belong to by the MFAS phase (G.709): ODU path, TCM1–TCM6, server layer. -/
def apsLevel (fly : Nat) : Nat := if fly % 8 = 0 then 1 else if fly % 8 = 7 then 0 else fly % 8 + 1

/-- The value received in the frame of boundary `born` meets an acceptance run (R76–R78). -/
def Accept.step (a : Accept) (born : DTime) (v : List Byte) : Accept :=
  if a.last == v then { a with run := a.run + 1, at_ := if a.run = 2 then born else a.at_ } else ⟨v, 1, born⟩

/-- The groups with APS that source k protects, at the APS level that its frame carries (R217). -/
def Dev.fopJudge (d : Dev) (k l : Nat) : Dev :=
  let received := decide (3 ≤ (Table.get (d.oh k).aps l .init).run)
  (d.groupsOf k).foldl (fun d e =>
    if e.2 == 0 && d.bit .PRT_GRP_CFG_aps_en e.1 && d.running .pgroup e.1
        && (d.isStm k || apsLevel (d.get .PRT_GRP_CFG_aps_lvl e.1) == l) then d.fopTimes e.1 received
    else d) d

/-- P1: APS/PCC or K1/K2 acceptance runs. -/
def Dev.partP1 (d : Dev) (t : Task) : Dev :=
  if !snapInFrame t.snap then d
  else
    let stm := d.isStm t.src
    let l := if stm then 1 else apsLevel (byteAt t.snap 2).toNat
    let v := if stm then [byteAt t.snap 13, byteAt t.snap 14] else (t.snap.drop 37).take 4
    if !d.monitored t.src l then d
    else
      let o := d.oh t.src
      (d.setOh t.src { o with aps := Table.put o.aps l ((Table.get o.aps l .init).step t.born v) .init }).fopJudge t.src l

/-! ### P2 (R91–R93) -/

/-- One end of a record: ES, SES, DS flags, run and unavailability, BBE (R91, R92). -/
structure PmEnd where
  bip : Nat
  eb : Nat
  es : Bool
  ses : Bool
  ds : Bool
  uas : Bool
  run : Nat
  bbe : Nat
deriving DecidableEq, Repr

/-- The run and unavailability after a second (R92). -/
def PmRun.second (r : PmRun) (ses : Bool) : PmRun :=
  if ses then
    let n := min (r.ses + 1) 10
    { ses := n, non := 0, uas := r.uas || n == 10 }
  else
    let n := min (r.non + 1) 10
    { ses := 0, non := n, uas := r.uas && n != 10 }

/-- One end of the second from its counts. -/
def pmEnd (pct frames bip eb : Nat) (ds : Bool) (r : PmRun) : PmEnd × PmRun :=
  let ses := decide (pct * frames ≤ 100 * eb) || ds
  let r := r.second ses
  (⟨bip, eb, eb != 0 || ds, ses, ds, r.uas, r.ses, if ses then 0 else eb⟩, r)

/-- Words 2 and 5 of a record. -/
def pmFlags (e : PmEnd) (incomplete : Bool) : Nat :=
  let b (x : Bool) (i : Nat) : Nat := if x then 2 ^ i else 0
  min e.eb (2 ^ 20 - 1) + b e.es 20 + b e.ses 21 + b e.ds 22 + b e.uas 23 + e.run * 2 ^ 24 + b incomplete 28

/-- The eight words of CH_PM_SEC of level l replaced together. -/
def Dev.pmWrite (d : Dev) (k l : Nat) (ws : List Nat) : Dev :=
  (List.range 8).foldl (fun d w => d.oset k .CH_PM_SEC_word (ws.getD w 0) 64 (l * 8 + w)) d

/-- A PM record is marked incomplete: pm_incomplete and event 0x0403 once per second and source (R93, R97). -/
def Dev.pmIncomplete (d : Dev) (k : Nat) : Dev := (d.oset k .CH_OH_EVT_pm_incomplete 1).raise1 0x0403 k (ohArg k 0)

/-- Whether level l of source k forms PM records. -/
def Dev.pmLevel (d : Dev) (k l : Nat) : Bool := d.monitored k l && (d.og k .CH_PM_CTL_lvl_en).testBit l

/-- Whether the keying time of source k in the open segment has come (R312). -/
def Dev.keyDue (d : Dev) (k : Nat) : Bool :=
  match d.recr.seg with
  | some g => g.opened.toNat + srcIdx k % 100 * 10 ^ 7 ≤ d.now
  | none => false

/-- P2 at one level: the record of the second before, for the registers and the recorder. -/
def Dev.closeLevel (d : Dev) (k l : Nat) : Dev :=
  if !d.pmLevel k l then d
  else
    let o := d.oh k
    let p := Table.get o.pmPrev l .init
    let pct := d.og k .CH_PM_CTL_ses_pct
    let rs := d.isStm k && l == 0
    let (ne, nr) := pmEnd pct p.frames p.neBip p.neEb p.neDs (Table.get o.pmRun (2 * l) .init)
    let (fe, fr) := if rs then (⟨0, 0, false, false, false, false, 0, 0⟩, PmRun.init)
      else pmEnd pct p.frames p.feBip p.feEb p.feDs (Table.get o.pmRun (2 * l + 1) .init)
    let d := d.setOh k { o with pmRun := Table.put (Table.put o.pmRun (2 * l) nr .init) (2 * l + 1) fr .init }
    let ws := [o.pmSec, ne.bip, pmFlags ne p.incomplete, ne.bbe, fe.bip, pmFlags fe false, fe.bbe, p.frames]
    let d := d.pmWrite k l ws
    let d := if p.incomplete then d.pmIncomplete k else d
    d.record 0x05 (BitVec.ofNat 64 ((o.pmSec + 1) * 10 ^ 9))
      (leBytes 2 (d.srcWord k) ++ [BitVec.ofNat 8 l] ++ ws.flatMap (leBytes 4)) ((d.keyDue k && !d.recr.keyPm.contains k) || o.pmFull)

/-- P2: the second before is closed at every level; the records are full after the keying time of the segment (R312), and
after a second whose P2 was shed (R93). -/
def Dev.partP2 (d : Dev) (t : Task) : Dev :=
  let due := d.keyDue t.src
  let d := (List.range 8).foldl (fun d l => d.closeLevel t.src l) d
  let d := d.setOh t.src { d.oh t.src with pmFull := false }
  if due && !d.recr.keyPm.contains t.src then { d with recr := { d.recr with keyPm := d.recr.keyPm ++ [t.src] } } else d

/-- A skipped P2 (R93): hardware replaces CH_PM_SEC with the exact near-end counts and marks the second incomplete; the
source's next PM record is full. -/
def Dev.shedP2 (d : Dev) (k : Nat) : Dev :=
  let d := (List.range 8).foldl (fun d l =>
    if d.pmLevel k l then
      let o := d.oh k
      let p := Table.get o.pmPrev l .init
      let ne := (Table.get o.pmRun (2 * l) .init).ses
      let fe := (Table.get o.pmRun (2 * l + 1) .init).ses
      d.pmWrite k l [o.pmSec, p.neBip, min p.neEb (2 ^ 20 - 1) + ne * 2 ^ 24 + 2 ^ 28, 0, 0, fe * 2 ^ 24, 0, p.frames]
    else d) d
  (d.setOh k { d.oh k with pmFull := true }).pmIncomplete k

/-! ### P3 (R76, R77, R94, R112, R139) -/

/-- Collection of a trail trace (R76): a byte at index i of n starts or continues the buffer, and n bytes make one value;
a missed byte leaves the multiframe incomplete. -/
def ttiCollect (buf : List Byte) (i n : Nat) (b : Byte) : List Byte × Option (List Byte) :=
  let buf := if i = 0 then [b] else if buf.length = i then buf ++ [b] else []
  if buf.length = n then ([], some buf) else (buf, none)

/-- One trace byte of level l: 64 bytes by the flywheel; on STM-64 a 16-byte J0 frame begins with a byte whose top bit is
set (G.707), and tim_mode 2 has a 1-byte J0. The CRC-7 of a 16-byte J0 is compared as received: R76 asks of an acceptance
that the same bytes arrive, and not that their CRC fits (DEDUCED, log entry 89). -/
def Dev.ttiByteIn (d : Dev) (k l : Nat) (snap : List Byte) (born : DTime) : Dev :=
  let o := d.oh k
  let b := ttiByte snap l
  let buf := Table.get o.ttiBuf l []
  let (buf, full) :=
    if d.isStm k then
      if d.og k .CH_OH_LVL_CTL_tim_mode 8 l == 2 then ([], some [b])
      else ttiCollect buf (if b.getLsbD 7 then 0 else if buf.isEmpty then 99 else buf.length) 16 b
    else ttiCollect buf ((byteAt snap 2).toNat % 64) 64 b
  let tti := match full with
    | none => o.tti
    | some v => Table.put o.tti l ((Table.get o.tti l .init).step born v) .init
  d.setOh k { o with ttiBuf := Table.put o.ttiBuf l buf [], tti := tti }

/-- An overhead item is recorded when it changes (R94): items of OHCHG (R311). -/
def Dev.ohItem (d : Dev) (k l item : Nat) (at_ : DTime) (v : List Byte) : Dev :=
  let o := d.oh k
  if Table.find o.ohLast (16 * l + item) == some v then d
  else (d.setOh k { o with ohLast := Table.ins o.ohLast (16 * l + item) v }).record 0x04 at_
    (leBytes 2 (d.srcWord k) ++ [BitVec.ofNat 8 l, BitVec.ofNat 8 item] ++ v)

/-- Whether a server examines PSI multiframes: a channel in MUX mode (R139). -/
def Dev.isMux (d : Dev) (n : Nat) : Bool :=
  (d.mode n == 0x08 || isFlexO (d.mode n)) && d.get .SL_SRV_CTL_pay_mode (slIdx n) == 2

/-- The MSI bytes of a PSI multiframe collected instance by instance: two bytes per slot in an ODUCn, one in an ODU4. -/
def msiBytes (psi : List Byte) (inst : Nat) (cn : Bool) : List Byte :=
  (List.range (if cn then 40 else 80)).flatMap (fun j => (List.range inst).map (fun i => byteAt psi ((2 + j) * inst + i)))

/-- A whole PSI multiframe of server n is examined (R139). -/
def Dev.psiExamine (d : Dev) (n : Nat) (psi : List Byte) : Dev :=
  let v := d.server n
  let inst := if isFlexO (d.mode n) then d.groupSize n else 1
  if !d.isMux n || psi.length != 256 * inst then d
  else
    let m := msiBytes psi inst (isFlexO (d.mode n))
    d.setServer n { v with psiLast := m, psiRun := if m == v.psiLast then v.psiRun + 1 else 1 }

/-- The overhead items of source k as (level, item, bytes) (R311): trace and APS of every level, PT and FTFL of an ODU path, of
STM-64 J0, K1K2 and S1, and the selected bytes of the source. -/
def Dev.ohItems (d : Dev) (k : Nat) : List (Nat × Nat × Nat) :=
  if d.isStm k then [(0, 1, 16), (0, 7, 4), (1, 4, 2), (1, 6, 1)]
  else (0, 7, 4) :: (1, 2, 1) :: (1, 5, 1) :: (List.range 8).flatMap (fun l => [(l, 1, 64), (l, 3, 4)])

/-- The first P3 of source k after its keying time: full OHCHG records of every item of every monitored level, and of the
selected bytes (R312); an item that has had no value is recorded as zeros (DESIGN CHOICE, log entry 91). -/
def Dev.keyFrames (d : Dev) (k : Nat) (at_ : DTime) : Dev :=
  if !d.keyDue k || d.recr.keyOh.contains k then d
  else
    let d : Dev := { d with recr := { d.recr with keyOh := d.recr.keyOh ++ [k] } }
    (d.ohItems k).foldl (fun d e =>
      if d.monitored k e.1 || e.2.1 == 7 then
        let v := Table.get (d.oh k).ohLast (16 * e.1 + e.2.1) (List.replicate e.2.2 0)
        d.record 0x04 at_ (leBytes 2 (d.srcWord k) ++ [BitVec.ofNat 8 e.1, BitVec.ofNat 8 e.2.1] ++ v) true
      else d) d

/-- P3: C3 work of a frame. Received values of ticks out of frame count nothing (R84). APS values that C1 work has accepted are
recorded (R74, R94), then the gap of an overflown transition log goes before the transitions it kept, an order that R112
leaves open (DESIGN CHOICE, log entry 90). Failures are evaluated in the task of each 10 ms boundary, or in the first P3
after one that was skipped (R85, R111). -/
def Dev.partP3 (d : Dev) (t : Task) : Dev :=
  let k := t.src
  let snap := t.snap
  let stm := d.isStm k
  let d :=
    if !snapInFrame snap then d
    else
      let d := (List.range 8).foldl (fun d l =>
        if d.monitored k l && !(stm && l != 0) then d.ttiByteIn k l snap t.born else d) d
      let fly := (byteAt snap 2).toNat
      let d := if !stm && fly = 0 && d.monitored k 1 then
          let o := d.oh k
          d.setOh k { o with pt := o.pt.step t.born [byteAt snap 36] }
        else d
      let d := t.psi.foldl (fun d e => d.psiExamine e.1 e.2) d
      let d := if stm then d.ohItem k 1 6 t.born [byteAt snap 15] else d.ohItem k 1 5 t.born [byteAt snap 41]
      d.ohItem k 0 7 t.born ((snap.drop 43).take 4)
  let d := (d.oh k).apsDue.foldl (fun d e =>
    d.ohItem k e.1 (if stm then 4 else 3) e.2 (Table.get (d.oh k).apsAcc e.1 [])) d
  let o := d.oh k
  let d := if o.tlogDrop = 0 then d
    else d.record 0x0B o.dropAt ([1, 0] ++ leBytes 2 (d.srcWord k) ++ leBytes 4 o.tlogDrop)
  let d := o.tlog.foldl (fun d x =>
    d.record 0x02 x.at_ (leBytes 2 (d.srcWord k) ++ [BitVec.ofNat 8 x.lvl, BitVec.ofNat 8 (x.code + if x.set then 128 else 0)]
      ++ leBytes 2 x.seq.toNat ++ [0, 0])) d
  let eval := t.tenMs || o.evalDue
  (d.setOh k { d.oh k with tlog := [], tlogDrop := 0, apsDue := [], evalDue := false
                           evalAt := if eval then t.born else o.evalAt }).keyFrames k t.born

/-! ### Taking a task (R104–R106, R111) -/

/-- The heat state of heat h: 0 OFF, 1 IDLE, 2 WARMING, 3 HOME_ONLY, 4 ACTIVE, 5 DRAINING. -/
def Dev.heatState (d : Dev) (h : Nat) : Nat := d.get .STR_HEAT_STAT_heat_state h

/-- Whether the claim of source k is held: an engine runs one of its tasks (R105). -/
def Dev.claimed (d : Dev) (k : Nat) : Bool := d.engines.any (fun e => e.2.task.src == k)

/-- The place of the oldest eligible task among the first 32 entries of a queue (R104). -/
def Dev.eligible (d : Dev) (h : Nat) : Option Nat :=
  if !d.pdOn (domSlice (h / 2)) then none
  else
    let q := ((d.heat h).queue).take 32
    (List.range q.length).find? (fun i =>
      match q[i]? with
      | none => false
      | some t => !d.claimed t.src && !(q.take i).any (fun u => u.src == t.src))

/-- steal_max: 3 acts as 2 (R103, R120). -/
def Dev.stealMax (d : Dev) : Nat := min (d.get .STR_CTL_steal_max 0) 2

/-- The born value of the eligible task of queue h. -/
def Dev.eligibleBorn (d : Dev) (h : Nat) : Option Nat :=
  match d.eligible h with
  | none => none
  | some i => ((d.heat h).queue[i]?).map (fun t => t.born.toNat)

/-- The queue an idle engine of heat h takes from, with its distance (R104). -/
def Dev.takeFrom (d : Dev) (h : Nat) : Option (Nat × Nat) :=
  let st := d.heatState h
  if !(st == 3 || st == 4) then none
  else if (d.eligible h).isSome then some (h, 0)
  else if st == 4 then
    (List.range d.stealMax).foldl (fun (r : Option (Nat × Nat)) j =>
      match r with
      | some x => some x
      | none =>
        let a := (h + j + 1) % 16
        let b := (h + 16 - (j + 1)) % 16
        match d.eligibleBorn a, d.eligibleBorn b with
        | none, none => none
        | some _, none => some (a, j + 1)
        | none, some _ => some (b, j + 1)
        | some x, some y => some (if x ≤ y then a else b, j + 1)) none
  else none

/-- Remove the eligible task of queue q. -/
def Dev.dequeue (d : Dev) (q : Nat) : Option (Task × Dev) :=
  match d.eligible q with
  | none => none
  | some i =>
    match (d.heat q).queue[i]? with
    | none => none
    | some t => some (t, d.setQueue q (((d.heat q).queue).eraseIdx i))

/-- The parts of a task that run: its home queue's shed state skips P3, or P3 and P2 (R111). -/
def Dev.startTask (d : Dev) (e dist : Nat) (t : Task) : Dev :=
  let h := t.home
  let shed := d.get .STR_HEAT_STAT_shed_state h
  let skip3 := decide (1 ≤ shed) && t.parts.contains 3
  let skip2 := decide (2 ≤ shed) && t.parts.contains 2
  let left := t.parts.filter (fun p => !((p == 3 && skip3) || (p == 2 && skip2)))
  let d := if skip3 then (d.bump .STR_HEAT_SHED_shed3_cnt h 1).raise1 0x0404 t.src (ohArg t.src 0) else d
  let d := if skip3 && t.tenMs then d.setOh t.src { d.oh t.src with evalDue := true } else d
  let d := if skip2 then (d.bump .STR_HEAT_SHED_shed2_cnt h 1).shedP2 t.src else d
  let own := e / 16
  let d := (d.bump .STR_HEAT_RUN_run_cnt own 1).set .STR_HEAT_STAT_busy own (d.get .STR_HEAT_STAT_busy own + 1)
  let d := if dist = 1 then d.bump .STR_HEAT_STOLEN_steal1_cnt own 1
    else if dist = 2 then d.bump .STR_HEAT_STOLEN_steal2_cnt own 1 else d
  { d with engines := Table.ins d.engines e ⟨t, left, dist, d.dtime⟩ }

/-- Whether a task is of the source's present start: one created before the source's unit left RUN is not (R101). -/
def Dev.taskCurrent (d : Dev) (t : Task) : Bool := d.srcRun t.src && t.gen == (d.oh t.src).gen

/-- Take a task; one of a source that has left RUN is discarded at dispatch without running (R101). -/
def Dev.takeTask (d : Dev) (e : Nat) : Nat → Dev
  | 0 => d
  | n + 1 =>
    match d.takeFrom (e / 16) with
    | none => d
    | some (q, dist) =>
      match d.dequeue q with
      | none => d
      | some (t, d) => if d.taskCurrent t then d.startTask e dist t else d.takeTask e n

/-- TASK_TAKE of an idle engine. -/
def Dev.taskTake (d : Dev) (e : Nat) : Dev :=
  match Table.find d.engines e with
  | some _ => d
  | none => d.takeTask e 17408

def execTaskTake (e : Engine) (s : State) : Host.Outcome State Fault Refusal := .next (s.onDev (·.taskTake e.val))

/-! ### Parts end (R99, R107–R109) -/

/-- The engine of a task becomes idle: claim released, busy and busy_cyc. -/
def Dev.release (d : Dev) (e : Nat) (r : EngineSt) : Dev :=
  let h := e / 16
  let c := (d.heat h).cycles + (d.dtime - r.start).toNat * 5 / 4
  let d := (d.set .STR_HEAT_STAT_busy h (d.get .STR_HEAT_STAT_busy h - 1)).bump .STR_HEAT_BUSY_busy_cyc h (c / 256)
  let d := d.setHeat h { d.heat h with cycles := c % 256 }
  { d with engines := Table.del d.engines e }

/-- The descriptor of a task (R100); the place of its snapshot in the store is the fabric's own (log entry 2). -/
def Dev.descriptor (d : Dev) (t : Task) : List Byte × Dev :=
  let (w, d) := d.draw
  let parts := t.parts.foldl (fun v p => v + 2 ^ p) 0 + (if t.secondClose then 16 else 0) + if t.tenMs then 32 else 0
  (leBytes 2 (d.srcWord t.src) ++ [BitVec.ofNat 8 parts, BitVec.ofNat 8 t.home] ++ leBytes 4 t.born.toNat
    ++ leBytes 2 t.seq.toNat ++ leBytes 2 t.period ++ leBytes 2 (w.toNat % 1024) ++ [0, 0], d)

/-- The deadline of a part in ns after born (R108). -/
def deadline (t : Task) (p : Nat) : Nat :=
  match p with
  | 0 => t.period * 4
  | 1 => t.period * 4
  | 2 => 10 ^ 8
  | _ => 10 ^ 7

/-- A part that ends after its deadline is counted as a miss of its class against the home heat (R108, R109). -/
def Dev.partMiss (d : Dev) (t : Task) (p : Nat) : Dev :=
  let late := (d.dtime.setWidth 32 - t.born.setWidth 32).toNat
  if late ≤ deadline t p then d
  else
    let h := t.home
    match p with
    | 0 =>
      let (b, d) := d.descriptor t
      let d := (List.range 4).foldl (fun d k => d.set .STR_MISS_DESC_desc (h * 4 + k) (leField b (4 * k) 4)) d
      ((d.bump .STR_HEAT_MISS_miss0_cnt h 1).set .STR_HEAT_EVT_miss h 1).raise1 0x0504 h (h + t.src * 16)
    | 1 => ((d.bump .STR_HEAT_MISS_miss1_cnt h 1).set .STR_HEAT_EVT_miss h 1).raise1 0x0505 h (h + t.src * 16)
    | 2 => d.bump .STR_HEAT_LATE_miss2_cnt h 1
    | _ => d.bump .STR_HEAT_LATE_miss3_cnt h 1

/-- The results of a part are published; a source that has left RUN since takes none (R82, R101). -/
def Dev.runPart (d : Dev) (t : Task) (p : Nat) : Dev :=
  if !d.taskCurrent t then d
  else match p with
    | 0 => d.partP0 t
    | 1 => d.partP1 t
    | 2 => d.partP2 t
    | _ => d.partP3 t

/-- The part that engine e runs ends. -/
def Dev.taskPartEnd (d : Dev) (e : Nat) : Dev :=
  match Table.find d.engines e with
  | none => d
  | some r =>
    match r.left with
    | [] => d.release e r
    | p :: rest =>
      let d := (d.runPart r.task p).partMiss r.task p
      if rest.isEmpty then d.release e r
      else { d with engines := Table.ins d.engines e { r with left := rest } }

def execTaskPartEnd (e : Engine) (s : State) : Host.Outcome State Fault Refusal := .next (s.onDev (·.taskPartEnd e.val))

/-- A P2 and a 10 ms evaluation that a lost or unfinished task carried stay due (R98). -/
def Dev.workStays (d : Dev) (t : Task) (p2 ten : Bool) : Dev :=
  let o := d.oh t.src
  if t.gen == o.gen then d.setOh t.src { o with p2Due := o.p2Due || p2, tenDue := o.tenDue || ten } else d

/-- Whether a task has run longer than 16,384 clk_se cycles of 0.8 ns (R107). -/
def Dev.overrun (d : Dev) (r : EngineSt) : Bool := decide (16384 * 4 < (d.dtime - r.start).toNat * 5)

/-- The engine watchdog cuts a task off (R107): what it had still to do stays due, or is missing, as of a lost task. -/
def Dev.taskCutOff (d : Dev) (e : Nat) : Dev :=
  match Table.find d.engines e with
  | none => d
  | some r =>
    if !d.overrun r then d else
    let t := r.task
    let d := if r.left.contains 0 then d.frameMissed t.src (t.born.toNat / 10 ^ 9) else d
    let d := d.workStays t (r.left.contains 2) (r.left.contains 3 && t.tenMs)
    ((((d.release e r).bump .STR_HEAT_LOST_abort_cnt t.home 1).set .STR_HEAT_EVT_abort t.home 1)).raise 0x0507
      (t.home + t.src * 16)

def execTaskCutOff (e : Engine) (s : State) : Host.Outcome State Fault Refusal := .next (s.onDev (·.taskCutOff e.val))

/-! ### Heat epochs and states (R110, R114–R117) -/

/-- Heat h enters state st: event 0x0501. A reset asked of its domain takes place in IDLE, as power-up would (R383, R385). -/
def Dev.heatGo (d : Dev) (h st : Nat) : Dev :=
  let live := st == 3 || st == 4
  let d := ((d.set .STR_HEAT_STAT_heat_state h st).setB ⟨.STR_MAPS, h, 1⟩ 0 live).set .STR_HEAT_EVT_state_chg h 1
  let d := if st = 1 then d.setHeat h { d.heat h with rstReq := false } else d
  d.raise 0x0501 (h + st * 256)

/-- heat_en as it acts: a request to switch the domain off, or to reset it, acts as heat_en = 0 (R117, R385). -/
def Dev.heatEn (d : Dev) (h : Nat) : Bool := d.bit .STR_HEAT_CTL_heat_en h && !(d.heat h).offReq && !(d.heat h).rstReq

/-- The R116 transition of heat h at a boundary, from the state it had before it. -/
def Dev.heatStep (d : Dev) (h : Nat) : Dev :=
  let en := d.heatEn h
  match d.heatState h with
  | 1 => if en && d.bit .GLB_READY_FN_stride_fw 0 then (d.heatGo h 2).set .STR_HEAT_STAT_drained h 0 else d
  | 2 => d.heatGo h (if en then 3 else 1)
  | 3 => d.heatGo h (if en then 4 else 5)
  | 4 => if en then d else d.heatGo h 5
  | _ => d

/-- The distance of two heats on the ring (R103). -/
def ringDist (a b : Nat) : Nat := min (max a b - min a b) (16 - (max a b - min a b))

/-- Whether queue h is served by the heats' states (R114); an absent queue counts as served. -/
def Dev.servedNow (d : Dev) (h : Nat) : Bool :=
  !d.pdOn (domSlice (h / 2)) || d.heatState h == 3 || d.heatState h == 4
    || (List.range 16).any (fun a => d.heatState a == 4 && decide (ringDist a h ≤ d.stealMax))

/-- The served state of queue h at a boundary: events 0x0508 and 0x0509, the queue flushed when it is served again. The
flushed tasks only add to lost_cnt: event 0x0509 carries their number, and neither event 0x0506 nor STR_HEAT_EVT.lost
follows; a P2 or a 10 ms evaluation that one carried stays due, as of any lost task; a task of a source that has left RUN is
counted with them, R114 counting all tasks still queued and R101 only those that reach their dispatch (DESIGN CHOICE, log
entry 59). -/
def Dev.serveStep (d : Dev) (h : Nat) : Dev :=
  let now := d.servedNow h
  let f : Fld := ⟨.STR_MAPS, 16 + h, 1⟩
  if d.bit f 0 == now then d
  else
    let absent := !d.pdOn (domSlice (h / 2))
    let d := d.setB f 0 now
    if absent then d
    else
      let d := d.set .STR_HEAT_EVT_served_chg h 1
      if now then
        let q := (d.heat h).queue
        let d := q.foldl (fun d t => (d.frameMissed t.src (t.born.toNat / 10 ^ 9)).workStays t t.secondClose t.tenMs) d
        ((d.bump .STR_HEAT_LOST_lost_cnt h q.length).setQueue h []).raise 0x0509 (h + min q.length 4095 * 16)
      else d.raise 0x0508 h

/-- Thresholds written before the boundary come into force; the shed state rises to what they and the floor ask, or
falls one step (R110, R115). -/
def Dev.shedStep (d : Dev) (h : Nat) : Dev :=
  let x := d.heat h
  let x := { x with lvl3 := d.get .STR_HEAT_CTL_shed3_lvl h, lvl2 := d.get .STR_HEAT_CTL_shed2_lvl h
                    hyst := d.get .STR_HEAT_CTL_shed_hyst h }
  let d := d.setHeat h x
  let occ := x.queue.length
  let want := max (x.shedFor occ) d.shedFloor
  let st := d.get .STR_HEAT_STAT_shed_state h
  let lvl := if st = 2 then max x.lvl2 x.lvl3 else x.lvl3
  if st < want then d.shedRaise h want
  else if st ≠ 0 && d.shedFloor < st && occ + 32 * x.hyst < lvl then
    ((d.set .STR_HEAT_STAT_shed_state h (st - 1)).set .STR_HEAT_EVT_shed_chg h 1).raise 0x0503 (h + (st - 1) * 256)
  else d

/-- A heat epoch boundary (R115), from which STR_EPOCH counts on with DTIME: heat states, event 0x050A at the first WARMING of a
start, the served map, then thresholds and shedding, which see the occupancy after the flush of R114, an order the spec
leaves open (DESIGN CHOICE, log entry 92). -/
def Dev.heatEpoch (d : Dev) : Dev :=
  let first := !d.sys.fwRunning && (List.range 16).any (fun h =>
    d.heatState h == 1 && d.heatEn h && d.bit .GLB_READY_FN_stride_fw 0)
  let d := (List.range 16).foldl Dev.heatStep d
  let d := if first then
      ({ d with sys := { d.sys with fwRunning := true } } : Dev).raise 0x050A (d.get .STR_FW_VER_model 0 * 256)
    else d
  let d := (List.range 16).foldl Dev.serveStep d
  (List.range 16).foldl Dev.shedStep d

def execHeatEpoch (s : State) : Host.Outcome State Fault Refusal := .next (s.onDev (·.heatEpoch))

/-- R116: no engine of the DRAINING heat h runs a task: IDLE, drained. -/
def Dev.heatDrained (d : Dev) (h : Nat) : Dev :=
  if d.heatState h = 5 && !(d.engines.any (fun e => e.1 / 16 == h)) then
    (d.heatGo h 1).set .STR_HEAT_STAT_drained h 1
  else d

def execHeatDrained (h : Heat) (s : State) : Host.Outcome State Fault Refusal := .next (s.onDev (·.heatDrained h.val))

/-- Every queue rises to the floor at once (R110, R389). -/
def Dev.shedAll (d : Dev) : Dev := (List.range 16).foldl (fun d h => d.shedRaise h d.shedFloor) d

/-- A write of shed_force: a raised floor acts at once (R110). -/
def Dev.shedForceWrite (d : Dev) (v : Nat) : Dev := (d.set .STR_CTL_shed_force 0 v).shedAll

def execShedForceWrite (v : BitVec 2) (s : State) : Host.Outcome State Fault Refusal :=
  .next (s.onDev (·.shedForceWrite v.toNat))

end Sys2Proof.Machine
end

