-- ==== Sys2Proof/Machine/Defects.lean ====
section
/-!
DEFINITION. Streams of the switch ports, defects, accepted values and failures (chapters 04 and 06).
-/
namespace Sys2Proof.Machine

/-! ### Streams (R129, R130) -/

/-- The tributaries whose kind is not NONE. -/
def Dev.tribList (d : Dev) : List Nat := (d.listed .ODU_CFG).filter (fun t => d.kind t != 0)

/-- The channels whose mode is not OFF. -/
def Dev.chanList (d : Dev) : List Nat := (d.listed .CH_MODE).filter (fun n => d.mode n != 0)

/-- Whether tributary t is in payload mode MAP. -/
def Dev.tribMap (d : Dev) (t : Nat) : Bool := d.get .ODU_CFG_pay_mode t == 1

/-- Whether channel n is a server in MAP mode. -/
def Dev.chanMap (d : Dev) (n : Nat) : Bool := isGfec (d.mode n) && d.get .SL_SRV_CTL_pay_mode (slIdx n) == 1

/-- The source number of what binds client channel c (R130): a MAP tributary or a MAP server channel. -/
def Dev.binder (d : Dev) (c : Nat) : Option Nat :=
  match d.tribList.find? (fun t =>
      d.tribMap t && !d.bit .ODU_MAP_client_kind t && d.get .ODU_MAP_client t == c) with
  | some t => some (192 + t)
  | none => d.chanList.find? (fun n => d.chanMap n && d.get .SL_SRV_CTL_client (slIdx n) == c)

/-- The tributary that binds FlexE client x (R130, R147). -/
def Dev.flexeBinder (d : Dev) (x : Nat) : Option Nat :=
  d.tribList.find? (fun t => d.tribMap t && d.bit .ODU_MAP_client_kind t && d.get .ODU_MAP_client t == x)

/-- Client formats: STM-64 and the Ethernet formats but the FlexE PHY (R29, R129). -/
def isClient (m : Nat) : Bool := [0x01, 0x04, 0x10, 0x11, 0x12].contains m

/-- Whether port p carries a stream (R129). -/
def Dev.portLive (d : Dev) (p : Nat) : Bool :=
  if p < 3072 then
    d.kind p != 0 && (if d.tribMap p then d.bit .ODU_CFG_srv_none p else !d.bit .ODU_CFG_srv_none p)
  else
    let n := p - 3072
    n == d.leader n &&
      ((isClient (d.mode n) && (d.binder n).isNone) || (isGfec (d.mode n) && d.get .SL_SRV_CTL_pay_mode (slIdx n) == 0))

/-! ### Defects (R80–R83) -/

/-- Whether the engines evaluate level l of source k: firmware ready, home queue served, unit RUN, level monitored (R23,
R82, R114). -/
def Dev.evaluates (d : Dev) (k l : Nat) : Bool :=
  d.bit .GLB_READY_FN_stride_fw 0 && d.served (d.homeHeat k) && d.srcRun k && d.monitored k l

/-- Whether C3 work of level l of source k is done: the engines evaluate it, and its home queue sheds nothing (R93, R111). -/
def Dev.c3Ready (d : Dev) (k l : Nat) : Bool :=
  d.evaluates k l && d.get .STR_HEAT_STAT_shed_state (d.homeHeat k) == 0

/-- TTI bytes of a 16-word register array of source k and level l. -/
def Dev.ttiWords (d : Dev) (k l : Nat) (f : Fld) : List Byte :=
  (List.range 16).flatMap (fun w => leBytes 4 (d.og k f 128 (l * 16 + w)))

/-- dTIM's condition: the accepted TTI differs from the expected one in the bytes tim_mode names (R76). -/
def Dev.timCond (d : Dev) (k l : Nat) : Bool :=
  match Table.find (d.oh k).ttiAcc l with
  | none => false
  | some acc =>
    let exp := d.ttiWords k l .CH_OH_TTI_EXP_exp
    let differ (lo n : Nat) : Bool := (acc.drop lo).take n != (exp.drop lo).take n
    if d.isStm k then
      match d.og k .CH_OH_LVL_CTL_tim_mode 8 l with
      | 1 => differ 0 16 | 2 => differ 0 1 | _ => false
    else
      match d.og k .CH_OH_LVL_CTL_tim_mode 8 l with
      | 1 => differ 0 16 | 2 => differ 16 16 | 3 => differ 0 32 | _ => false

/-- dPLM's condition, against the accepted PT (R77). -/
def Dev.plmCond (d : Dev) (k : Nat) : Bool :=
  d.og k .CH_OH_CTL_plm_en != 0 &&
    match Table.find (d.oh k).ohLast (16 * 1 + 2) with
    | some [v] => v.toNat != d.og k .CH_OH_CTL_exp_pt
    | _ => false

/-- The expected PIDs of the members of server n (R148). -/
def Dev.expPids (d : Dev) (n : Nat) : List Byte :=
  (leBytes 4 (d.get .SL_FLXO_EXP1_exp_pid_lo (slIdx n)) ++ leBytes 4 (d.get .SL_FLXO_EXP2_exp_pid_hi (slIdx n))).take
    (d.groupSize n)

/-- The defects that exist at level l of source k (R80, R81). -/
def Dev.codeAt (d : Dev) (k l code : Nat) : Bool :=
  if d.isStm k then (l, code) ∈ [(0, 0), (0, 1), (0, 8), (1, 4), (1, 18), (1, 17), (1, 12)]
  else match code with
    | 0 => l == 0 | 1 => l == 0 | 2 => l == 0 | 3 => l == 0
    | 4 => true | 5 => l != 0 | 6 => l != 0 | 7 => 2 ≤ l | 8 => true | 9 => true | 10 => l != 1 | 11 => l != 1
    | 12 => true | 13 => l == 1 | 14 => l == 1 && !isTribSrc k | 15 => l == 1 && !isTribSrc k
    | 16 => l == 1 && isTribSrc k | 18 => l == 0 && isFlexO (d.mode k) | 19 => l == 0 && isFlexO (d.mode k)
    | 20 => l == 0 && isFlexO (d.mode k) | _ => false

/-- Whether the dLOFLOM integrator of t has reached 3 ms, or INFRAME and MF_IN have held for 3 ms (R137). -/
def Dev.loflomDue (d : Dev) (t : Nat) (clr : Bool) : Bool :=
  let x := d.trib t
  if clr then persisted x.okSince d.ticks (msTicks 3)
  else x.loSince.isSome && decide (msTicks 3 ≤ reached x.loAcc x.loSince d.ticks)

/-- Whether a defect is C3 work: dTIM and dPLM, which hold while P3 is shed (R74, R93). -/
def c3Code (code : Nat) : Bool := code == 8 || code == 13

/-- The set or clear condition of a defect as the device holds it (R80, R81). -/
def Dev.defectCond (d : Dev) (k l code : Nat) (clr : Bool) : Bool :=
  let flip (b : Bool) : Bool := if clr then !b else b
  let o := d.oh k
  match code with
  | 0 => flip (d.lineLos k)
  | 1 => flip (d.bit .CH_ALN_STAT_dlof k)
  | 2 => flip (d.bit .CH_ALN_STAT_dlom k)
  | 3 => flip (d.bit .CH_FEC_STAT_fec_deg k)
  | 8 => flip (d.timCond k l)
  | 12 =>
    if d.isStm k then (let w := Table.get o.ms 12 .init; if clr then w.good else w.bad)
    else
      let w := Table.get o.deg l .init
      decide (d.og k .CH_OH_LVL_CTL_deg_m 8 l ≤ if clr then w.good else w.bad)
  | 13 => flip (d.plmCond k)
  | 14 => flip (d.bit .SL_SRV_STAT_msim (slIdx k))
  | 15 => flip (d.bit .SL_SRV_STAT_loomfi (slIdx k))
  | 16 => d.loflomDue (srcIdx k) clr
  | 17 => let w := Table.get o.ms 17 .init; if clr then w.good else w.bad
  | 19 =>
    match (d.server k).accGid with
    | some g => flip (g.toNat != d.get .SL_FLXO_EXP0_exp_gid (slIdx k))
    | none => clr
  | 20 => if (d.server k).accGid.isSome then flip ((d.server k).accPids != d.expPids k) else clr
  | _ => decide (frameNeed l code ≤ Table.get o.runs (runKey l code clr) 0)

/-- A defect is declared, or cleared, where its condition holds and the engines evaluate it; the actions follow in the
same C0 work (R86). -/
def Dev.defectChange (d : Dev) (k l code : Nat) (clr : Bool) : Dev :=
  if d.evaluates k l && (!c3Code code || d.c3Ready k l) && d.codeAt k l code && d.defectCond k l code clr then
    (d.setDefect k l code (!clr)).publish k
  else d

def execDefectDeclare (src : Src) (l : Lvl) (code : DefCode) (s : State) : Host.Outcome State Fault Refusal :=
  .next (s.onDev (fun d => d.defectChange (srcKey src) l.val code.val false))

def execDefectClear (src : Src) (l : Lvl) (code : DefCode) (s : State) : Host.Outcome State Fault Refusal :=
  .next (s.onDev (fun d => d.defectChange (srcKey src) l.val code.val true))

/-- A defect follows its condition as it stands. -/
def Dev.defectFollow (d : Dev) (k l code : Nat) : Dev :=
  if d.evaluates k l then (d.setDefect k l code (d.defectCond k l code false)).publish k else d

/-- Whether the dDEG window of level l has ended: its time is over, or DTIME has stepped to before its start (R83). -/
def Dev.degOver (d : Dev) (k l : Nat) : Bool :=
  let a := (Table.get (d.oh k).deg l .init).at_
  decide (a + d.degLen k l ≤ d.now) || decide (d.now < a)

/-- R83: a dDEG window of level l ends: bad, good or neither; dDEG at the deg_m-th consecutive one. -/
def Dev.ddegWindowEnd (d : Dev) (k l : Nat) : Dev :=
  if !d.degOver k l then d else
  let o := d.oh k
  let w := Table.get o.deg l .init
  let bad := decide (d.og k .CH_OH_DEGTHR_deg_thr 8 l ≤ w.eb)
  let w' : DegSt :=
    { eb := 0, valid := d.srcRun k && d.monitored k l, at_ := d.degBegin k l
      bad := if !w.valid then w.bad else if bad then w.bad + 1 else 0
      good := if !w.valid then w.good else if bad then 0 else w.good + 1 }
  let d := d.setOh k { o with deg := Table.put o.deg l w' .init }
  if !w.valid || d.isStm k || !d.evaluates k l then d
  else if bad then (if d.defectCond k l 12 false then (d.setDefect k l 12 true).publish k else d)
  else if d.defectCond k l 12 true then (d.setDefect k l 12 false).publish k else d

def execDdegWindowEnd (src : Src) (l : Lvl) (s : State) : Host.Outcome State Fault Refusal :=
  .next (s.onDev (·.ddegWindowEnd (srcKey src) l.val))

/-! ### Accepted values (R76–R78) -/

/-- R76: the TTI of level l has been the same in 3 consecutive multiframes. -/
def Dev.ttiAccept (d : Dev) (k l : Nat) : Dev :=
  let o := d.oh k
  let a := Table.get o.tti l .init
  if !(d.c3Ready k l && 3 ≤ a.run) then d
  else
    let d :=
      if Table.find o.ttiAcc l == some a.last then d
      else
        let d := d.setOh k { o with ttiAcc := Table.ins o.ttiAcc l a.last }
        let d := (List.range 16).foldl (fun d w =>
          d.oset k .CH_OH_TTI_ACC_acc (leField a.last (4 * w) 4) 128 (l * 16 + w)) d
        (((d.oset k .CH_OH_EVT_tti_chg 1).raise 0x0401 (ohArg k l)).ohItem k l 1 a.at_ a.last).logChange (.tti k l a.last)
    d.defectFollow k l 8

def execTtiAccept (src : Src) (l : Lvl) (s : State) : Host.Outcome State Fault Refusal :=
  .next (s.onDev (·.ttiAccept (srcKey src) l.val))

/-- R77: the payload type has been the same in 3 consecutive PSI multiframes. -/
def Dev.ptAccept (d : Dev) (k : Nat) : Dev :=
  let o := d.oh k
  if !(d.c3Ready k 1 && !d.isStm k && 3 ≤ o.pt.run) then d
  else
    let v := o.pt.last.headD 0
    let d := (d.oset k .CH_OH_ACC_acc_pt v.toNat).oset k .CH_OH_ACC_pt_valid 1
    let d := if Table.find o.ohLast 18 == some [v] then d
      else (((d.oset k .CH_OH_EVT_pt_chg 1).raise 0x0402 (ohArg k 1)).ohItem k 1 2 o.pt.at_ [v]).logChange (.pt k v)
    d.defectFollow k 1 13

def execPtAccept (src : Src) (s : State) : Host.Outcome State Fault Refusal := .next (s.onDev (·.ptAccept (srcKey src)))

/-- The level that a group's aps_lvl names in the MFAS coding of G.709. -/
def Dev.groupApsLevel (d : Dev) (g : Nat) : Nat := apsLevel (d.get .PRT_GRP_CFG_aps_lvl g)

/-- R78, R217: APS/PCC bytes of level l, or K1 and K2, have been identical 3 times; they are delivered to the selectors;
their record is C3 work (R74). -/
def Dev.apsAccept (d : Dev) (k l : Nat) : Dev :=
  let o := d.oh k
  let a := Table.get o.aps l .init
  if !(d.evaluates k l && 3 ≤ a.run) || Table.find o.apsAcc l == some a.last then d
  else
    let d := d.setOh k { o with apsAcc := Table.ins o.apsAcc l a.last, apsDue := Table.ins o.apsDue l a.at_ }
    let d := d.logChange (.aps k l (BitVec.ofNat 32 (leVal a.last)))
    (d.groupsOf k).foldl (fun d e =>
      if d.bit .PRT_GRP_CFG_aps_en e.1 && (d.isStm k || d.groupApsLevel e.1 == l) && d.running .pgroup e.1 then
        d.apsDeliver e.1 e.2 (leVal a.last)
      else d) d

def execApsAccept (src : Src) (l : Lvl) (s : State) : Host.Outcome State Fault Refusal :=
  .next (s.onDev (·.apsAccept (srcKey src) l.val))

/-! ### Failures (R85) -/

/-- Whether the fault cause of a defect is present. -/
def Dev.causeNow (d : Dev) (k l code : Nat) : Bool := (Table.get (d.oh k).causes (32 * l + code) ⟨false, 0⟩).present

/-- Whether the fault cause of a defect had stood as it stands for `units` tenths of a second at the last evaluation: the P3
that carried the 10 ms period, or the first after one that was shed (R85, R111). -/
def Dev.causePersists (d : Dev) (k l code units : Nat) : Bool :=
  let c := Table.get (d.oh k).causes (32 * l + code) ⟨false, 0⟩
  decide (c.since.toNat + units * 10 ^ 8 ≤ (d.oh k).evalAt.toNat)

/-- R85: the fault cause has persisted for fail_set. -/
def Dev.failureDeclare (d : Dev) (k l code : Nat) : Dev :=
  if d.evaluates k l && d.causeNow k l code && d.causePersists k l code (d.og k .CH_OH_FAIL_TIME_fail_set) then
    d.setFailure k l code true (d.oh k).evalAt
  else d

def execFailureDeclare (src : Src) (l : Lvl) (code : DefCode) (s : State) : Host.Outcome State Fault Refusal :=
  .next (s.onDev (·.failureDeclare (srcKey src) l.val code.val))

/-- R85: the fault cause has been absent for fail_clr. -/
def Dev.failureClear (d : Dev) (k l code : Nat) : Dev :=
  if d.evaluates k l && !d.causeNow k l code && d.causePersists k l code (d.og k .CH_OH_FAIL_TIME_fail_clr) then
    d.setFailure k l code false (d.oh k).evalAt
  else d

def execFailureClear (src : Src) (l : Lvl) (code : DefCode) (s : State) : Host.Outcome State Fault Refusal :=
  .next (s.onDev (·.failureClear (srcKey src) l.val code.val))

end Sys2Proof.Machine
end

