-- ==== Sys2Proof/Machine/Refs.lean ====
section
/-!
DEFINITION. The checked configuration tables (R274, R275): which block a register word lies in, the reference values and
the configuration digest (R278).
-/
namespace Sys2Proof.Machine

/-- The register with a number. -/
def Reg.ofIdx (n : Nat) : Option Reg := Reg.all[n]?

/-- Words of a register per step of its first n dimensions. -/
def Reg.per (r : Reg) (n : Nat) : Nat := ((r.info.dims.drop n).map (·.1)).foldl (· * ·) 1

/-- The blocks of slice s in table 3. -/
def sliceBlocks (s : Nat) : List Nat := (List.range 8).map (752 + 8 * s + ·)

/-- The blocks in which word i of register r lies (R275). The spec gives a table's size and its unit per block; of the
eight blocks of a slice in table 3, and for the lap settings in table 4, it gives no layout (log entry 9). -/
def Reg.blocks (r : Reg) (i : Nat) : List Nat :=
  match r.info.own with
  | .ch => [512 + i / r.per 1]
  | .tr => [704 + i / r.per 1 / 64]
  | .sp => sliceBlocks (i / r.per 1)
  | .fg => sliceBlocks (i / r.per 1)
  | .fc => sliceBlocks (i / r.per 1)
  | .port => if r = .SSW_CONN then sliceBlocks (if i < 3072 then i / 384 else sliceOf (i - 3072)) else [816 + i / 51]
  | .pg => [816 + i / r.per 1 / 32]
  | .fx => [880 + i / r.per 1 / 64]
  | .qu => [894 + i / r.per 1 / 256]
  | .pa => [910]
  | .re => [911]
  | .cs => [911]
  | .none => if r = .FLT_COEF then [892, 893] else []

/-- The active words that lie in block b, as key and value of those that differ from reset. -/
def Dev.blockWords (d : Dev) (b : Nat) : List Word :=
  d.regs.flatMap (fun e =>
    match Reg.ofIdx (e.1 / 2 ^ 20) with
    | some r => if (r.blocks (e.1 % 2 ^ 20)).contains b then [BitVec.ofNat 32 e.1, e.2] else []
    | none => [])

/-- The CRC-32C of a block of zeros. -/
def zeroBlock : Word := crc32c (List.replicate 4096 0)

/-- The 4,096 bytes of block b of the stride firmware RAM: the code from its first byte on, zeros behind it (log entry 9). -/
def Dev.fwBlock (d : Dev) (b : Nat) : List Byte := ((d.check.fw.drop (4096 * b)) ++ List.replicate 4096 0).take 4096

/-- The check value of block b as it stands (R274): of a block of the firmware RAM the CRC-32C of its bytes; of the other
tables, whose layout the spec does not give, a free function of the words in it (log entry 9). -/
def Dev.blockValue (d : Dev) (b : Nat) : Word :=
  if b < 512 then (if d.check.fw.length ≤ 4096 * b then zeroBlock else crc32c (d.fwBlock b))
  else Config.blockCrc b (d.blockWords b)

/-- The table of a block (R275). -/
def blockTable (b : Nat) : Nat :=
  if b < 512 then 0 else if b < 704 then 1 else if b < 752 then 2 else if b < 816 then 3 else if b < 880 then 4
  else if b < 892 then 5 else if b < 894 then 6 else if b < 910 then 7 else if b < 911 then 8 else 9

/-- The blocks that the digest covers, ascending (R275, R278). -/
def digestBlocks : List Nat := (List.range 912).filter (fun b => ! [0, 6, 8].contains (blockTable b))

/-- The configuration digest of the REF_A values (R278). -/
def Dev.digestNow (d : Dev) : Word := crc32c (digestBlocks.flatMap (fun b => leBytes 4 (d.word .CHK_REF_A b).toNat))

/-- CHK_TBL_BAD follows the blocks marked bad. -/
def Dev.badTables (d : Dev) : Dev :=
  d.set .CHK_TBL_BAD_bad_tbl 0
    ((List.range 10).foldl (fun v t => if d.check.bad.any (fun b => blockTable b == t) then v + 2 ^ t else v) 0)

/-- The device has written blocks bs (R274, R276, R278): both references, the marks and the digest. -/
def Dev.refWriteAll (d : Dev) (bs : List Nat) : Dev :=
  let d := bs.foldl (fun d b => (d.setWord .CHK_REF_A b (d.blockValue b)).setWord .CHK_REF_B b (d.blockValue b)) d
  let d : Dev := { d with check := { d.check with bad := d.check.bad.filter (fun b => !bs.contains b) } }
  (d.set .CHK_DIGEST_digest 0 d.digestNow.toNat).badTables

end Sys2Proof.Machine
end

