-- ==== Sys2Proof/Machine/Mapping.lean ====
section
/-!
DEFINITION. Tributary mapping and the slot switch (chapter 06): kinds and slot counts, the tributary life cycle, MSI and
learning, FlexE calendars, FlexO identifiers.
-/
namespace Sys2Proof.Machine

/-! ### Kinds and slot counts (R124–R126) -/

/-- The kind of a stream: class 0 none, 1–5 as ODU_CFG.kind, 6 ETH(s), 7 STM-64; s of ODUflex and ETH (R124). -/
structure Kind where
  cls : Nat
  s : Nat
deriving DecidableEq, Repr

/-- Switch slots of a kind: ⌈rate × (1 + tolerance) ÷ 1.25 Gbit/s⌉ (R125). -/
def Kind.slots (k : Kind) : Nat :=
  match k.cls with
  | 1 => 1 | 2 => 9 | 3 => 9 | 4 => 84
  | 5 => (k.s * 5156250 * 239 * 10001 + 238 * 10000 * 1250000 - 1) / (238 * 10000 * 1250000)
  | 6 => (k.s * 5156250 * 10001 + 10000 * 1250000 - 1) / (10000 * 1250000)
  | 7 => 8
  | _ => 0

/-- s of a client Ethernet format (R122). -/
def ethS : Nat → Nat
  | 0x04 => 2 | 0x10 => 20 | 0x11 => 80 | 0x12 => 160 | _ => 0

/-- The client kind of a channel format. -/
def clientKind (m : Nat) : Kind := if m = 0x01 then ⟨7, 0⟩ else if ethS m != 0 then ⟨6, ethS m⟩ else ⟨0, 0⟩

/-- The ODU of an OTU format: ODU2, ODU2e, ODU4. -/
def oduOf : Nat → Nat
  | 0x02 => 2 | 0x03 => 3 | 0x08 => 4 | _ => 0

/-- The kind of tributary t's LO ODU. -/
def Dev.tribKind (d : Dev) (t : Nat) : Kind :=
  if d.kind t = 0 then ⟨0, 0⟩ else ⟨d.kind t, if d.kind t = 5 then d.get .ODU_CFG_flex_s t else 0⟩

/-- The kind of the stream at port p, class 0 where it carries none (R129). -/
def Dev.portKind (d : Dev) (p : Nat) : Kind :=
  if !d.portLive p then ⟨0, 0⟩
  else if p < 3072 then d.tribKind p
  else
    let m := d.mode (p - 3072)
    if isClient m then clientKind m else ⟨oduOf m, 0⟩

/-- Permitted values of s: 2, 8 and every multiple of 5 up to 160 (R126). -/
def flexOk (s : Nat) : Bool := s == 2 || s == 8 || (s != 0 && s % 5 == 0 && s ≤ 160)

/-- Tributary slots of an ODUflex(IMP) of s in a server with slots of cap kbit/s (R126). -/
def flexSlots (s cap : Nat) : Nat :=
  (s * 5156250 * 239 * 10001 * 10 ^ 5 + 238 * 10 ^ 4 * cap * 99998 - 1) / (238 * 10 ^ 4 * cap * 99998)

/-- Tributary slots of a kind in an ODU4 server or an ODUCn server; 0 where the adaptation does not exist (R122). -/
def kindSlots (k : Kind) (cn : Bool) : Nat :=
  match k.cls with
  | 1 => if cn then 0 else 1
  | 2 => if cn then 2 else 8
  | 3 => if cn then 2 else 8
  | 4 => if cn then 20 else 0
  | 5 => if cn then flexSlots k.s 5240893 else if k.s ≤ 20 then flexSlots k.s 1301709 else 0
  | _ => 0

/-- Whether server n is an ODUCn. -/
def Dev.isCn (d : Dev) (n : Nat) : Bool := isFlexO (d.mode n)
/-- The tributary slots of server n: 80, or 20 per member (R127). -/
def Dev.srvSlots (d : Dev) (n : Nat) : Nat := if d.isCn n then 20 * d.groupSize n else 80
/-- The largest TPN of server n (R127). -/
def Dev.srvTpns (d : Dev) (n : Nat) : Nat := if d.isCn n then 10 * d.groupSize n else 80

/-- The tributary slots of t, 0-based, ascending. -/
def Dev.tribSlots (d : Dev) (t : Nat) : List Nat :=
  (List.range 160).filter (fun b => (d.get .ODU_TS_ts (t * 5 + b / 32)).testBit (b % 32))

/-- The tributaries of server n. -/
def Dev.srvTribs (d : Dev) (n : Nat) : List Nat :=
  d.tribList.filter (fun t => !d.bit .ODU_CFG_srv_none t && d.get .ODU_CFG_srv_ch t == n)

/-- ts_used, tribs and unlearned of server n (R150). -/
def Dev.srvRecount (d : Dev) (n : Nat) : Dev :=
  let ts := d.srvTribs n
  let used := ts.flatMap d.tribSlots
  let un := (List.range (d.srvSlots n)).filter (fun b => d.bit .SL_MSI_ACC_occupied (n * 160 + b) && !used.contains b)
  ((d.set .SL_SRV_STAT_ts_used (slIdx n) used.length).set .SL_SRV_STAT_tribs (slIdx n) ts.length).set
    .SL_SRV_STAT_unlearned (slIdx n) un.length

/-- ts_cnt and sw_slots of tributary t (R150). -/
def Dev.tribRecount (d : Dev) (t : Nat) : Dev :=
  let sw := if d.kind t = 0 then 0 else if d.tribMap t then
      (if d.bit .ODU_MAP_client_kind t then (Kind.mk 6 (d.get .ODU_CFG_flex_s t)).slots
       else (clientKind (d.mode (d.get .ODU_MAP_client t))).slots)
    else (d.tribKind t).slots
  (d.set .ODU_STAT_ts_cnt t (d.tribSlots t).length).set .ODU_STAT_sw_slots t sw

/-! ### Life cycle (R136, R137, R140) -/

/-- The groups that hold source k derive SF and SD again from what hardware keeps (R213). -/
def Dev.refreshGroups (d : Dev) (k : Nat) : Dev :=
  (d.groupsOf k).foldl (fun d e => if d.running .pgroup e.1 then d.groupConditions e.1 else d) d

/-- The LO aligner in SEARCH, without multiframe (R137). -/
def TribSt.search (x : TribSt) : TribSt :=
  { x with inFrame := false, goodRun := 0, errRun := 0, mfState := 0, mfRun := 0, mfMiss := 0, prevMf := none }

/-- The adaptation of tributary t is unlocked and its LO ODU sought again. -/
def Dev.relock (d : Dev) (t : Nat) : Dev :=
  let d := (d.setTrib t (d.trib t).search).set .ODU_STAT_adapt_lock t 0
  (d.set .ODU_STAT_lo_oof t 1).set .ODU_STAT_lo_oom t 1

/-- Entry to ACQUIRING: acq_cnt, the LO aligner and the dLOFLOM integrator start afresh (R136, R137). -/
def Dev.acquire (d : Dev) (t : Nat) : Dev :=
  let d := (d.relock t).set .ODU_STAT_tr_state t 2
  (d.setTrib t { d.trib t with loAcc := 0, loSince := some d.ticks, okSince := none }).bump .ODU_CNT_acq_cnt t 1

/-- LIVE to ACQUIRING (R136): event 0x0605 at most once per second. The adaptation of an entry that is ACQUIRING already is
no longer locked. -/
def Dev.reacquire (d : Dev) (t : Nat) : Dev :=
  if d.trState t = 3 then ((d.acquire t).raise1 0x0605 t t).refreshGroups (192 + t)
  else if d.trState t = 2 then d.set .ODU_STAT_adapt_lock t 0 else d

/-- A phase step of the server (R140): tributary t returns to ACQUIRING; one that is ACQUIRING relocks. -/
def Dev.phaseStep (d : Dev) (t : Nat) : Dev := if d.trState t = 2 then d.relock t else d.reacquire t

/-- Whether the server of t is as a LIVE entry needs it: RUN, in frame, without dLOOMFI, and without dMSIM on its slots
(R136). -/
def Dev.srvUp (d : Dev) (t : Nat) : Bool :=
  d.bit .ODU_CFG_srv_none t ||
    (let n := d.srvSignal t
     d.lineRun (d.get .ODU_CFG_srv_ch t) && d.lineRun n && d.alnState n == 3 && !d.tribLoomfi t && !d.tribMsim t)

/-- Whether the adaptation of t can lock: its server is up, and where it is a multiplex its multiframe is valid, that of OMFI
too in an ODU4 (R136, R138). -/
def Dev.srvLock (d : Dev) (t : Nat) : Bool :=
  d.srvUp t && (d.bit .ODU_CFG_srv_none t ||
    (let n := d.get .ODU_CFG_srv_ch t
     !d.isMux n || (d.get .CH_ALN_STAT_mf_state (d.srvSignal t) == 2 && (d.isCn n || !(d.server n).omfiOut))))

/-- LIVE entries of server n whose server is not up return to ACQUIRING (R136). -/
def Dev.serverCheckLive (d : Dev) (n : Nat) : Dev :=
  (d.srvTribs n).foldl (fun d t => if d.running .trib t && !d.srvUp t then d.reacquire t else d) d

/-- A tick of server n out of frame: its LIVE tributaries return to ACQUIRING (R136). -/
def Dev.serverDown (d : Dev) (n : Nat) : Dev :=
  if d.isMux n then (d.srvTribs n).foldl (fun d t => if d.running .trib t then d.reacquire t else d) d else d

/-- The tolerance of a kind in 0.1 ppm (R124). -/
def kindTol (kind : Nat) : Int := if kind = 3 || kind = 5 then 1000 else 200

/-- An elastic-store slip: counted, with event 0x060B for the first of a second (R151). -/
def Dev.slip (d : Dev) (t : Nat) : Dev := (d.bump .ODU_CNT_slip_cnt t 1).raise1 0x060B t t

/-- R136: the adaptation of an ACQUIRING entry locks at the LO rate measured, and the entry is LIVE once its LO frame is
aligned; a rate outside the kind's tolerance keeps it ACQUIRING, whatever its frame, and advances its slip counter. -/
def Dev.tribLive (d : Dev) (t : Nat) (ppm : BitVec 16) : Dev :=
  if !(d.running .trib t && d.trState t = 2 && d.srvLock t) then d
  else
    let d := d.set .ODU_RATE_rate_ppm t ppm.toNat
    if ppm.toInt < -kindTol (d.kind t) || kindTol (d.kind t) < ppm.toInt then (d.set .ODU_STAT_adapt_lock t 0).slip t
    else
      let d := d.set .ODU_STAT_adapt_lock t 1
      if (d.trib t).inFrame then ((d.set .ODU_STAT_tr_state t 3).raise 0x0604 t).refreshGroups (192 + t) else d

def execTribLive (t : Trib) (ratePpm : BitVec 16) (s : State) : Host.Outcome State Fault Refusal :=
  .next (s.onDev (·.tribLive t.val ratePpm))

/-- R136: a LIVE entry whose server is not up returns to ACQUIRING. -/
def Dev.tribReacquire (d : Dev) (t : Nat) : Dev := if d.running .trib t && !d.srvUp t then d.reacquire t else d

def execTribReacquire (t : Trib) (s : State) : Host.Outcome State Fault Refusal := .next (s.onDev (·.tribReacquire t.val))

/-- R136: an elastic-store slip: counted, event 0x060B for the first of a second, and the tributary reacquires. -/
def Dev.elasticSlip (d : Dev) (t : Nat) : Dev :=
  if !d.running .trib t then d else (d.slip t).reacquire t

def execElasticSlip (t : Trib) (s : State) : Host.Outcome State Fault Refusal := .next (s.onDev (·.elasticSlip t.val))

/-- R137: dLOFLOM, code 16 at level 1 of the tributary; its clearing returns the integrator to 0 (R64). -/
def Dev.loflom (d : Dev) (t : Nat) (clr : Bool) : Dev :=
  if 2 ≤ d.trState t then
    let d := d.defectChange (192 + t) 1 16 clr
    if clr && !d.defBit (192 + t) 1 16 then d.setTrib t { d.trib t with loAcc := 0 } else d
  else d

def execLoflomDeclare (t : Trib) (s : State) : Host.Outcome State Fault Refusal :=
  .next (s.onDev (·.loflom t.val false))

def execLoflomClear (t : Trib) (s : State) : Host.Outcome State Fault Refusal :=
  .next (s.onDev (·.loflom t.val true))

/-- R140: a phase step of a MUX server sends its RUN tributaries back to ACQUIRING; event 0x0607. -/
def Dev.serverResync (d : Dev) (n : Nat) : Dev :=
  if d.isMux n then
    ((d.srvTribs n).foldl (fun d t => if d.running .trib t then d.phaseStep t else d) d).raise 0x0607 n
  else d

/-- R62, R140: MF_REGAIN, with the resynchronisation of the server's tributaries where the flywheel steps. -/
def Dev.mfRegainStep (d : Dev) (n : Nat) : Dev :=
  if d.mfStepped n then (d.carriedBy (d.leader n)).foldl (fun d k => d.serverResync k) (d.mfRegain n) else d.mfRegain n

def execMfRegain (n : Chan) (s : State) : Host.Outcome State Fault Refusal := .next (s.onDev (·.mfRegainStep n.val))

/-! ### dLOOMFI (R138) -/

/-- dLOOMFI of server n takes value b, with code 15 at level 1, while the engines publish (R23, R213); its LIVE tributaries
reacquire (R136). -/
def Dev.setLoomfi (d : Dev) (n : Nat) (b : Bool) : Dev :=
  ((d.setB .SL_SRV_STAT_loomfi (slIdx n) b).defectFollow n 1 15).serverCheckLive n

/-- Whether the OMFI multiframe of server n has been lost, or in, for the 3 ms of G.798 (R138, log entry 61). -/
def Dev.omfiFor (d : Dev) (n : Nat) (out : Bool) : Bool :=
  let x := d.server n
  x.omfi.isSome && x.omfiOut == out && decide (x.omfiSince + msTicks 3 ≤ d.ticks)

/-- R138: the OMFI multiframe has been lost for 3 ms. -/
def Dev.loomfiDeclare (d : Dev) (n : Nat) : Dev :=
  if d.evaluates n 1 && d.isMux n && !d.isCn n && d.omfiFor n true then d.setLoomfi n true else d

def execLoomfiDeclare (n : Chan) (s : State) : Host.Outcome State Fault Refusal :=
  .next (s.onDev (·.loomfiDeclare n.val))

/-- R138: the OMFI multiframe has been regained for 3 ms. -/
def Dev.loomfiClear (d : Dev) (n : Nat) : Dev :=
  if d.evaluates n 1 && d.isMux n && !d.isCn n && d.omfiFor n false then d.setLoomfi n false else d

def execLoomfiClear (n : Chan) (s : State) : Host.Outcome State Fault Refusal :=
  .next (s.onDev (·.loomfiClear n.val))

/-! ### Freeing and allocating entries (R136, R141–R143) -/

/-- The UNIT registers of tributary t in its ODU block and its connection. -/
def tribOwnRegs : List (Reg × Nat) :=
  [(.ODU_CFG, 1), (.ODU_MAP, 1), (.ODU_TS, 5), (.SSW_CONN, 1), (.ODU_OH_CTL, 1), (.ODU_OH_XSEL, 1), (.ODU_OH_FAIL_TIME, 1),
   (.ODU_OH_LVL_CTL, 8), (.ODU_OH_DEGTHR, 8), (.ODU_PM_CTL, 1), (.ODU_OH_TTI_EXP, 128), (.ODU_OH_TTI_TX, 128)]

/-- A field set in both the active and the shadow word. -/
def Dev.setBoth (d : Dev) (f : Fld) (i v : Nat) : Dev :=
  (d.set f i v).setShWord f.reg i (f.into (d.shWord f.reg i) v)

/-- Active and shadow configuration of tributary t back at reset: slots, TPN and connections released. -/
def Dev.tribClearCfg (d : Dev) (t : Nat) : Dev :=
  tribOwnRegs.foldl (fun d r => (List.range r.2).foldl (fun d j =>
    let i := t * r.2 + j
    (d.setWord r.1 i (r.1.resetWord i)).setShWord r.1 i (r.1.resetWord i)) d) d

/-- The checked blocks that hold tributary t's entry and connection (R275). -/
def tribBlocks (t : Nat) : List Nat := (Reg.ODU_CFG).blocks t ++ (Reg.SSW_CONN).blocks t

/-- Whether the unit-control engine has an operation of software in progress (R342). -/
def Dev.ucBusy (d : Dev) : Bool := d.bit .GLB_UC_STAT_uc_busy 0

/-- Whether the device is stopping tributary t to free it (R136, R144). -/
def Dev.freeing (d : Dev) (t : Nat) : Bool := d.host.freeing.contains t

/-- A learned entry whose unit is STOPPED is freed (R136, R141, R143): event 0x0602. -/
def Dev.learnedFreed (d : Dev) (t : Nat) : Dev :=
  let n := d.get .ODU_CFG_srv_ch t
  let d : Dev := { d with host := { d.host with freeing := d.host.freeing.filter (· != t) } }
  let d := (((d.tribClearCfg t).setWord .ODU_STAT t 0).setTrib t .init).refWriteAll (tribBlocks t)
  ((d.srvRecount n).logChange (.freed t)).raise 0x0602 t

/-- A tributary leaves RUN: HELD, defects clear (R82, R136). -/
def Dev.tribStop (d : Dev) (t : Nat) : Dev :=
  let d := if 2 ≤ d.trState t then (d.set .ODU_STAT_tr_state t 1).set .ODU_STAT_adapt_lock t 0 else d
  (d.srcStopped (192 + t)).refreshGroups (192 + t)

/-- The device stops a learned entry to free it (R136, R141, R143): through unit control, STOPPING until its next LO ODU frame
boundary (R144, R341). -/
def Dev.learnedFree (d : Dev) (t : Nat) : Dev :=
  if d.stopped .trib t then d.learnedFreed t
  else (({ d with host := { d.host with freeing := d.host.freeing ++ [t] } } : Dev).setUst .trib t 1).tribStop t

/-- A learned entry freed at once, as the active device has freed its own (R242). -/
def Dev.learnedDrop (d : Dev) (t : Nat) : Dev := ((d.srcStopped (192 + t)).reach .trib t 2).learnedFreed t

/-- The slots of server n whose accepted MSI carries TPN p. -/
def Dev.msiSlots (d : Dev) (n p : Nat) : List Nat :=
  (List.range (d.srvSlots n)).filter (fun b =>
    d.bit .SL_MSI_ACC_occupied (n * 160 + b) && d.get .SL_MSI_ACC_tpn (n * 160 + b) == p)

/-- The entry of server n with TPN p, but for one that is being freed. -/
def Dev.tribOfTpn (d : Dev) (n p : Nat) : Option Nat :=
  (d.srvTribs n).find? (fun t => d.get .ODU_CFG_tpn t == p && !d.freeing t)

/-- The kinds whose slot count is c (R142). -/
def kindsOfCount (c : Nat) (cn : Bool) : List Kind :=
  (([⟨1, 0⟩, ⟨2, 0⟩, ⟨3, 0⟩, ⟨4, 0⟩] : List Kind) ++ ((List.range 161).filter flexOk).map (Kind.mk 5)).filter (fun k =>
    c != 0 && kindSlots k cn == c)

/-- Learning is refused: event 0x0603 once per server and second. -/
def Dev.learnRefused (d : Dev) (n reason : Nat) : Dev := d.raise1 0x0603 n (n + reason * 256)

/-- The kind inferred from slot count and rate in kbit/s: nominal within ±1,000 ppm (R142). -/
def inferKind (c rate : Nat) (cn : Bool) : Option Kind :=
  (kindsOfCount c cn).find? (fun k =>
    let nom := kindRate k.cls k.s
    decide (rate * 1000 * 999 ≤ nom * 1000) && decide (nom * 1000 ≤ rate * 1000 * 1001))

/-- The entries of the learn range of server n (R143). -/
def Dev.learnRange (d : Dev) (n : Nat) : List Nat :=
  ((List.range (d.get .SL_LEARN_learn_cnt (slIdx n))).map (d.get .SL_LEARN_learn_base (slIdx n) + ·)).filter (· < 3072)

/-- Whether the learn range of server n has entries, and none is FREE (R150). -/
def Dev.learnFull (d : Dev) (n : Nat) : Bool :=
  !(d.learnRange n).isEmpty && (d.learnRange n).all (fun t => d.kind t != 0 || d.trState t != 0)

/-- The lowest FREE entry of the learn range of server n (R143). An entry of kind NONE whose unit software has started does not
count: only a STOPPED one is allocated, the spec not saying whether a RUN one may be (DESIGN CHOICE, log entry 62). -/
def Dev.learnEntry (d : Dev) (n : Nat) : Option Nat :=
  (d.learnRange n).find? (fun t => d.kind t == 0 && d.trState t == 0 && d.stopped .trib t)

/-- The entry of R143: configuration, level modes of the template, RUN, ACQUIRING, event 0x0601. -/
def Dev.learnedStart (d : Dev) (n t tpn : Nat) (k : Kind) (slots : List Nat) : Dev :=
  let d := d.tribClearCfg t
  let d := (((d.setBoth .ODU_CFG_kind t k.cls).setBoth .ODU_CFG_srv_ch t n).setBoth .ODU_CFG_flex_s t k.s).setBoth
    .ODU_CFG_tpn t tpn
  let d := (List.range 5).foldl (fun d w =>
    d.setBoth .ODU_TS_ts (t * 5 + w) (slots.foldl (fun v b => if b / 32 = w then v + 2 ^ (b % 32) else v) 0)) d
  let tm := d.get .SL_SRV_CTL_tmpl_mode (slIdx n)
  let d := (List.range 7).foldl (fun d l => d.setBoth { (Fld.CH_OH_LVL_CTL_lvl_mode) with reg := .ODU_OH_LVL_CTL }
    (t * 8 + l + 1) tm) d
  let d := (d.refWriteAll (tribBlocks t)).logChange
    (.learned t (d.word .ODU_CFG t) ((List.range 5).map (fun w => d.word .ODU_TS (t * 5 + w))))
  let d := ((((d.set .ODU_STAT_learned t 1).acquire t).tribRecount t).srvRecount n).reach .trib t 0
  (d.srcStarted (192 + t)).raise 0x0601 t

/-- The time of a rate measurement: 16 tributary-slot multiframes (R142). -/
def measureTicks (cn : Bool) : Nat := usTicks (if cn then 372 else 1495)

/-- Whether the rate of TPN p has been measured for that time. -/
def Dev.measured (d : Dev) (n p : Nat) : Bool :=
  persisted (Table.find (d.server n).measure p) d.ticks (measureTicks (d.isCn n))

/-- R142, R143: the rate of a new TPN has been measured: its kind is inferred and a FREE entry allocated and started. The
operation waits while the unit-control engine is busy (R342). -/
def Dev.learnAllocate (d : Dev) (n tpn rate : Nat) : Dev :=
  let v := d.server n
  let slots := d.msiSlots n tpn
  if !(d.isMux n && !d.standby && d.bit .SL_SRV_CTL_psi_mode (slIdx n) && d.c3Ready n 1 && d.measured n tpn
      && !slots.isEmpty && (d.tribOfTpn n tpn).isNone) || d.ucBusy then d
  else
    let d := d.setServer n { v with measure := Table.del v.measure tpn }
    match inferKind slots.length rate (d.isCn n) with
    | none => (d.learnRefused n 2).srvRecount n
    | some k =>
      match d.learnEntry n with
      | none => (d.learnRefused n 1).srvRecount n
      | some t => d.learnedStart n t tpn k slots

def execLearnAllocate (n : Chan) (tpn : Byte) (rate : Nat) (s : State) : Host.Outcome State Fault Refusal :=
  .next (s.onDev (·.learnAllocate n.val tpn.toNat rate))

/-- Whether the TPN of t has been absent for learn_free (R143). -/
def Dev.absentLong (d : Dev) (t : Nat) : Bool :=
  let x := d.trib t
  x.absentSince.isSome && decide (d.get .SL_LEARN_learn_free (slIdx (d.get .ODU_CFG_srv_ch t)) * 10 ^ 8
    ≤ reached x.absentAcc x.absentSince d.now)

/-- R143: a learned TPN has been absent for learn_free, with an accepted MSI and no aTSF at level 1 of its server. -/
def Dev.learnFree (d : Dev) (t : Nat) : Dev :=
  let n := d.get .ODU_CFG_srv_ch t
  if d.bit .ODU_STAT_learned t && !d.freeing t && !d.ucBusy && !d.standby && d.absentLong t && d.bit .SL_SRV_STAT_msi_acc (slIdx n) && !d.atsf (d.carried n) 1
      && d.c3Ready n 1 then d.learnedFree t
  else d

def execLearnFree (t : Trib) (s : State) : Host.Outcome State Fault Refusal := .next (s.onDev (·.learnFree t.val))

/-! ### The accepted MSI (R139, R141, R144) -/

/-- Slot b of an MSI: occupied and TPN. An ODU4 has one byte per slot; an ODUCn two, the slots of its instances in
rotation (G.709). -/
def msiSlot (m : List Byte) (inst b : Nat) (cn : Bool) : Bool × Nat :=
  if cn then
    let hi := byteAt m (2 * (b / inst) * inst + b % inst)
    let lo := byteAt m ((2 * (b / inst) + 1) * inst + b % inst)
    (lo.getLsbD 7, hi.toNat % 128 * 128 + lo.toNat % 128 + 1)
  else
    let v := byteAt m b
    (v.getLsbD 7, v.toNat % 128 + 1)

/-- The accepted MSI enters SL_MSI_ACC. -/
def Dev.msiStore (d : Dev) (n : Nat) (m : List Byte) : Dev :=
  let inst := if d.isCn n then d.groupSize n else 1
  (List.range (d.srvSlots n)).foldl (fun d b =>
    let e := msiSlot m inst b (d.isCn n)
    (d.set .SL_MSI_ACC_tpn (n * 160 + b) (if e.1 then e.2 else 0)).setB .SL_MSI_ACC_occupied (n * 160 + b) e.1)
    (d.set .SL_SRV_STAT_msi_acc (slIdx n) 1)

/-- The accepted MSI of server n as a change record carries it (R249): TPN and occupancy of slots 1 to 160. -/
def Dev.msiValue (d : Dev) (n : Nat) : List Byte × List Bool :=
  ((List.range 160).map (fun b => BitVec.ofNat 8 (d.get .SL_MSI_ACC_tpn (n * 160 + b))),
   (List.range 160).map (fun b => d.bit .SL_MSI_ACC_occupied (n * 160 + b)))

/-- Whether a slot of tributary t differs from the accepted MSI. -/
def Dev.msiDiffers (d : Dev) (n t : Nat) : Bool :=
  (d.tribSlots t).any (fun b =>
    !(d.bit .SL_MSI_ACC_occupied (n * 160 + b) && d.get .SL_MSI_ACC_tpn (n * 160 + b) == d.get .ODU_CFG_tpn t))

/-- dMSIM against the entries that hold their place: all in FIXED mode, where an occupied slot of no entry differs too;
the pinned ones in LEARN mode (R139, R144). -/
def Dev.msimJudge (d : Dev) (n : Nat) : Dev :=
  let learn := d.bit .SL_SRV_CTL_psi_mode (slIdx n)
  let ts := d.srvTribs n
  let held := ts.filter (fun t => !(learn && d.bit .ODU_STAT_learned t))
  let d := ts.foldl (fun d t => d.setTrib t { d.trib t with msim := held.contains t && d.msiDiffers n t }) d
  let used := ts.flatMap d.tribSlots
  let stray := !learn && (List.range (d.srvSlots n)).any (fun b =>
    d.bit .SL_MSI_ACC_occupied (n * 160 + b) && !used.contains b)
  let b := stray || held.any (fun t => (d.trib t).msim)
  ((d.setB .SL_SRV_STAT_msim (slIdx n) b).defectFollow n 1 14).serverCheckLive n

/-- Learning for one TPN of the accepted MSI (R141). -/
def Dev.learnTpn (d : Dev) (n p : Nat) : Dev :=
  let slots := d.msiSlots n p
  let pinned := (d.srvTribs n).any (fun t =>
    !d.bit .ODU_STAT_learned t && (d.get .ODU_CFG_tpn t == p || (d.tribSlots t).any slots.contains))
  if slots.isEmpty || pinned then d
  else
    let gone := match d.tribOfTpn n p with
      | some t => if d.tribSlots t == slots then none else some t
      | none => none
    let d := match gone with | some t => d.learnedFree t | none => d
    match d.tribOfTpn n p with
    | some t => d.setTrib t { d.trib t with absent := false, absentAcc := 0, absentSince := none }
    | none =>
      if (kindsOfCount slots.length (d.isCn n)).isEmpty then d.learnRefused n 2
      else if (Table.find (d.server n).measure p).isSome then d
      else d.setServer n { d.server n with measure := Table.ins (d.server n).measure p d.ticks }

/-- Learned entries whose TPN the accepted MSI does not carry start their free timer (R141, R143). -/
def Dev.learnAbsent (d : Dev) (n : Nat) : Dev :=
  (d.srvTribs n).foldl (fun d t =>
    if d.bit .ODU_STAT_learned t && (d.msiSlots n (d.get .ODU_CFG_tpn t)).isEmpty && !(d.trib t).absent then
      d.setTrib t (({ d.trib t with absent := true, absentAcc := 0, absentSince := none } : TribSt).absentRun d.now
        (!d.atsf (d.carried n) 1))
    else d) d

/-- R139: the MSI has been identical in 3 PSI multiframes: accepted, judged against the map, and learned from. A measurement
goes on while the slots of its TPN stay as they were. -/
def Dev.msiAccept (d : Dev) (n : Nat) : Dev :=
  let v := d.server n
  if !(d.isMux n && d.c3Ready n 1 && 3 ≤ v.psiRun) then d
  else
    let was := d.msiValue n
    let slots := (v.measure).map (fun e => d.msiSlots n e.1)
    let d := d.msiStore n v.psiLast
    let d := d.setServer n { v with measure := ((v.measure.zip slots).filter (fun e => d.msiSlots n e.1.1 == e.2)).map (·.1) }
    let d := if d.msiValue n == was then d else d.logChange (.msi n (d.msiValue n).1 (d.msiValue n).2)
    let d := if d.bit .SL_SRV_CTL_psi_mode (slIdx n) && !d.standby then
        ((List.range (d.srvTpns n)).foldl (fun d j => d.learnTpn n (j + 1)) d).learnAbsent n
      else d
    (d.msimJudge n).srvRecount n

def execMsiAccept (n : Chan) (s : State) : Host.Outcome State Fault Refusal := .next (s.onDev (·.msiAccept n.val))

/-! ### FlexE (R145–R147) -/

/-- The key of group j of slice s. -/
def fxKey (s j : Nat) : Nat := s * 8 + j

/-- The member PHYs of FlexE group k, ascending. -/
def Dev.flexePhys (d : Dev) (k : Nat) : List Nat :=
  ((List.range 24).filter (fun b => (d.get .SL_FLXE_GRP0_phys k).testBit b)).map (24 * (k / 8) + ·)

/-- The argument of FlexE events. -/
def fxArg (k : Nat) : Nat := k % 8 + k / 8 * 16

/-- A request for the inactive calendar is sent with CR (R147 steps 1 and 2), unless a switch is in progress or nothing
changes. -/
def Dev.flexeRequest (d : Dev) (k : Nat) : Dev :=
  let x := d.fx k
  if x.crOut.isSome || x.want == x.txSlots then d
  else
    (d.setFx k { x with nextSlots := x.want, crOut := some (!d.bit .SL_FLXE_GRP_STAT_cal_act k), crAt := d.ticks, caIn := false
                        switched := false }).set .SL_FLXE_GRP_STAT_cal_busy k 1

/-- The calendar slots of FlexE client x. -/
def Dev.flexeSlots (d : Dev) (x : Nat) : List Nat :=
  (List.range 160).filter (fun b => (d.get .SL_FLXE_CLIS_slots (x * 5 + b / 32)).testBit (b % 32))

/-- START of the tributary that binds FlexE client x (R147): its slots are asked for, every other client's as they were;
starts during a switch are merged into one further switch. A client that has left a group, by another grp or by a freed
tributary, keeps its slots in that group's calendar, the spec naming no request that drops them (DESIGN CHOICE, log entry
63). -/
def Dev.flexeClientStart (d : Dev) (x : Nat) : Dev :=
  let k := x / 32 * 8 + d.get .SL_FLXE_CLI0_grp x
  let y := d.fx k
  let others := y.want.filter (fun e => e.2 != x)
  let mine := if d.bit .SL_FLXE_CLI0_cli_en x then d.flexeSlots x else []
  (d.setFx k { y with want := mine.foldl (fun t b => Table.ins t b x) others }).flexeRequest k

/-- R147 step 3: the peer's CA arrives. -/
def Dev.flexeCa (d : Dev) (k : Nat) : Dev :=
  let x := d.fx k
  if x.crOut.isSome then d.setFx k { x with caIn := true } else d

def execFlexeCaReceived (sl : Slice) (j : Fin 8) (s : State) : Host.Outcome State Fault Refusal :=
  .next (s.onDev (·.flexeCa (fxKey sl.val j.val)))

/-- R147 step 3: the transmit calendar switches at the multiframe boundary after CA, and CCC is signalled. -/
def Dev.flexeTxSwitch (d : Dev) (k : Nat) : Dev :=
  let x := d.fx k
  match x.crOut with
  | some c =>
    if x.caIn && !x.switched then
      ((d.setFx k { x with txSlots := x.nextSlots, switched := true, cccOut := c }).setB .SL_FLXE_GRP_STAT_cal_act k c).logChange
        (.flexeCal k c)
    else d
  | none => d

def execFlexeTxCalSwitch (sl : Slice) (j : Fin 8) (s : State) : Host.Outcome State Fault Refusal :=
  .next (s.onDev (·.flexeTxSwitch (fxKey sl.val j.val)))

/-- R147 steps 4 and 5: the peer's CCC changes: the receive calendar switches; where the device's own switch awaited it,
event 0x0608 ends that switch, and a merged one follows. -/
def Dev.flexeCcc (d : Dev) (k : Nat) : Dev :=
  let x := d.fx k
  let x := { x with rxCal := !x.rxCal }
  match x.crOut, x.switched with
  | some c, true =>
    let d := (d.setFx k { x with crOut := none, caIn := false, switched := false }).set .SL_FLXE_GRP_STAT_cal_busy k 0
    (d.raise 0x0608 (fxArg k + if c then 256 else 0)).flexeRequest k
  | _, _ => d.setFx k x

def execFlexeCccReceived (sl : Slice) (j : Fin 8) (s : State) : Host.Outcome State Fault Refusal :=
  .next (s.onDev (·.flexeCcc (fxKey sl.val j.val)))

/-- R147: 100 ms without CA: event 0x0609; the request is repeated every 100 ms, the old calendar staying in force. -/
def Dev.flexeCaTimeout (d : Dev) (k : Nat) : Dev :=
  let x := d.fx k
  if x.crOut.isSome && !x.caIn && x.crAt + msTicks 100 ≤ d.ticks then
    (d.setFx k { x with crAt := d.ticks }).raise 0x0609 (fxArg k)
  else d

def execFlexeCaTimeout (sl : Slice) (j : Fin 8) (s : State) : Host.Outcome State Fault Refusal :=
  .next (s.onDev (·.flexeCaTimeout (fxKey sl.val j.val)))

/-- R145: the peer asks for a calendar with CR; the device answers with CA. -/
def Dev.flexeCr (d : Dev) (k : Nat) (cal : Bool) : Dev :=
  if d.bit .SL_FLXE_GRP0_grp_en k then d.setFx k { d.fx k with caOut := some cal } else d

def execFlexeCrReceived (sl : Slice) (j : Fin 8) (cal : Bool) (s : State) : Host.Outcome State Fault Refusal :=
  .next (s.onDev (·.flexeCr (fxKey sl.val j.val) cal))

/-- R145, R146: the group's conditions take new values; it is aligned only within the deskew capacity of 10 µs, and each change
raises event 0x060A. -/
def Dev.flexeStatus (d : Dev) (k : Nat) (st : BitVec 6) (skew : Nat) : Dev :=
  if !d.bit .SL_FLXE_GRP0_grp_en k then d
  else
    let f : Fld := ⟨.SL_FLXE_GRP_STAT, 0, 6⟩
    let was := d.get f k
    let st := putBit st.toNat 0 (st.getLsbD 0 && skew ≤ 1000)
    let d := (d.set f k st).set .SL_FLXE_GRP_STAT_skew k skew
    d.raiseIf (was != st) 0x060A (fxArg k + st * 256)

def execFlexeGroupStatus (sl : Slice) (j : Fin 8) (st : BitVec 6) (skew : BitVec 10) (s : State) :
    Host.Outcome State Fault Refusal :=
  .next (s.onDev (·.flexeStatus (fxKey sl.val j.val) st skew.toNat))

/-! ### FlexO identifiers (R148) -/

/-- R148: group identifier and PHY map accepted, a PID for each member of the group, and compared with the expected ones
(codes 19 and 20). -/
def Dev.flexoId (d : Dev) (n : Nat) (gid : BitVec 20) (pids : List Byte) : Dev :=
  let l := d.leader n
  if isFlexO (d.mode l) && d.lineRun l then
    ((d.setServer l { d.server l with accGid := some gid, accPids := pids.take (d.groupSize l) }).defectFollow l 0 19).defectFollow l 0 20
  else d

def execFlexoIdAccept (n : Chan) (gid : BitVec 20) (pids : List Byte) (s : State) : Host.Outcome State Fault Refusal :=
  .next (s.onDev (·.flexoId n.val gid pids))

end Sys2Proof.Machine
end

