-- ==== Sys2Proof/Machine/Journal.lean ====
section
/-!
DEFINITION. The 32 bytes of an event record (R343), and the boot-journal entry as the flash holds it (R362).
-/
namespace Sys2Proof.Machine

/-- Bytes with their CRC-32C behind them. -/
def sealed (bs : List Byte) : List Byte := bs ++ leBytes 4 (crc32c bs).toNat

/-- A record whose last four bytes are the CRC-32C of the bytes before. -/
def sealedOk (b : List Byte) : Bool := b == sealed (b.take (b.length - 4))

/-- The bytes of an event record (R343). -/
def evBytes (e : EvRec) : List Byte :=
  sealed (leBytes 2 e.id.toNat ++ leBytes 2 e.arg.toNat ++ leBytes 4 e.seq.toNat ++ leBytes 8 e.at_.toNat
    ++ [BitVec.ofNat 8 (bitNat e.pairId + 2 * bitNat e.owning)] ++ List.replicate 11 0)

/-- The history field of a stage, 28 bytes. -/
def JEntry.hist (e : JEntry) : List Byte :=
  (match e.stage with
    | 2 => leBytes 4 e.histA ++ leBytes 4 e.histB
    | 5 => leBytes 6 e.histA ++ leBytes 6 e.histB
    | 6 => leBytes 2 e.histA ++ leBytes 1 e.histB
    | 8 => leBytes 1 e.histA
    | _ => []) ++ List.replicate 28 0 |>.take 28

/-- The opening record. -/
def JEntry.openingBytes (e : JEntry) : List Byte :=
  sealed (leBytes 4 0x4A424E4C ++ [1, BitVec.ofNat 8 e.stage, BitVec.ofNat 8 e.attempt, BitVec.ofNat 8 e.strike]
    ++ leBytes 4 e.jseq ++ leBytes 4 e.startNo ++ leBytes 8 e.opened.toNat
    ++ [BitVec.ofNat 8 e.action, BitVec.ofNat 8 e.cause, BitVec.ofNat 8 e.slot, 0] ++ leBytes 4 e.hdrCrc.toNat ++ e.hist)

/-- Progress record i. -/
def JProg.bytes (p : JProg) (i : Nat) : List Byte :=
  sealed ([0x50, 0] ++ leBytes 2 i ++ leBytes 4 p.at_.toNat ++ leBytes 6 p.begun ++ leBytes 6 p.done ++ leBytes 6 p.failed
    ++ [BitVec.ofNat 8 p.pinRate, 0])

/-- The closing record. -/
def JClose.bytes (c : JClose) : List Byte :=
  sealed ([0x43, BitVec.ofNat 8 c.result, BitVec.ofNat 8 c.reason, 0] ++ leBytes 8 c.at_.toNat ++ leBytes 6 c.done
    ++ leBytes 6 c.failed ++ leBytes 4 0)

/-- Bytes padded to n with erased bytes. -/
def erasedTo (n : Nat) (bs : List Byte) : List Byte := (bs ++ List.replicate n 0xFF).take n

/-- The 4 KiB of an entry: what it does not hold stays erased. -/
def JEntry.bytes (e : JEntry) : List Byte :=
  erasedTo 256 e.openingBytes
    ++ erasedTo 3584 ((e.progress.zipIdx.take 112).flatMap (fun p => p.1.bytes p.2))
    ++ erasedTo 256 ((e.closing.map JClose.bytes).getD [])

end Sys2Proof.Machine
end

