-- ==== Sys2Proof/Machine/Check.lean ====
section
/-!
DEFINITION. Check units (chapter 11): CRC engines, the memory-scan engine, table checking, scrubbing, alive counters; and
the pool rebuild (R202).
-/
namespace Sys2Proof.Machine

/-! ### CRC engines (R267–R270) -/

/-- A 64-bit value of a register pair. -/
def Dev.pairVal (d : Dev) (lo hi : Reg) (k : Nat) : Nat := (d.word lo k).toNat + (d.word hi k).toNat * 2 ^ 32

/-- A 64-bit value into a register pair. -/
def Dev.setPairVal (d : Dev) (lo hi : Reg) (k v : Nat) : Dev :=
  (d.setWord lo k (BitVec.ofNat 32 v)).setWord hi k (BitVec.ofNat 32 (v / 2 ^ 32))

/-- The parameters of engine k, values reduced to its width. -/
def Dev.ckParams (d : Dev) (k : Nat) : CrcParams :=
  let w := d.get .CHK_CK_CFG_width k
  { width := w
    poly := d.pairVal .CHK_CK_POLY_LO .CHK_CK_POLY_HI k % 2 ^ w
    init := d.pairVal .CHK_CK_INIT_LO .CHK_CK_INIT_HI k % 2 ^ w
    refin := d.bit .CHK_CK_CFG_refin k
    refout := d.bit .CHK_CK_CFG_refout k
    xorout := d.pairVal .CHK_CK_XOR_LO .CHK_CK_XOR_HI k % 2 ^ w }

/-- Whether the width of engine k is one R267 gives a meaning: 1 to 64. -/
def Dev.ckWidthOk (d : Dev) (k : Nat) : Bool := 1 ≤ d.get .CHK_CK_CFG_width k && d.get .CHK_CK_CFG_width k ≤ 64

/-- Two free words as a 64-bit value (log entry 2). -/
def Dev.draw64 (d : Dev) : Nat × Dev :=
  let a := d.draw
  let b := a.2.draw
  (a.1.toNat + b.1.toNat * 2 ^ 32, b.2)

/-- CHK_CK_RES follows run and the parameters at all times (R270). -/
def Dev.ckShow (d : Dev) (k : Nat) : Dev :=
  if d.ckWidthOk k then
    d.setPairVal .CHK_CK_RES_LO .CHK_CK_RES_HI k
      (crcResult (d.ckParams k) (d.pairVal .CHK_CK_RUN_LO .CHK_CK_RUN_HI k))
  else d.draw64.2.setPairVal .CHK_CK_RES_LO .CHK_CK_RES_HI k d.draw64.1

/-- Engine k takes a running value. -/
def Dev.ckSetRun (d : Dev) (k v : Nat) : Dev := (d.setPairVal .CHK_CK_RUN_LO .CHK_CK_RUN_HI k v).ckShow k

/-- Bytes fed to engine k, in order (R269). With a width outside 1–64 the value that results is free (log entry 2). -/
def Dev.ckFeed (d : Dev) (k : Nat) (bs : List Byte) : Dev :=
  let d := if d.ckWidthOk k then d.ckSetRun k (crcBytes (d.ckParams k) (d.pairVal .CHK_CK_RUN_LO .CHK_CK_RUN_HI k) bs)
    else d.draw64.2.ckSetRun k d.draw64.1
  d.wrap .CHK_CK_BYTES_bytes k bs.length

/-- Whether PD_SCAN is on. -/
def Dev.scanOn (d : Dev) : Bool := d.pdOn domScan

/-- A write or command refused by engine k: ck_err, event 0x0B08 (R269). -/
def Dev.ckRefuse (d : Dev) (k : Nat) : Dev := (d.set .CHK_CK_STAT_ck_err k 1).raise 0x0B08 k

/-- A write or command f of engine k while PD_SCAN is on, refused while a scan job owns the engine (R269). -/
def Dev.ckDo (d : Dev) (k : Nat) (f : Dev → Dev) : Dev :=
  if !d.scanOn then d else if d.bit .CHK_CK_STAT_scan_owned k then d.ckRefuse k else f d

/-- INIT: run := init, bytes := 0. -/
def Dev.ckInit (d : Dev) (k : Nat) : Dev := (d.set .CHK_CK_BYTES_bytes k 0).ckSetRun k (d.ckParams k).init

def execInit (k : CkEng) (s : State) : Host.Outcome State Fault Refusal :=
  .next (s.onDev (fun d => d.ckDo k.val (·.ckInit k.val)))

/-- PRESET: the parameters of R268, then INIT; presets other than 1 to 4 do nothing. -/
def Dev.ckPreset (d : Dev) (k p : Nat) : Dev :=
  match crcPreset p with
  | none => d
  | some c =>
    let d := ((d.set .CHK_CK_CFG_width k c.width).setB .CHK_CK_CFG_refin k c.refin).setB .CHK_CK_CFG_refout k c.refout
    (((d.setPairVal .CHK_CK_POLY_LO .CHK_CK_POLY_HI k c.poly).setPairVal .CHK_CK_INIT_LO .CHK_CK_INIT_HI k c.init).setPairVal
      .CHK_CK_XOR_LO .CHK_CK_XOR_HI k c.xorout).ckInit k

def execPreset (k : CkEng) (p : BitVec 3) (s : State) : Host.Outcome State Fault Refusal :=
  .next (s.onDev (fun d => d.ckDo k.val (·.ckPreset k.val p.toNat)))

/-- CHK_CK_DIN: four bytes, [7:0] first. -/
def execCkDin (k : CkEng) (w : Word) (s : State) : Host.Outcome State Fault Refusal :=
  .next (s.onDev (fun d => d.ckDo k.val (·.ckFeed k.val (leBytes 4 w.toNat))))

/-- CHK_CK_DIN8: one byte. -/
def execCkDin8 (k : CkEng) (b : Byte) (s : State) : Host.Outcome State Fault Refusal :=
  .next (s.onDev (fun d => d.ckDo k.val (·.ckFeed k.val [b])))

/-- A write of CHK_CK_RUN_HI: the engine takes the 64-bit value whose low half was written before; one wider than w is
refused (R269, R270). -/
def Dev.ckRunLoad (d : Dev) (k : Nat) (hi : Word) : Dev :=
  let v := (Table.get d.check.runLo k 0).toNat + hi.toNat * 2 ^ 32
  if 2 ^ d.get .CHK_CK_CFG_width k ≤ v then d.ckRefuse k else d.ckSetRun k v

def execCkRunLoad (k : CkEng) (hi : Word) (s : State) : Host.Outcome State Fault Refusal :=
  .next (s.onDev (fun d => d.ckDo k.val (·.ckRunLoad k.val hi)))

/-! ### Scrubbing (R203, R279, R280) -/

/-- An uncorrectable word in a free cell: rewritten with zero data, event 0x080D; on the next scrub the cell retires,
event 0x0806 (R203). -/
def State.scrubFree (s : State) (ptr ue : Nat) : State :=
  let k := ptrSite ptr
  let i := ptrIdx ptr
  let t := s.pool.site k
  let d := s.dev.bump .CPL_SITE_UE_ue_cnt k ue
  if t.suspect.contains i then
    let t := { t with suspect := t.suspect.filter (· != i), free := t.free.filter (· != i), retired := t.retired ++ [i] }
    let d := (d.bump .CPL_SITE_RET_retired k 1).set .CPL_POOL_FREE_free 0 (d.get .CPL_POOL_FREE_free 0 - 1)
    let d := (d.set .CPL_POOL_CELLS_usable 0 (d.get .CPL_POOL_CELLS_usable 0 - 1)).raise 0x0806 k
    { s with dev := d.poolShort, pool := (s.pool.setSite k t).linkFree k }
  else
    let p := s.pool.setSite k { t with suspect := t.suspect ++ [i] }
    { s with dev := d.raise1 0x080D k k
             pool := { p with mem := memWriteAll p.mem (ptr * 512) (List.replicate 448 0) } }

/-- One cell scrubbed: corrected words written back, uncorrectable ones handled by the cell's state (R203). Where the cell has
been written, allocated or freed since the scrub read it, the write-backs are dropped and what was written stands (R280). -/
def State.scrubOne (s : State) (ptr : Nat) (r : CellRead) (raced : Bool) : State :=
  let k := ptrSite ptr
  let s := s.countCe k r.corrected
  if raced then
    s.onDev (·.bump .CHK_SCRUB_CNT_wb_drop 0 (r.corrected + if s.pool.isFree ptr && !r.uncorr.isEmpty then 1 else 0))
  else
    let s := s.onDev (·.bump .CHK_SCRUB_CNT_wb_cnt 0 r.corrected)
    if s.pool.isFree ptr && !r.uncorr.isEmpty then s.scrubFree ptr r.uncorr.length
    else
    let t := s.pool.site k
    let s : State := { s with pool := s.pool.setSite k { t with suspect := t.suspect.filter (· != ptrIdx ptr) } }
    if s.pool.isFree ptr then s else s.poisonCell (s.pool.ownerOf ptr) ptr r.uncorr.length

/-- The first live site from k on that has cell index i. -/
def Pool.scrubSite (p : Pool) (k i : Nat) : Option Nat := (List.range 16).find? (fun j => k ≤ j && i < (p.site j).size)

/-- The cell to scrub at place (site k, index i) or after it in R279's order, and whether the walk passed its end. -/
def Pool.scrubNext (p : Pool) (k i : Nat) : Option (Nat × Nat) × Bool :=
  match p.scrubSite k i with
  | some j => (some (j, i), false)
  | none =>
    match p.scrubSite 0 (i + 1) with
    | some j => (some (j, i + 1), false)
    | none => ((p.scrubSite 0 0).map (fun j => (j, 0)), true)

/-- R279: scrubbing reads the next cell; a completed pass raises event 0x0B05. It pauses during a rebuild (R280). -/
def State.scrubCell (s : State) (r : CellRead) (raced : Bool) : State :=
  if s.dev.get .CHK_SCRUB_CTL_scrub_rate 0 = 0 || !s.dev.scanOn || s.dev.bit .CPL_POOL_STAT_rebuild_busy 0 then s
  else
    match (s.pool.scrubNext s.dev.check.scrubSite s.dev.check.scrubIdx).1 with
    | none => s
    | some (k, i) =>
      let s := s.scrubOne (k * 2 ^ 25 + i) r raced
      let nx := s.pool.scrubNext (k + 1) i
      let at_ := nx.1.getD (0, 0)
      s.onDev (fun d =>
        let d : Dev := { d with check := { d.check with scrubSite := at_.1, scrubIdx := at_.2 } }
        let d := d.set .CHK_SCRUB_POS_pos 0 (at_.1 * 2 ^ 25 + at_.2)
        if nx.2 then
          let d := d.bump .CHK_SCRUB_PASS_pass_cnt 0 1
          d.raise 0x0B05 (d.get .CHK_SCRUB_PASS_pass_cnt 0)
        else d)

def execScrubCell (r : CellRead) (raced : Bool) (s : State) : Host.Outcome State Fault Refusal := .next (s.scrubCell r raced)

/-! ### Memory-scan engine (R271, R272) -/

/-- The size in bytes of a scan region (R271, R275). -/
def scanRegion : Nat → Option Nat
  | 0x00 => some (2 ^ 38) | 0x01 => some (2 ^ 21) | 0x02 => some (192 * 4096) | 0x03 => some (3072 * 64)
  | 0x04 => some (2 ^ 18) | 0x05 => some (2048 * 128) | 0x06 => some (768 * 64) | 0x07 => some 8192
  | 0x08 => some (4096 * 16) | 0x09 => some 4096 | 0x0A => some 4096 | 0x10 => some (2 ^ 24) | 0x11 => some (2 ^ 23)
  | 0x12 => some (4096 * 32) | _ => none

/-- The job's start byte, element bytes, stride and count. -/
def Dev.scanStart (d : Dev) : Nat := d.get .CHK_SCAN_START_LO_start 0 + d.get .CHK_SCAN_START_HI_start 0 * 2 ^ 32
def Dev.scanElem (d : Dev) : Nat := 4 * d.get .CHK_SCAN_CTL_elem 0
def Dev.scanStride (d : Dev) : Nat := d.get .CHK_SCAN_STRIDE_stride 0
def Dev.scanCount (d : Dev) : Nat := d.get .CHK_SCAN_COUNT_count 0

/-- Whether the job as set is well-formed (R271, R272). -/
def Dev.scanOk (d : Dev) : Bool :=
  let e := d.scanElem
  match scanRegion (d.get .CHK_SCAN_CTL_region 0) with
  | none => false
  | some size =>
    4 ≤ e && e ≤ 512 && d.scanStart % 4 == 0 && d.scanStride % 4 == 0 && e ≤ d.scanStride
      && (d.scanCount == 0 || d.scanStart + (d.scanCount - 1) * d.scanStride + e ≤ size)
      && !(d.bit .CHK_SCAN_CTL_mode 0 && d.get .CHK_SCAN_CTL_region 0 != 0)

/-- The job that the registers describe. GO takes it; what is written to them later is of the next job (log entry 75). -/
def Dev.scanSet (d : Dev) : ScanJob :=
  { region := d.get .CHK_SCAN_CTL_region 0, scrub := d.bit .CHK_SCAN_CTL_mode 0, ck := d.get .CHK_SCAN_CTL_ck 0
    start := d.scanStart, count := d.scanCount, elem := d.scanElem, stride := d.scanStride }

/-- The engine that the running job feeds. -/
def Dev.scanCk (d : Dev) : Option Nat := d.check.scanJob.bind (fun j => if j.scrub then none else some j.ck)

/-- The job ends with an outcome: the engine it fed is released; event 0x0B04 (R271, R272). -/
def Dev.scanEnd (d : Dev) (outcome : Nat) : Dev :=
  let d := match d.scanCk with | some k => d.set .CHK_CK_STAT_scan_owned k 0 | none => d
  let d : Dev := { d with check := { d.check with scanJob := none } }
  ((d.set .CHK_SCAN_CMD_busy 0 0).set .CHK_SCAN_CMD_outcome 0 outcome).raise 0x0B04 outcome

/-- GO (R271): a malformed job is refused; one job runs at a time. -/
def Dev.scanGo (d : Dev) : Dev :=
  if !d.scanOn || d.bit .CHK_SCAN_CMD_busy 0 then d
  else if !d.scanOk then (d.set .CHK_SCAN_CMD_outcome 0 2).raise 0x0B04 2
  else
    let d : Dev := { d with check := { d.check with scanJob := some d.scanSet } }
    let d := (d.set .CHK_SCAN_CMD_busy 0 1).set .CHK_SCAN_POS_pos 0 0
    match d.scanCk with | some k => d.set .CHK_CK_STAT_scan_owned k 1 | none => d

def execGo (s : State) : Host.Outcome State Fault Refusal := .next (s.onDev (·.scanGo))

/-- The bytes of the pool element at byte a: data bytes of its cells, zeros in a hole (R272). -/
def Pool.element (p : Pool) (a n : Nat) : List Byte :=
  if p.hole (a / 512) then List.replicate n 0
  else (List.range n).map (fun i => if p.hole ((a + i) / 512) then 0 else p.cellByte ((a + i) / 512) ((a + i) % 512))

/-- The part of a pool element that is read: of its bytes those among the data of their cell, and all of them where none is
(R272). -/
def Pool.elementRead (p : Pool) (a n : Nat) : List Byte :=
  let among := (List.range n).filter (fun i => (a + i) % 512 < 448)
  let bytes := p.element a n
  if among.isEmpty then bytes else among.map (byteAt bytes)

/-- The bytes of an element of a region that the state holds outside the pool: the stride firmware RAM and the event ring;
none of the other tables and memories, whose layout the spec does not give (log entry 9). -/
def Dev.regionRead (d : Dev) (region a n : Nat) : Option (List Byte) :=
  match region with
  | 0x01 => some ((List.range n).map (fun i => byteAt d.check.fw (a + i)))
  | 0x12 => some ((List.range n).map (fun i =>
      match Table.find d.host.ring ((a + i) / 32) with | some e => byteAt (evBytes e) ((a + i) % 32) | none => 0))
  | _ => none

/-- The bytes of the elements at `starts`: of the pool, of a region that the state holds, else as given, count × elem of
them. -/
def State.scanBytes (s : State) (j : ScanJob) (starts : List Nat) (data : List Byte) : List Byte :=
  if j.region = 0 then starts.flatMap (fun a => s.pool.elementRead a j.elem)
  else match s.dev.regionRead j.region 0 0 with
    | some _ => starts.flatMap (fun a => (s.dev.regionRead j.region a j.elem).getD [])
    | none => (data ++ List.replicate (starts.length * j.elem) 0).take (starts.length * j.elem)

/-- Elements of job j from its place up to element `upto` are read: fed to the engine, its corrected words counted (R200), or
scrubbed; `reads` are how the pool cells read, in order, and `raced` names the places of the cells whose write-back is dropped (R272, R280). -/
def State.scanRead (s : State) (j : ScanJob) (upto : Nat) (data : List Byte) (ue : Nat) (reads : List CellRead)
    (raced : List Nat) : State :=
  let pos := s.dev.get .CHK_SCAN_POS_pos 0
  let upto := max pos (min upto j.count)
  let starts := (List.range (upto - pos)).map (fun i => j.start + (pos + i) * j.stride)
  let s :=
    if !j.scrub then
      let bytes := s.scanBytes j starts data
      let cells := if j.region = 0 then (starts.flatMap (fun a => [a / 512, (a + j.elem - 1) / 512])).eraseDups else []
      let s := (cells.filter (fun c => !s.pool.hole c)).zipIdx.foldl (fun s e =>
        s.countCe (ptrSite e.1) (reads.getD e.2 cleanRead).corrected) s
      let holes := if j.region = 0 then (starts.filter (fun a => s.pool.hole (a / 512))).length else 0
      s.onDev (fun d => ((d.ckFeed j.ck bytes).bump .CHK_SCAN_FLAGS_hole_cnt 0 holes).bump .CHK_SCAN_FLAGS_ue_cnt 0 ue)
    else
      let cells := (starts.flatMap (fun a => [a / 512, (a + j.elem - 1) / 512])).eraseDups.filter (fun c => !s.pool.hole c)
      cells.zipIdx.foldl (fun s e => s.scrubOne e.1 (reads.getD e.2 ⟨0, [], false⟩) (raced.contains e.2)) s
  s.onDev (·.set .CHK_SCAN_POS_pos 0 upto)

/-- Whether the running job is a scrub that a pool rebuild pauses (R280). -/
def Dev.scanPaused (d : Dev) (j : ScanJob) : Bool := j.scrub && d.bit .CPL_POOL_STAT_rebuild_busy 0

/-- R272: the job reads its last element: outcome 0. A scrub waits while a rebuild runs (R280). -/
def State.scanJobEnd (s : State) (data : List Byte) (ue : Nat) (reads : List CellRead) (raced : List Nat) : State :=
  match s.dev.check.scanJob with
  | none => s
  | some j => if s.dev.scanPaused j then s else (s.scanRead j j.count data ue reads raced).onDev (·.scanEnd 0)

def execScanJobEnd (data : List Byte) (ue : Nat) (reads : List CellRead) (raced : List Nat) (s : State) :
    Host.Outcome State Fault Refusal :=
  .next (s.scanJobEnd data ue reads raced)

/-- R272: STOP ends the job at the next element boundary: outcome 1, pos the next element; of a paused scrub, where it
stands. -/
def State.scanStop (s : State) (pos : Nat) (data : List Byte) (ue : Nat) (reads : List CellRead) (raced : List Nat) : State :=
  match s.dev.check.scanJob with
  | none => s
  | some j => (s.scanRead j (if s.dev.scanPaused j then 0 else pos) data ue reads raced).onDev (·.scanEnd 1)

def execScanStop (pos : Nat) (data : List Byte) (ue : Nat) (reads : List CellRead) (raced : List Nat) (s : State) :
    Host.Outcome State Fault Refusal :=
  .next (s.scanStop pos data ue reads raced)

/-! ### Table checking (R276, R277) -/

/-- A reference copy of block b is repaired with v: event 0x0B01. -/
def Dev.refRepair (d : Dev) (r : Reg) (b : Nat) (v : Word) (copyB : Nat) : Dev :=
  ((d.setWord r b v).bump .CHK_TBL_CNT_ref_rep 0 1).raise 0x0B01 (b + copyB * 1024)

/-- Block b is marked bad; the event is raised once per marking. -/
def Dev.markBad (d : Dev) (f : Fld) (b id : Nat) : Dev :=
  let known := d.check.bad.contains b
  let d : Dev := { d with check := { d.check with bad := if known then d.check.bad else d.check.bad ++ [b] } }
  ((d.bump f 0 1).badTables).raiseIf (!known) id b

/-- R276: the next block, recomputed as v, is judged against its two references. -/
def Dev.tableCheck (d : Dev) (fault : Option Word) : Dev :=
  if !d.bit .CHK_TBL_CTL_tbl_en 0 || !d.scanOn then d
  else
    let b := d.check.nextBlock
    let v := fault.getD (d.blockValue b)
    let ra := d.word .CHK_REF_A b
    let rb := d.word .CHK_REF_B b
    let d :=
      if v = ra then (if v = rb then d else d.refRepair .CHK_REF_B b v 1)
      else if v = rb then d.refRepair .CHK_REF_A b v 0
      else if ra = rb then d.markBad .CHK_TBL_CNT_data_bad b 0x0B02
      else d.markBad .CHK_TBL_CNT_both_bad b 0x0B03
    let nx := if b + 1 = 912 then 0 else b + 1
    let d : Dev := { d with check := { d.check with nextBlock := nx } }
    let d := d.set .CHK_TBL_LAST_last_b 0 b
    if nx = 0 then d.wrap .CHK_TBL_LAST_passes 0 1 else d

def execTableCheckBlock (fault : Option Word) (s : State) : Host.Outcome State Fault Refusal :=
  .next (s.onDev (·.tableCheck fault))

/-- A write of CHK_TBL_INJ: bit 0 of a reference copy is inverted (R282). -/
def Dev.refInject (d : Dev) (b : Nat) (a rb : Bool) : Dev :=
  if !d.scanOn || 912 ≤ b then d
  else
    let d := if a then d.setWord .CHK_REF_A b (d.word .CHK_REF_A b ^^^ 1) else d
    if rb then d.setWord .CHK_REF_B b (d.word .CHK_REF_B b ^^^ 1) else d

def execReferenceInject (b : BitVec 10) (refA refB : Bool) (s : State) : Host.Outcome State Fault Refusal :=
  .next (s.onDev (·.refInject b.toNat refA refB))

/-! ### Alive counters (R281) -/

/-- The judgement of an alive counter. -/
inductive AliveJudge where
  | accepted (missed : Nat) | repeated | stale | resync
deriving DecidableEq, Repr

/-- One received counter against a window, with the resync rule. -/
def AliveRx.judge (x : AliveRx) (win : Nat) (resync : Bool) (v : Byte) : AliveRx × AliveJudge :=
  match x.base with
  | none => (⟨some v, false, 0⟩, .accepted 0)
  | some b =>
    let dd := (v - b).toNat
    if dd = 0 then (x, .repeated)
    else if x.fresh then (⟨some v, false, 0⟩, .accepted 0)
    else if dd ≤ win then (⟨some v, false, 0⟩, .accepted (dd - 1))
    else if resync && x.staleRun = 2 then (⟨some v, false, 0⟩, .resync)
    else ({ x with staleRun := x.staleRun + 1 }, .stale)

/-- Stream u's counters and events follow a judgement; whether the message is accepted. -/
def Dev.aliveCount (d : Dev) (u : Nat) (j : AliveJudge) : Dev × Bool :=
  let reject (d : Dev) (kind : Nat) : Dev := d.raise1 0x0B06 (u * 4 + kind) (u + kind * 4)
  match j with
  | .accepted m => (d.bump .CHK_ALIVE_CNT_A_missed u m, true)
  | .repeated => (reject (d.bump .CHK_ALIVE_CNT_A_repeats u 1) 1, false)
  | .stale => (reject (d.bump .CHK_ALIVE_CNT_B_stale u 1) 2, false)
  | .resync =>
    ((reject ((d.bump .CHK_ALIVE_CNT_B_stale u 1).bump .CHK_ALIVE_CNT_B_resyncs u 1) 2).raise 0x0B07 u, false)

/-! ### Pool rebuild (R202) -/

/-- POOL_REBUILD: accepted only with every queue STOPPED: pool_ready and its ready bit clear, rebuild_busy. -/
def Dev.poolRebuild (d : Dev) : Dev :=
  if !d.queuesStopped || d.bit .CPL_POOL_STAT_rebuild_busy 0 then d
  else
    (((d.set .CPL_POOL_STAT_pool_ready 0 0).set .CPL_POOL_STAT_rebuild_busy 0 1).readyFn 7 false).hitlessEval

def execPoolRebuild (s : State) : Host.Outcome State Fault Refusal := .next (s.onDev (·.poolRebuild))

/-- A list in rising order. -/
def sortNat (l : List Nat) : List Nat :=
  l.foldr (fun a r => r.takeWhile (fun b => decide (b < a)) ++ a :: r.dropWhile (fun b => decide (b < a))) []

/-- The first place of queue i's list that cannot be followed: a cell of a lost site, or one whose header is bad. -/
def State.firstFault (s : State) (i : Nat) (faults : List (Queue × Nat)) : Option Nat :=
  let cells := (s.pool.queue i).cells
  (List.range cells.length).find? (fun j => s.pool.hole (cells.getD j nullPtr) || faults.any (fun f => f.1.val == i && f.2 == j))

/-- The rebuild walks every surviving list; a bad header is a chain fault there (R202). -/
def State.walkLists (s : State) (faults : List (Queue × Nat)) : State :=
  (s.pool.queues.map (·.1)).foldl (fun s i =>
    match s.firstFault i faults with
    | some j => s.chainFault i j
    | none => s) s

/-- The rebuild ends: the surviving lists have been walked, and every cell of none of them returns to its free list, stranded
ones included; events 0x080C and 0x0801. -/
def State.poolRebuildDone (s : State) (faults : List (Queue × Nat)) : State :=
  if !s.dev.bit .CPL_POOL_STAT_rebuild_busy 0 then s
  else
    let s := s.walkLists faults
    let n := (s.pool.liveOf s.pool.stranded).length
    let s := s.freeCells (sortNat s.pool.stranded).reverse
    let p : Pool := { s.pool with stranded := [] }
    let d := s.dev.set .CPL_POOL_CELLS_usable 0 (s.dev.get .CPL_POOL_CELLS_usable 0 + n)
    let d := ((d.set .CPL_POOL_STRAND_strand 0 0).set .CPL_POOL_STAT_rebuild_busy 0 0).raise 0x080C (n / 65536)
    { s with dev := (d.poolShort.poolUp).hitlessEval, pool := p }

def execPoolRebuildDone (faults : List (Queue × Nat)) (s : State) : Host.Outcome State Fault Refusal :=
  .next (s.poolRebuildDone faults)

/-- PD_SCAN loses its domain (R280): a running job is lost; both walks start again when it returns. -/
def Dev.scanOff (d : Dev) : Dev :=
  { d with check := { d.check with nextBlock := 0, scrubIdx := 0, scrubSite := 0, runLo := [], scanJob := none } }

end Sys2Proof.Machine
end

