-- ==== Sys2Proof/Machine/Clocks.lean ====
section
/-!
DEFINITION. References, root PLL, PHY PLLs (R371–R374), device time and its sources (R375–R379), frame pulses (R380).
-/
namespace Sys2Proof.Machine

/-! ### Root PLL (R371, R372) -/

/-- root_state: 0 OFF or ACQUIRE, 1 LOCKED, 2 HOLDOVER, 3 UNLOCKED. -/
def Dev.rootState (d : Dev) : Nat := d.get .GLB_CLK_STAT_root_state 0
/-- The selected and the preferred reference: false A, true B. -/
def Dev.refSel (d : Dev) : Bool := d.bit .GLB_CLK_STAT_ref_sel 0
def Dev.refPref (d : Dev) : Bool := d.bit .GLB_CLK_CTL_ref_pref 0
/-- Whether a reference is good. -/
def Dev.refOk (d : Dev) (b : Bool) : Bool := d.bit (if b then .GLB_CLK_STAT_ref_b_ok else .GLB_CLK_STAT_ref_a_ok) 0
/-- The device with a reference good or bad. -/
def Dev.setRef (d : Dev) (b ok : Bool) : Dev :=
  d.setB (if b then .GLB_CLK_STAT_ref_b_ok else .GLB_CLK_STAT_ref_a_ok) 0 ok

/-- The root PLL follows reference b: event 0x0F03. -/
def Dev.refSwitch (d : Dev) (b : Bool) : Dev := (d.setB .GLB_CLK_STAT_ref_sel 0 b).raise 0x0F03 (bitNat b)

/-- R371, R372: a reference turns bad: event 0x0F01; a LOCKED PLL that follows it switches, or holds over. -/
def Dev.refclkBad (d : Dev) (b : Bool) : Dev :=
  let d := if d.refOk b then (d.setRef b false).raise 0x0F01 (bitNat b) else d
  if d.rootState = 1 && d.refSel == b then
    if d.refOk (!b) && d.bit .GLB_CLK_CTL_ref_auto 0 then d.refSwitch (!b)
    else (d.set .GLB_CLK_STAT_root_state 0 2).raise 0x0F04 1
  else d

def execRefclkBad (b : Bool) (s : State) : Host.Outcome State Fault Refusal := .next (s.onDev (·.refclkBad b))

/-- HOLDOVER ends: the root PLL locks to a good reference, the preferred one if both are good: event 0x0F04. -/
def Dev.holdoverEnd (d : Dev) : Dev :=
  let sel := if d.refOk d.refPref then d.refPref else !d.refPref
  ((d.setB .GLB_CLK_STAT_ref_sel 0 sel).set .GLB_CLK_STAT_root_state 0 1).raise 0x0F04 0

/-- R371, R372: a reference turns good: event 0x0F02; a PLL in HOLDOVER locks, to the preferred one if both are good. A
reference that was good already when HOLDOVER was entered ends it once ref_auto is 1 (DEDUCED, log entry 81). -/
def Dev.refclkGood (d : Dev) (b : Bool) : Dev :=
  if d.refOk b then d
  else
    let d := (d.setRef b true).raise 0x0F02 (bitNat b)
    let d : Dev := { d with sys := { d.sys with refAt := Table.ins d.sys.refAt (bitNat b) d.ticks } }
    if d.rootState = 2 then d.holdoverEnd else d

/-- GLB_CLK_CTL written: in HOLDOVER a good reference ends it while ref_auto is 1. -/
def Dev.clkCtl (d : Dev) : Dev :=
  if d.rootState = 2 && d.bit .GLB_CLK_CTL_ref_auto 0 && (d.refOk false || d.refOk true) then d.holdoverEnd else d

def execRefclkGood (b : Bool) (s : State) : Host.Outcome State Fault Refusal := .next (s.onDev (·.refclkGood b))

/-- The root PLL's ready bit takes value b, and the transmitters with it (R23). -/
def Dev.rootReady (d : Dev) (b : Bool) : Dev := (d.readyFn 0 b).txAll ((d.chans.map (·.1)).filter (· < 192))

/-- R372: lock in ACQUIRE on the reference tried, or from UNLOCKED on a good one. -/
def Dev.rootPllLock (d : Dev) : Dev :=
  let locked (d : Dev) (sel : Bool) : Dev :=
    ((d.setB .GLB_CLK_STAT_ref_sel 0 sel).set .GLB_CLK_STAT_root_state 0 1).rootReady true
  if d.rootState = 0 && d.sys.rootOn && !d.sys.held then
    let sel := d.refPref != d.sys.tryOther
    (locked d sel).setB .BOOT_AON_ref_b 0 sel
  else if d.rootState = 3 && (d.refOk false || d.refOk true) then
    (locked d (if d.refOk d.refPref then d.refPref else !d.refPref)).raise 0x0F05 1
  else d

def execRootPllLock (s : State) : Host.Outcome State Fault Refusal := .next (s.onDev (·.rootPllLock))

/-- Whether n ns have passed on clk_tm since tick t (4 ns a tick, R373). -/
def Dev.ticksPast (d : Dev) (t n : Nat) : Bool := decide (t + n / 4 ≤ d.ticks)

/-- R372: no lock within 2 ms: the other reference is tried. -/
def Dev.rootPllTimeout (d : Dev) : Dev :=
  if d.rootState = 0 && d.sys.rootOn && !d.sys.held && d.ticksPast d.sys.acquireAt 2000000 then
    { d with sys := { d.sys with tryOther := !d.sys.tryOther, acquireAt := d.ticks } }
  else d

def execRootPllAcquireTimeout (s : State) : Host.Outcome State Fault Refusal := .next (s.onDev (·.rootPllTimeout))

/-- R372: the preferred reference has been good for 10 s with rev_en = 1. -/
def Dev.refRevert (d : Dev) : Dev :=
  if d.rootState = 1 && d.bit .GLB_CLK_CTL_rev_en 0 && d.refOk d.refPref && d.refSel != d.refPref
      && d.ticksPast (Table.get d.sys.refAt (bitNat d.refPref) 0) (10 ^ 10) then d.refSwitch d.refPref
  else d

def execReferenceRevert (s : State) : Host.Outcome State Fault Refusal := .next (s.onDev (·.refRevert))

/-- R372: the VCO control is at its range limit: UNLOCKED, event 0x0F05. -/
def Dev.rootPllUnlock (d : Dev) : Dev :=
  if d.rootState = 1 || d.rootState = 2 then
    ((d.set .GLB_CLK_STAT_root_state 0 3).rootReady false).raise 0x0F05 0
  else d

def execRootPllUnlock (s : State) : Host.Outcome State Fault Refusal := .next (s.onDev (·.rootPllUnlock))

/-! ### PHY PLLs (R374) -/

/-- Free cells of a site. -/
def SiteSt.freeCount (t : SiteSt) : Nat :=
  t.free.length + ((t.size - t.fresh) - (t.retired.filter (fun i => decide (t.fresh ≤ i))).length)

/-- Site k is lost (R199, R374): its cells leave the pool, and allocations no longer find it. -/
def State.siteLost (s : State) (k : Nat) : State :=
  let t := s.pool.site k
  if s.dev.get .CPL_SITE_STAT_site_state k ≠ 2 then s
  else
    let d := s.dev
    let live := t.size - t.retired.length - (s.pool.stranded.filter (fun c => ptrSite c == k)).length
    let d := (d.set .CPL_POOL_FREE_free 0 (d.get .CPL_POOL_FREE_free 0 - t.freeCount)).set .CPL_POOL_CELLS_usable 0
      (d.get .CPL_POOL_CELLS_usable 0 - live)
    let d := (d.set .CPL_SITE_STAT_site_state k 1).set .CPL_POOL_STAT_sites_live 0
      (d.get .CPL_POOL_STAT_sites_live 0 &&& (2 ^ 16 - 1 - 2 ^ k))
    let d := ((d.set .CPL_SITE_STAT_clamshell k 0).set .CPL_SITE_STAT_density k 0).set .CPL_SITE_STAT_pin_rate k 0
    { s with dev := d.poolShort, pool := s.pool.setSite k .init }

/-- Whether PHY PLL i is locked. -/
def Dev.phyLocked (d : Dev) (i : Nat) : Bool :=
  if i < 16 then (d.get .GLB_GDDR_PLL_g_lock 0).testBit i
  else d.bit (if i = 16 then .GLB_CLK_STAT_host_lock else if i = 17 then .GLB_CLK_STAT_rec_lock else .GLB_CLK_STAT_baton_lock) 0

/-- R374: a PHY PLL loses lock: event 0x0F10. -/
def State.phyPllUnlocked (s : State) (i : Nat) : State :=
  if !s.dev.phyLocked i then s
  else if i < 16 then
    let d := s.dev.set .GLB_GDDR_PLL_g_lock 0 (s.dev.get .GLB_GDDR_PLL_g_lock 0 &&& (2 ^ 16 - 1 - 2 ^ i))
    (({ s with dev := d.raise 0x0F10 i } : State).siteLost i)
  else
    s.onDev (fun d =>
      (d.set (if i = 16 then .GLB_CLK_STAT_host_lock else if i = 17 then .GLB_CLK_STAT_rec_lock
        else .GLB_CLK_STAT_baton_lock) 0 0).raise 0x0F10 i)

def execPhyPllUnlocked (i : Fin 19) (s : State) : Host.Outcome State Fault Refusal := .next (s.phyPllUnlocked i.val)

/-! ### Device time (R375–R379) -/

/-- dtime_src. -/
def Dev.timeSrc (d : Dev) : Nat := d.get .GLB_TIME_CTL_dtime_src 0
/-- Whether DTIME follows the partner now (R375, R377). -/
def Dev.followsPartner (d : Dev) : Bool :=
  !d.owning && (d.timeSrc == 2 || (d.timeSrc == 3 && !d.sys.ppsValid))
/-- Whether DTIME follows PPS now. -/
def Dev.followsPps (d : Dev) : Bool := d.timeSrc == 1 || d.timeSrc == 3

/-- Whether a source corrects DTIME now: FREE corrects nothing, and a device that owns runs free of its partner (R375). -/
def Dev.corrects (d : Dev) : Bool := d.timeSrc == 1 || (d.timeSrc == 3 && d.sys.ppsValid) || d.followsPartner

/-- src_valid; using_partner is shown as it stands (R392). -/
def Dev.timeShow (d : Dev) : Dev :=
  let v := match d.timeSrc with
    | 0 => false | 1 => d.sys.ppsValid | 2 => d.sys.partnerValid | _ => d.sys.ppsValid || d.sys.partnerValid
  d.setB .GLB_TIME_STAT_src_valid 0 v

/-- DTIME jumps to v: the second that contains the step is incomplete (R379), TIME record, event 0x0F08 (R378). -/
def Dev.timeStep (d : Dev) (v : Nat) : Dev :=
  let old := d.now
  let d := d.ohs.foldl (fun d e => d.secondMissed e.1 d.second) d
  let d : Dev := { d with
    dtime := BitVec.ofNat 64 v
    sys := { d.sys with lastPps := d.sys.lastPps.map (fun t => t + v - old) } }
  let us := ((v : Int) - old).natAbs / 1000
  (d.record 0x0C d.dtime (leBytes 8 old)).raise 0x0F08 (min us 65535)

/-- The step threshold in ns. -/
def Dev.stepThr (d : Dev) : Int := (d.get .GLB_TIME_CTL_step_thr 0 * 1000 : Nat)

/-- A measured offset e is acted on (R378); `first` where it is the first since the source became valid. -/
def Dev.timeAct (d : Dev) (e : Int) (first : Bool) : Dev :=
  let d := d.set .GLB_TIME_ERR_e 0 (un 32 (max (-(2 ^ 31)) (min (2 ^ 31 - 1) e)))
  let mode := d.get .GLB_TIME_CTL_step_mode 0
  let d := d.setB .GLB_TIME_STAT_time_lock 0 (decide (e.natAbs ≤ 4))
  let slew (d : Dev) (m : Nat) (left : Int) (step : Option Int) : Dev :=
    { d.set .GLB_TIME_STAT_slew 0 m with sys := { d.sys with slewLeft := left, stepDue := step } }
  if e.natAbs ≤ 4 then slew d 0 0 none
  else if (e.natAbs : Int) < d.stepThr then slew d 1 e none
  else if e < 0 && (mode = 1 || (mode = 0 && first)) then slew d 0 0 (some e)
  else slew d 2 e none

/-- A measurement of a source is accepted: it becomes valid (event 0x0F07) and its offset is acted on. -/
def Dev.timeMeasure (d : Dev) (partner : Bool) (e : Int) : Dev :=
  let was := if partner then d.sys.partnerValid else d.sys.ppsValid
  let d : Dev := { d with sys := if partner then { d.sys with partnerValid := true, partnerAt := d.ticks }
                                 else { d.sys with ppsValid := true, ppsAt := d.ticks } }
  let d := d.raiseIf (!was) 0x0F07 (if partner then 2 else 1)
  (if (if partner then d.followsPartner else d.followsPps) then d.timeAct e (!was) else d).timeShow

/-- An armed load takes effect: refused below DTIME with event 0x0F09 (R378). -/
def Dev.timeLoad (d : Dev) : Dev :=
  let v := (d.word .GLB_DTIME_LOAD_LO 0).toNat + (d.word .GLB_DTIME_LOAD_HI 0).toNat * 2 ^ 32
  let d : Dev := { d with sys := { d.sys with loadArmed := false } }
  if v < d.now then (d.set .GLB_TIME_STAT_dtime_err 0 1).raise 0x0F09 0 else d.timeStep v

/-- R376: an edge on PPS_IN: accepted as the first, or within ±10 µs of a second after the one accepted before. An armed
load takes effect at it (R378), and the offset is that of DTIME after the load (DEDUCED, log entry 106). -/
def Dev.ppsEdge (d : Dev) : Dev :=
  let ok := match (if d.sys.ppsValid then d.sys.lastPps else none) with
    | none => true
    | some t => decide (t + 10 ^ 9 ≤ d.now + 10000) && decide (d.now ≤ t + 10 ^ 9 + 10000)
  if !ok then d
  else
    let d : Dev := { d with sys := { d.sys with lastPps := some d.now } }
    let d := if d.sys.loadArmed then d.timeLoad else d
    let x : Int := (d.now : Int) - (d.get .GLB_PPS_DLY_pps_dly 0 : Nat)
    let k := (x + 5 * 10 ^ 8) / 10 ^ 9
    d.timeMeasure false (x - k * 10 ^ 9)

def execPpsEdge (s : State) : Host.Outcome State Fault Refusal := .next (s.onDev (·.ppsEdge))

/-- R377: the offset from the partner's 32-bit dtime; beyond 2 s the next baton header gives it. -/
def Dev.partnerTime (d : Dev) (t : BitVec 32) : Dev :=
  if !d.followsPartner then d
  else
    let dlt := sx 32 (BitVec.ofNat 32 d.now - t).toNat
    let e := dlt - (d.get .GLB_PAIR_DLY_pair_dly 0 : Nat) - 48
    if 2 * 10 ^ 9 < e.natAbs then { d with sys := { d.sys with farPartner := true } } else d.timeMeasure true e

/-- R377: the offset taken from cut_dtime of a baton header after one beyond 2 s. -/
def Dev.partnerCut (d : Dev) (cut : Nat) : Dev :=
  if d.sys.farPartner && d.followsPartner then
    let d : Dev := { d with sys := { d.sys with farPartner := false } }
    d.timeMeasure true ((d.now : Int) - cut)
  else d

/-- PPS is lost: event 0x0F06. -/
def Dev.ppsLost (d : Dev) : Dev :=
  (({ d with sys := { d.sys with ppsValid := false, lastPps := none } } : Dev).raise 0x0F06 1).timeShow

/-- The partner is lost as a source: event 0x0F06. -/
def Dev.partnerLost (d : Dev) : Dev :=
  (({ d with sys := { d.sys with partnerValid := false } } : Dev).raise 0x0F06 2).timeShow

/-- R375: a source that is valid and has gone 2 s without an accepted measurement is lost. -/
def Dev.timeSourceLost (d : Dev) : Dev :=
  let d := if d.sys.ppsValid && d.ticksPast d.sys.ppsAt (2 * 10 ^ 9) then d.ppsLost else d
  if d.sys.partnerValid && d.ticksPast d.sys.partnerAt (2 * 10 ^ 9) then d.partnerLost else d

def execTimeSourceLost (s : State) : Host.Outcome State Fault Refusal := .next (s.onDev (·.timeSourceLost))

/-- R378: a write of GLB_DTIME_LOAD_HI arms the load; with load_now it takes effect at once. -/
def Dev.dtimeLoad (d : Dev) (hi : Word) : Dev :=
  let d := d.setWord .GLB_DTIME_LOAD_HI 0 hi
  if d.bit .GLB_TIME_CTL_load_now 0 then d.timeLoad else { d with sys := { d.sys with loadArmed := true } }

def execDtimeLoad (hi : Word) (s : State) : Host.Outcome State Fault Refusal := .next (s.onDev (·.dtimeLoad hi))

/-- The ns that the next clk_tm tick adds to DTIME under slew (R378), and the offset left to correct. -/
def Dev.slewTick (d : Dev) : Nat × Int :=
  let left := d.sys.slewLeft
  let one : Nat × Int := if 0 < left then (3, left - 1) else if left < 0 then (5, left + 1) else (4, 0)
  match d.get .GLB_TIME_STAT_slew 0 with
  | 1 => if d.ticks % 2500 = 0 then one else (4, left)
  | 2 => one
  | _ => (4, left)

/-- No correction is due any longer. -/
def Dev.noSlew (d : Dev) : Dev :=
  { d.set .GLB_TIME_STAT_slew 0 0 with sys := { d.sys with slewLeft := 0, stepDue := none } }

/-- DTIME at the next clk_tm tick: slew, then a due step; the slew ends, or turns fine, as its offset is corrected. Where no
source corrects DTIME, the tick adds 4 ns (R375). -/
def Dev.timeTick (d : Dev) : Dev :=
  let d := if d.corrects then d else d.noSlew
  let s := d.slewTick
  let mode := d.get .GLB_TIME_STAT_slew 0
  let d : Dev := { d with
    ticks := d.ticks + 1, dtime := d.dtime + BitVec.ofNat 64 s.1, sys := { d.sys with slewLeft := s.2 } }
  let d := if mode = 1 && s.2 = 0 then d.set .GLB_TIME_STAT_slew 0 0
    else if mode = 2 && (s.2.natAbs : Int) < d.stepThr then d.set .GLB_TIME_STAT_slew 0 (if s.2 = 0 then 0 else 1) else d
  match d.sys.stepDue with
  | some e => ({ d with sys := { d.sys with stepDue := none } } : Dev).timeStep (d.now + e.natAbs)
  | none => d

/-! ### Frame pulses (R380) -/

/-- Whether DTIME mod fp_period has just equalled fp_phase: at this tick, or within the 4 ns that a tick adds (DESIGN CHOICE
for phases between two ticks, log entry 82). -/
def Dev.fpDue (d : Dev) (k : Nat) : Bool :=
  let p := d.get .GLB_FP_PERIOD_fp_period k
  decide ((d.now + p - d.get .GLB_FP_PHASE_fp_phase k % p) % p < 4)

/-- FP_OUT[k] goes high for fp_width ticks where DTIME mod fp_period equals fp_phase. -/
def Dev.fpPulse (d : Dev) (k : Nat) : Dev :=
  if d.bit .GLB_FP_CTL_fp_en k && d.fpDue k then
    { d with sys := { d.sys with fpEnd := Table.ins d.sys.fpEnd k (d.ticks + d.get .GLB_FP_CTL_fp_width k) } }
  else d

def execFpPulse (k : Fin 2) (s : State) : Host.Outcome State Fault Refusal := .next (s.onDev (·.fpPulse k.val))

/-- Whether the pulse of output k runs: its fp_width ticks have not passed. -/
def Dev.fpRuns (d : Dev) (k : Nat) : Bool := match Table.find d.sys.fpEnd k with | some t => decide (d.ticks < t) | none => false

/-- The pulse of output k ends with its last tick. -/
def Dev.fpPulseEnd (d : Dev) (k : Nat) : Dev :=
  if d.fpRuns k then d else { d with sys := { d.sys with fpEnd := Table.del d.sys.fpEnd k } }

def execFpPulseEnd (k : Fin 2) (s : State) : Host.Outcome State Fault Refusal := .next (s.onDev (·.fpPulseEnd k.val))

/-- The level of FP_OUT[k]: low while disabled, and in reset (R397). -/
def Dev.fpOut (d : Dev) (k : Nat) : Bool := !d.sys.held && d.bit .GLB_FP_CTL_fp_en k && d.fpRuns k

end Sys2Proof.Machine
end

