-- ==== Sys2Proof/Machine/Filters.lean ====
section
/-!
DEFINITION. Client timing filters (chapter 07): the producer of a context, the chain arithmetic, context states, sync,
swaps, coefficient banks, clock outputs and the commit checks.
-/
namespace Sys2Proof.Machine

/-! ### Producers, input and class (R154–R158) -/

/-- The producers that name context c, as sources: tributaries, then MAP server channels. -/
def Dev.producers (d : Dev) (c : Nat) : List Nat :=
  (d.tribList.filter (fun t => d.bit .ODU_MAP_fctx_en t && d.get .ODU_MAP_fctx t == c)).map (192 + ·)
    ++ d.chanList.filter (fun n =>
      d.chanMap n && d.bit .SL_SRV_CTL_fctx_en (slIdx n) && d.get .SL_SRV_CTL_fctx (slIdx n) == c)

/-- The lowest group that holds every one of the sources ks as a member. -/
def Dev.commonGroup (d : Dev) (ks : List Nat) : Option Nat :=
  match ks with
  | [] => none
  | k :: _ => ((d.groupsOf k).map (·.1)).find? (fun g => ks.all (fun j => (d.groupsOf j).any (fun e => e.1 == g)))

/-- Of the producers ks, members of group g, the one whose stream the selector selects (R158): protection where a signal is
selected from it, or the working member that this signal serves; with none selected from protection, the lowest working
member among them (DEDUCED, log entry 93). -/
def Dev.selectedOf (d : Dev) (g : Nat) (ks : List Nat) : Nat :=
  let sig := d.get .PRT_GRP_STAT_sel_sig g
  let own := ((d.memberPlaces g).drop 1).map (d.memberSrc g)
  let order := if sig = 0 then own ++ [d.memberSrc g 0] else [d.memberSrc g 0, d.memberSrc g sig] ++ own
  (order.find? ks.contains).getD (ks.headD 0)

/-- The input of context c: producer code 4,096·src_kind + src, the source that gives the samples, and whether several
producers conflict (R158). -/
def Dev.ctxInput (d : Dev) (c : Nat) : Option (Nat × Nat) × Bool :=
  let own (k : Nat) : Option (Nat × Nat) :=
    some ((if isTribSrc k then 1 else 2) * 4096 + srcIdx k, k)
  match d.producers c with
  | [] => (none, false)
  | [k] => (own k, false)
  | k :: r =>
    match d.commonGroup (k :: r) with
    | some g => (some (3 * 4096 + g, d.selectedOf g (k :: r)), false)
    | none => (own k, true)

/-- k of R156: strobes per input sample. -/
def strobeK (f : Nat × Nat) : Nat := (f.2 + f.1 * 1200000 - 1) / (f.1 * 1200000)

/-- The class of an input (R156): 0 A, 1 B, 2 C. -/
def strobeClass (f : Nat × Nat) : Nat :=
  let k := strobeK f
  if f.1 * k * 300000 ≤ f.2 then 0 else if f.1 * k * 30000 ≤ f.2 then 1 else 2

/-- Whether source k has a tributary Cn: a tributary with a server (R154). -/
def Dev.hasCn (d : Dev) (k : Nat) : Bool := isTribSrc k && !d.bit .ODU_CFG_srv_none (srcIdx k)

/-- The signals that source k takes its samples from: the one that stands at its place, and behind a tributary's server
place (R158, R211). -/
def Dev.inputSignals (d : Dev) (k : Nat) : List Nat :=
  d.carried k :: (if d.hasCn k then [d.srvSignal (srcIdx k)] else [])

/-- Whether a sample from source k is valid for context c at its strobe (R157). -/
def Dev.sampleValid (d : Dev) (c k : Nat) : Bool :=
  let t := srcIdx k
  let composite := !((d.ctx c).inSel && d.hasCn k)
  let client := if isTribSrc k then d.tribMap t else true
  let server := if isTribSrc k then (if d.hasCn k then some (d.leader (d.srvSignal t)) else none) else some (d.carried k)
  d.srcRun k && (!isTribSrc k || d.trState t == 3)
    && (match server with
        | some n => d.alnState n == 3 && (d.oh n).inFrame && (d.members n).all (fun m => d.rx m == 3)
        | none => true)
    && !(composite && client && d.og (d.carried k) .CH_OH_ACT_assf != 0)

/-- The frequency error of the recovered signal of source k, from the parts that its producer offers and in_sel selects: the
line phase of its server, the tributary Cn, the client's stream, and at egress stage 2 the arrival phase (R154, R155, R157).
An IMP adaptation gives no client stream. -/
def Dev.sampleOf (d : Dev) (c k : Nat) (line cn client arrival : Int) : Int :=
  let t := srcIdx k
  let client := if isTribSrc k && d.get .ODU_CFG_kind t == 5 then 0 else client
  if isTribSrc k && !d.hasCn k then client + arrival
  else if !isTribSrc k then line + client
  else line + cn + (if d.tribMap t && !(d.ctx c).inSel then client else 0)

/-! ### Coefficient banks (R159, R161, R178) -/

/-- The place of coefficient i of page p of bank b in FLT_COEF. -/
def coefIdx (b p i : Nat) : Nat := b * 128 + p * 64 + i

/-- The first n coefficients of a page, signed Q1.17. -/
def Dev.coefs (d : Dev) (b p n : Nat) : List Int := (List.range n).map (fun i => sx 18 (d.get .FLT_COEF_coef (coefIdx b p i)))

/-- The least k with v ≤ 2^k, at most 64. -/
def ceilLog2 (v : Nat) : Nat := ((List.range 65).find? (fun k => v ≤ 2 ^ k)).getD 64

/-- The FIR growth of a page: 17 + ⌈log2 Σ|c|⌉, 17 when Σ|c| ≤ 1 (R159). -/
def Dev.firGrowth (d : Dev) (b p n : Nat) : Nat := max 17 (ceilLog2 (((d.coefs b p n).map Int.natAbs).foldl (· + ·) 0))

/-- The active page of bank b. -/
def Dev.bankPage (d : Dev) (b : Nat) : Nat := if (d.get .FLT_BANK_FLIP_page 0).testBit b then 1 else 0

/-- FLT_BANK_GROW of bank b follows the coefficients of both pages. -/
def Dev.growEval (d : Dev) (b : Nat) : Dev :=
  let p := d.bankPage b
  let q := 1 - p
  (((((d.set .FLT_BANK_GROW_g32 b (d.firGrowth b p 32)).set .FLT_BANK_GROW_g48 b (d.firGrowth b p 48)).set
    .FLT_BANK_GROW_g64 b (d.firGrowth b p 64)).set .FLT_BANK_GROW_i32 b (d.firGrowth b q 32)).set
    .FLT_BANK_GROW_i48 b (d.firGrowth b q 48)).set .FLT_BANK_GROW_i64 b (d.firGrowth b q 64)

/-- The chains of context c: running and shadow. -/
def CtxSt.chains (x : CtxSt) : List Chain := x.chain.toList ++ x.shadow.toList

/-- The banks whose inactive page a running or shadow chain still uses. -/
def Dev.busyBanks (d : Dev) : Nat :=
  (List.range 16).foldl (fun v b =>
    if d.ctxs.any (fun e => e.2.chains.any (fun x => x.bank == b && x.page != d.bankPage b)) then v + 2 ^ b else v) 0

/-- FLT_BANK_BUSY follows the chains. -/
def Dev.busyEval (d : Dev) : Dev := d.set .FLT_BANK_BUSY_busy 0 d.busyBanks

/-- A host write of coefficient word i: discarded on the active page and on a busy one (R178). -/
def Dev.coefWrite (d : Dev) (i v : Nat) : Dev :=
  let b := i / 128
  if i / 64 % 2 = d.bankPage b || (d.get .FLT_BANK_BUSY_busy 0).testBit b then d
  else ((d.set .FLT_COEF_coef i v).growEval b).refWriteAll [892, 893]

/-! ### Building a chain (R159–R162, R166–R168) -/

/-- 48-bit two's-complement wrap. -/
def w48 (x : Int) : Int := (x + 2 ^ 47) % 2 ^ 48 - 2 ^ 47
/-- Saturation to 24 bits. -/
def sat24 (x : Int) : Int := max (-(2 ^ 23)) (min (2 ^ 23 - 1) x)
/-- clamp32 of R164. -/
def clamp32 (x : Int) : Int := max (-(2 ^ 31)) (min (2 ^ 31 - 1) x)

/-- The taps that fir_taps codes. -/
def tapsOf (v : Nat) : Nat := if v = 0 then 32 else if v = 1 then 48 else 64
/-- The fir_taps code of a number of taps. -/
def tapsCode (n : Nat) : Nat := if n = 32 then 0 else if n = 48 then 1 else 2

/-- cic_r, hb_n, taps and bank of a preset (R166). -/
def presetStages : Nat → Nat × Nat × Nat × Nat
  | 1 => (8, 1, 32, 0) | 2 => (16, 2, 48, 1) | 3 => (32, 2, 64, 2) | _ => (64, 2, 64, 2)

/-- The safe CIC shift ⌈4 log2 r⌉ (R159, R161). -/
def cicGrowth (r : Nat) : Nat := ceilLog2 (r ^ 4)

/-- A chain with zeroed stages. -/
def Chain.zero (x : Chain) : Chain :=
  { x with
    integ := List.replicate 4 0, combs := List.replicate 4 0, hb1 := List.replicate 15 0, hb2 := List.replicate 15 0
    fir := List.replicate x.taps 0, phase := 0, hb1Odd := false, hb2Odd := false, out := none, phi := 0 }

/-- Output samples of settling: twice the group delay, rounded up (R159, R167). -/
def Chain.settling (x : Chain) : Nat :=
  let dec := x.cicR * 2 ^ x.hbN
  let twice := 4 * (x.cicR - 1) + (if 1 ≤ x.hbN then 14 * x.cicR else 0) + (if x.hbN = 2 then 28 * x.cicR else 0)
    + (x.taps - 1) * dec
  if dec = 0 then 0 else (twice + dec - 1) / dec

/-- The chain of context c built from the active registers and bank pages as they stand (R166, R175), with zeroed stages,
m, I, v and word as given. -/
def Dev.build (d : Dev) (c : Nat) (m i v word : Int) : Chain :=
  let p := d.get .FLT_CTX_CTL_preset c
  let cls := d.get .FLT_CTX_STAT_in_class c
  let st := if p = 0 then (d.get .FLT_CTX_STG_cic_r c, d.get .FLT_CTX_STG_hb_n c, tapsOf (d.get .FLT_CTX_STG_fir_taps c),
      d.get .FLT_CTX_STG_fir_bank c) else presetStages p
  let (r, hb, taps, bank) := st
  let page := d.bankPage bank
  let x : Chain :=
    { cicR := r, hbN := hb, taps := taps, bank := bank, page := page, dcK := d.get .FLT_CTX_CTL_dc_k c
      shDc := if p = 0 then d.get .FLT_CTX_SHIFT_sh_dc c else 1
      shCic := if p = 0 then d.get .FLT_CTX_SHIFT_sh_cic c else cicGrowth r
      shHb1 := if p = 0 then d.get .FLT_CTX_SHIFT_sh_hb1 c else if 1 ≤ hb then 18 else 0
      shHb2 := if p = 0 then d.get .FLT_CTX_SHIFT_sh_hb2 c else if hb = 2 then 18 else 0
      shFir := if p = 0 then d.get .FLT_CTX_SHIFT_sh_fir c else d.firGrowth bank page taps
      shLoop := if p = 0 then d.get .FLT_CTX_SHIFT_sh_loop c else (Config.presetShLoop p cls).toNat
      kp := if p = 0 then d.get .FLT_CTX_LOOP_kp c else (Config.presetKp p cls).toNat
      ki := if p = 0 then d.get .FLT_CTX_LOOP_ki c else (Config.presetKi p cls).toNat
      integ := [], combs := [], hb1 := [], hb2 := [], fir := [], phase := 0, hb1Odd := false, hb2Odd := false, out := none
      settleLeft := 0, dcEst := m, phi := 0, i := i, v := v, word := word }
  { x.zero with settleLeft := x.settling }

/-- The delivered word (R165, R170). -/
def Dev.ctxWord (d : Dev) (c : Nat) : Int := (d.ctx c).word
/-- Deliver word w (R165); on a standby it does not drive the outputs (R261). -/
def Dev.deliver (d : Dev) (c : Nat) (w : Int) : Dev :=
  let x := d.ctx c
  (d.setCtx c { x with word := w, drive := if d.standby then x.drive else w }).set .FLT_CTX_WORD_word c (un 32 w)

/-- The loop loaded so that its first word equals w (R171): phi 0, I and v carry w − 256·m. -/
def Chain.handOver (x : Chain) (w : Int) : Chain :=
  let dev := w - 256 * x.dcEst
  { x with phi := 0, i := w48 (dev * 2 ^ x.shLoop), v := dev, word := w }

/-- Parameters of the running chain in FLT_CTX_RUN_* (layouts of FLT_CTX_STG, SHIFT and LOOP). -/
def Dev.showRun (d : Dev) (c : Nat) (x : Chain) : Dev :=
  let stg := x.cicR + x.hbN * 2 ^ 7 + tapsCode x.taps * 2 ^ 9 + x.bank * 2 ^ 11
  let sh := x.shDc + x.shCic * 2 ^ 5 + x.shHb1 * 2 ^ 10 + x.shHb2 * 2 ^ 15 + x.shFir * 2 ^ 20 + x.shLoop * 2 ^ 25
  ((d.set .FLT_CTX_RUN_STG_run c stg).set .FLT_CTX_RUN_SHIFT_run c sh).set .FLT_CTX_RUN_LOOP_run c (x.kp + x.ki * 2 ^ 16)

/-- The array of context c, and its contexts. -/
def ctxArray (c : Nat) : Nat := c / 384
/-- The listed contexts of array a. -/
def Dev.arrayCtxs (d : Dev) (a : Nat) : List Nat := (d.listed .FLT_CTX_STAT).filter (fun c => ctxArray c == a)

/-- running and shadows of array a. -/
def Dev.arrayCount (d : Dev) (a : Nat) : Dev :=
  (d.set .FLT_ARRAY_STAT_running a ((d.arrayCtxs a).filter (fun c => d.get .FLT_CTX_STAT_ctx_state c != 0)).length).set
    .FLT_ARRAY_STAT_shadows a (d.shadows.filter (fun e => e.1 / 32 == a)).length

/-- Context state of c: 0 OFF, 1 SETTLING, 2 LOCKED, 3 HOLDOVER. -/
def Dev.ctxState (d : Dev) (c : Nat) : Nat := d.get .FLT_CTX_STAT_ctx_state c

/-- The running chain of context c takes up in_sel and dc_freeze from the active registers (R170; log entry 68). -/
def Dev.takeUp (d : Dev) (c : Nat) : Dev :=
  let z := d.bit .FLT_CTX_CTL_dc_freeze c
  (d.setCtx c { d.ctx c with inSel := d.bit .FLT_CTX_CTL_in_sel c, dcFreeze := z }).setB .FLT_CTX_STAT_dc_frozen c
    (z || d.ctxState c == 3)

/-- FLT_CTX_DCEST shows m of the running chain. -/
def Dev.showDc (d : Dev) (c : Nat) : Dev :=
  match (d.ctx c).chain with
  | some x => d.set .FLT_CTX_DCEST_dc_est c (un 24 x.dcEst)
  | none => d

/-- The running chain of context c replaced. -/
def Dev.setRunning (d : Dev) (c : Nat) (x : Chain) : Dev :=
  (((d.setCtx c { d.ctx c with chain := some x }).showRun c x).showDc c).busyEval

/-- Context c enters state st with nco_src src: settling flag, dc_frozen, state_chg. -/
def Dev.ctxGo (d : Dev) (c st src : Nat) : Dev :=
  let d := if d.ctxState c = st then d else d.set .FLT_CTX_EVT_state_chg c 1
  let d := (d.set .FLT_CTX_STAT_ctx_state c st).set .FLT_CTX_STAT_nco_src c src
  let d := (d.setB .FLT_CTX_STAT_settling c (st == 1)).setB .FLT_CTX_STAT_dc_frozen c
    ((d.ctx c).dcFreeze || st == 3)
  d.arrayCount (ctxArray c)

/-- Event 0x0701 with its cause. -/
def Dev.settleEvent (d : Dev) (c cause : Nat) : Dev := d.raise 0x0701 (c + cause * 4096)

/-- The nco_src of SETTLING by settle_nco: 2 HOLD, 1 SPRINT. -/
def Dev.settleSrc (d : Dev) (c : Nat) : Nat := if d.bit .FLT_CTX_CTL_settle_nco c then 1 else 2

/-- The sprint sum of 16 valid samples, where it is defined (R163); the average is the sum over 16. -/
def CtxSt.sprintSum (x : CtxSt) : Option Int := if x.sprint.length = 16 then some (x.sprint.foldl (· + ·) 0) else none

/-- settle_left shows the output samples left in settling, or in priming. -/
def Dev.showLeft (d : Dev) (c : Nat) : Dev :=
  let x := d.ctx c
  let n := if d.get .FLT_CTX_STAT_swap_state c = 2 then (x.shadow.map (·.settleLeft)).getD 0
    else if d.ctxState c = 1 then (x.chain.map (·.settleLeft)).getD 0 else 0
  d.set .FLT_CTX_STAT_settle_left c n

/-! ### Swaps (R175–R178) -/

/-- The lowest free shadow of array a. -/
def Dev.freeShadow (d : Dev) (a : Nat) : Option Nat :=
  ((List.range 32).map (32 * a + ·)).find? (fun k => (Table.find d.shadows k).isNone)

/-- Whether a built chain may prime: its FIR shift is safe for its page, or unsafe_ok (R176). -/
def Dev.mayPrime (d : Dev) (c : Nat) (x : Chain) : Bool :=
  d.bit .FLT_CTX_CTL_unsafe_ok c || d.firGrowth x.bank x.page x.taps ≤ x.shFir

/-- The chain a swap of context c would prime: m copied, loop loaded as in R171. -/
def Dev.primed (d : Dev) (c : Nat) : Chain :=
  let m := ((d.ctx c).chain.map (·.dcEst)).getD 0
  (d.build c m 0 0 0).handOver (d.ctxWord c)

/-- From NONE or WAIT with shadow k free: PRIMING, or the request dropped (R176). -/
def Dev.primeWith (d : Dev) (c k : Nat) : Dev :=
  let x := d.primed c
  if d.mayPrime c x then
    let d := { d with shadows := Table.ins d.shadows k c }
    let d := (d.setCtx c { d.ctx c with shadow := some x, fadeI := 0 }).set .FLT_CTX_STAT_swap_state c 2
    ((d.busyEval.arrayCount (ctxArray c)).showLeft c).raise 0x0705 c
  else (d.set .FLT_CTX_STAT_swap_state c 0).raise 0x070E c

/-- Waiting contexts of array a take free shadows in ascending order. -/
def Dev.serveWaiting (d : Dev) (a : Nat) : Dev :=
  (d.arrayCtxs a).foldl (fun d c =>
    if d.get .FLT_CTX_STAT_swap_state c = 1 then
      match d.freeShadow a with
      | some k => d.primeWith c k
      | none => d
    else d) d

/-- The shadow of context c is given up. -/
def Dev.dropShadow (d : Dev) (c : Nat) : Dev :=
  let d := { d with shadows := d.shadows.filter (fun e => e.2 != c) }
  ((d.setCtx c { d.ctx c with shadow := none, fadeI := 0 }).busyEval).arrayCount (ctxArray c)

/-- Any swap of context c is discarded: shadow freed, pending cleared. -/
def Dev.swapDrop (d : Dev) (c : Nat) : Dev :=
  if d.get .FLT_CTX_STAT_swap_state c = 0 then d
  else ((d.dropShadow c).set .FLT_CTX_STAT_swap_state c 0).set .FLT_CTX_STAT_pending c 0

/-- WAIT, PRIMING or FADE ends because the context leaves LOCKED; the freed shadow serves the waiting contexts (R176). -/
def Dev.swapCancel (d : Dev) (c : Nat) : Dev := (d.swapDrop c).serveWaiting (ctxArray c)

/-- A request replaces another: replaced + 1, event 0x0707 (R176). -/
def Dev.swapReplaced (d : Dev) (c : Nat) : Dev :=
  ((d.bump .FLT_CTX_SAT1_replaced c 1).set .FLT_CTX_EVT_replaced c 1).raise 0x0707 c

/-- The running chain of context c is rebuilt with zeroed stages, m, I and word kept. -/
def Dev.rebuildChain (d : Dev) (c : Nat) : Dev :=
  match (d.ctx c).chain with
  | some x => ((d.takeUp c).setRunning c (d.build c x.dcEst x.i x.v x.word)).showLeft c
  | none => d

/-- A swap request of context c (R175, R176). A request in PRIMING whose rebuilt chain may not be primed is dropped with event
0x070E alone, and with it the earlier request, whose shadow is freed (DESIGN CHOICE, log entry 95). -/
def Dev.swapRequest (d : Dev) (c : Nat) : Dev :=
  match d.ctxState c with
  | 1 => (d.rebuildChain c).settleEvent c 4
  | 2 =>
    match d.get .FLT_CTX_STAT_swap_state c with
    | 0 =>
      match d.freeShadow (ctxArray c) with
      | some k => d.primeWith c k
      | none => (d.set .FLT_CTX_STAT_swap_state c 1).raise 0x0708 c
    | 1 => d.swapReplaced c
    | 2 =>
      let x := d.primed c
      if d.mayPrime c x then (((d.setCtx c { d.ctx c with shadow := some x }).busyEval).showLeft c).swapReplaced c
      else (d.swapCancel c).raise 0x070E c
    | _ =>
      if d.bit .FLT_CTX_STAT_pending c then d.swapReplaced c else d.set .FLT_CTX_STAT_pending c 1
  | _ => d

/-- R176: the priming chain has reached its settling count: FADE. -/
def Dev.swapFadeStart (d : Dev) (c : Nat) : Dev :=
  match (d.ctx c).shadow with
  | some x =>
    if d.get .FLT_CTX_STAT_swap_state c = 2 && x.settleLeft = 0 then
      (((d.setCtx c { d.ctx c with fadeI := 0 }).set .FLT_CTX_STAT_swap_state c 3).set .FLT_CTX_STAT_nco_src c 3).showLeft c
    else d
  | none => d

def execSwapFadeStart (c : Ctx) (s : State) : Host.Outcome State Fault Refusal := .next (s.onDev (·.swapFadeStart c.val))

/-- R177: the 64th fade sample has been delivered: the shadow becomes the running chain, event 0x0706; a freed shadow
serves the waiting contexts before a pending request is handled as from NONE (DESIGN CHOICE, log entry 94). -/
def Dev.swapComplete (d : Dev) (c : Nat) : Dev :=
  match (d.ctx c).shadow with
  | some x =>
    if d.get .FLT_CTX_STAT_swap_state c = 3 && (d.ctx c).fadeI = 64 then
      let d := (d.dropShadow c).setRunning c x
      let d := ((d.set .FLT_CTX_STAT_swap_state c 0).set .FLT_CTX_STAT_nco_src c 0).set .FLT_CTX_EVT_swap_done c 1
      let d := d.raise 0x0706 c
      let pend := d.bit .FLT_CTX_STAT_pending c
      let d := (d.set .FLT_CTX_STAT_pending c 0).serveWaiting (ctxArray c)
      if pend then d.swapRequest c else d
    else d
  | none => d

def execSwapComplete (c : Ctx) (s : State) : Host.Outcome State Fault Refusal := .next (s.onDev (·.swapComplete c.val))

/-- R178: bank b flips unless its inactive page is busy: event 0x070D, and a swap request in every context that uses it. -/
def Dev.bankFlip (d : Dev) (b : Nat) : Dev :=
  if (d.get .FLT_BANK_BUSY_busy 0).testBit b then d
  else
    let d := d.set .FLT_BANK_FLIP_page 0 (d.get .FLT_BANK_FLIP_page 0 ^^^ 2 ^ b)
    let d := (((d.growEval b).busyEval).refWriteAll [892, 893]).raise 0x070D b
    let users := (d.ctxs.filter (fun e => e.2.chains.any (fun x => x.bank == b))).map (·.1)
    users.foldl (fun d c => d.swapRequest c) d

/-- A write of FLT_BANK_FLIP: every bank of the mask, in order. -/
def Dev.bankFlips (d : Dev) (mask : Nat) : Dev :=
  (List.range 16).foldl (fun d b => if mask.testBit b then d.bankFlip b else d) d

def execBankFlip (mask : BitVec 16) (s : State) : Host.Outcome State Fault Refusal :=
  .next (s.onDev (·.bankFlips mask.toNat))

/-! ### Context states (R170, R171, R179, R180) -/

/-- Saturations and clamps: counters, saturated, event 0x070C once per second. -/
def Dev.countSat (d : Dev) (c : Nat) (cs : List (Fld × Nat)) : Dev :=
  let d := cs.foldl (fun d e => if e.2 = 0 then d else d.bump e.1 c e.2) d
  if cs.all (fun e => e.2 == 0) then d else (d.set .FLT_CTX_EVT_saturated c 1).raise1 0x070C c c

/-- Whether the last word was clamped, and the count of clamped words (R164). -/
def Dev.countClamp (d : Dev) (c : Nat) (clamped : Bool) : Dev :=
  (d.setB .FLT_CTX_STAT_clamped c clamped).countSat c [(.FLT_CTX_SAT1_clamp_cnt, if clamped then 1 else 0)]

/-- Producer, class, k and conflict of context c take the values of its current input; whether the samples' source or
binding changed, and whether the producer or class changed (R156, R158). -/
def Dev.bindInput (d : Dev) (c : Nat) : Dev × Bool × Bool :=
  let (inp, conf) := d.ctxInput c
  let x := d.ctx c
  let cls := match inp with | some p => strobeClass (d.srcFrame p.2) | none => 3
  let swap := inp.map (·.1) != x.input.map (·.1) || cls != d.get .FLT_CTX_STAT_in_class c
  let sigs := match inp with | some p => d.inputSignals p.2 | none => []
  let moved := inp != x.input || sigs != x.signals
  let d := d.setCtx c { x with input := inp, signals := sigs }
  let d := ((d.set .FLT_CTX_STAT_in_class c cls).set .FLT_CTX_STAT_sub_k c
    (match inp with | some p => strobeK (d.srcFrame p.2) | none => 0))
  let d := d.set .FLT_CTX_SRC_src_kind c ((inp.map (·.1)).getD 0 / 4096)
  let d := d.set .FLT_CTX_SRC_src c ((inp.map (·.1)).getD 0)
  let d := if conf && !d.bit .FLT_CTX_STAT_in_conflict c then (d.set .FLT_CTX_EVT_conflict c 1).raise 0x0709 c else d
  (d.setB .FLT_CTX_STAT_in_conflict c conf, moved, swap)

/-- OFF (R170): the word is held; event 0x0704. -/
def Dev.ctxOff (d : Dev) (c : Nat) : Dev :=
  if d.ctxState c = 0 then d
  else
    let d := d.swapCancel c
    let d := (d.ctxGo c 0 2).setCtx c { d.ctx c with chain := none, shadow := none, sprint := [], validRun := 0 }
    (d.busyEval.showLeft c).raise 0x0704 c

/-- OFF to SETTLING (R170): chain with zeroed stages, nco_src SPRINT, m to be seeded by the first sprint average. -/
def Dev.ctxStartUp (d : Dev) (c : Nat) : Dev :=
  let (d, _, _) := d.bindInput c
  let d := d.setCtx c { (d.takeUp c).ctx c with sprint := [], validRun := 0, inputNew := false }
  let d := (d.setRunning c (d.build c 0 0 0 (d.ctxWord c))).ctxGo c 1 1
  (d.showLeft c).settleEvent c 0

/-- START of an FCTX unit (R170, R175). -/
def Dev.ctxStart (d : Dev) (c : Nat) : Dev :=
  let due := (d.ctx c).swapDue
  let d := d.setCtx c { d.ctx c with swapDue := false }
  if !d.bit .FLT_CTX_CTL_ctx_en c || !d.pdOn (domFilt (ctxArray c)) then d.ctxOff c
  else if d.ctxState c = 0 then d.ctxStartUp c
  else
    let d := d.takeUp c
    if due then d.swapRequest c else d

/-- R179: the first invalid sample: HOLDOVER, swap ended, the proportional term dropped; event 0x0703. -/
def Dev.holdover (d : Dev) (c : Nat) : Dev :=
  let d := d.swapCancel c
  match (d.ctx c).chain with
  | some x =>
    let w := 256 * x.dcEst + x.i / 2 ^ x.shLoop
    let d := (d.deliver c (clamp32 w)).countClamp c (clamp32 w != w)
    (d.ctxGo c 3 2).showLeft c |>.raise 0x0703 c
  | none => d

/-- m is reseeded from the sprint average unless frozen or no average is defined (R160). -/
def Dev.reseed (d : Dev) (c : Nat) (m : Int) : Int :=
  if (d.ctx c).dcFreeze then m else match (d.ctx c).sprintSum with | some v => v / 16 | none => m

/-- The rebuild of a sync reset or a holdover exit: active registers, zeroed stages, phi 0, m reseeded, I and word kept. -/
def Dev.ctxRebuild (d : Dev) (c : Nat) : Dev :=
  let d := d.takeUp c
  match (d.ctx c).chain with
  | some x => d.setRunning c (d.build c (d.reseed c x.dcEst) x.i x.v x.word)
  | none => d

/-- R170: 16 consecutive valid samples in HOLDOVER. -/
def Dev.holdoverExit (d : Dev) (c : Nat) : Dev :=
  if d.ctxState c = 3 && 16 ≤ (d.ctx c).validRun then
    (((d.ctxRebuild c).ctxGo c 1 (d.settleSrc c)).showLeft c).settleEvent c 2
  else d

def execHoldoverExit (c : Ctx) (s : State) : Host.Outcome State Fault Refusal := .next (s.onDev (·.holdoverExit c.val))

/-- R170, R171: the settling count is reached with valid input: LOCKED without a step. -/
def Dev.filterSettled (d : Dev) (c : Nat) : Dev :=
  match (d.ctx c).chain with
  | some x =>
    if d.ctxState c = 1 && x.settleLeft = 0 && d.bit .FLT_CTX_STAT_in_valid c then
      ((d.setCtx c { d.ctx c with chain := some (x.handOver (d.ctxWord c)) }).ctxGo c 2 0).raise 0x0702 c
    else d
  | none => d

def execFilterSettled (c : Ctx) (s : State) : Host.Outcome State Fault Refusal := .next (s.onDev (·.filterSettled c.val))

/-- R180: a warm take-over: m, I and word from the mirror, stages zeroed, SETTLING with nco_src HOLD. -/
def Dev.ctxWarm (d : Dev) (c : Nat) (m i : Int) (word : Word) : Dev :=
  if d.ctxState c = 0 then d
  else
    let d := ((d.swapCancel c).deliver c word.toInt).takeUp c
    (((d.setRunning c (d.build c m i 0 word.toInt)).ctxGo c 1 2).showLeft c).settleEvent c 3

/-- R180: a cold take-over: SETTLING with nco_src SPRINT. -/
def Dev.ctxCold (d : Dev) (c : Nat) : Dev :=
  if d.ctxState c = 0 then d
  else (((d.swapCancel c).ctxRebuild c).ctxGo c 1 1).showLeft c |>.settleEvent c 3

/-! ### Samples (R157–R164, R177) -/

/-- Counts of one input sample: saturations of the DC blocker, CIC, half-band and FIR stages, and engine cycles. -/
structure Fed where
  chain : Chain
  dc : Nat
  cic : Nat
  hb : Nat
  fir : Nat
  cycles : Nat
deriving DecidableEq, Repr

/-- The output of a stage: accumulator shifted right and saturated, and whether it saturated. -/
def stageOut (acc : Int) (sh : Nat) : Int × Nat :=
  let v := acc / 2 ^ sh
  (sat24 v, if sat24 v = v then 0 else 1)

/-- Four integrators. -/
def integrate (x : Int) : List Int → List Int
  | [] => []
  | a :: r => let b := w48 (a + x); b :: integrate b r

/-- Four combs: the new delays and the output. -/
def comb (x : Int) : List Int → List Int × Int
  | [] => ([], x)
  | a :: r => let p := comb (w48 (x - a)) r; (x :: p.1, p.2)

/-- A sum of products in a 48-bit accumulator. -/
def dot (cs xs : List Int) : Int := w48 (((cs.zip xs).map (fun p => p.1 * p.2)).foldl (· + ·) 0)

/-- Whether 15 coefficients in Q1.17 have DC gain 1 and, to the three places given, Σ|h| = 1.207 (R159). -/
def hbFits (h : List Int) : Bool :=
  let n := (h.map Int.natAbs).foldl (· + ·) 0
  h.length == 15 && h.foldl (· + ·) 0 == 2 ^ 17 && decide (2413 * 2 ^ 17 ≤ 2000 * n) && decide (2000 * n < 2415 * 2 ^ 17)

/-- Fifteen coefficients that fit, for candidates that do not. -/
def hbFallback : List Int := [-1600, 0, 5184, 0, -5184, 0, 34368, 65536, 34368, 0, -5184, 0, 5184, 0, -1600]

/-- The fixed half-band coefficients: any that R159 allows (log entry 8). -/
def hbCoefs : List Int :=
  let h := (List.range 15).map (fun i => (Config.halfBand i).toInt)
  if hbFits h then h else hbFallback

/-- A sample into the delay line of a half-band stage, and its output at every second sample. -/
def halfBand (line : List Int) (odd : Bool) (x : Int) (sh : Nat) : List Int × Bool × Option (Int × Nat) :=
  let l := (x :: line).take 15
  (l, !odd, if odd then some (stageOut (dot hbCoefs l) sh) else none)

/-- A sample from the decimators into the FIR: the fine output f (R159). -/
def Chain.firIn (x : Chain) (cs : List Int) (v : Int) : Chain × Nat :=
  let l := (v :: x.fir).take x.taps
  let o := stageOut (dot cs l) x.shFir
  ({ x with fir := l, out := some o.1 }, o.2)

/-- A sample from the CIC through the half-band stages. -/
def Chain.hbIn (x : Chain) (cs : List Int) (v : Int) (a : Fed) : Fed :=
  let outCost := x.taps / 8 + 8
  if x.hbN = 0 then
    let f := x.firIn cs v
    { a with chain := f.1, fir := a.fir + f.2, cycles := a.cycles + outCost }
  else
    let h := halfBand x.hb1 x.hb1Odd v x.shHb1
    let x := { x with hb1 := h.1, hb1Odd := h.2.1 }
    let a := { a with chain := x, cycles := a.cycles + 4 }
    match h.2.2 with
    | none => a
    | some o =>
      let a := { a with hb := a.hb + o.2 }
      if x.hbN = 1 then
        let f := x.firIn cs o.1
        { a with chain := f.1, fir := a.fir + f.2, cycles := a.cycles + outCost }
      else
        let g := halfBand x.hb2 x.hb2Odd o.1 x.shHb2
        let x := { x with hb2 := g.1, hb2Odd := g.2.1 }
        let a := { a with chain := x, cycles := a.cycles + 4 }
        match g.2.2 with
        | none => a
        | some p =>
          let f := x.firIn cs p.1
          { a with chain := f.1, hb := a.hb + p.2, fir := a.fir + f.2, cycles := a.cycles + outCost }

/-- One valid input sample e into a chain (R159, R160). -/
def Chain.feed (x : Chain) (cs : List Int) (e : Int) (frozen : Bool) : Fed :=
  let y := w48 (e - x.dcEst)
  let m := if frozen then x.dcEst else w48 (x.dcEst + (e - x.dcEst) / 2 ^ x.dcK)
  let o := stageOut y x.shDc
  let integ := integrate o.1 x.integ
  let x := { x with dcEst := m, integ := integ }
  if x.phase + 1 < x.cicR then ⟨{ x with phase := x.phase + 1 }, o.2, 0, 0, 0, 16⟩
  else
    let k := comb (integ.getLastD 0) x.combs
    let c := stageOut k.2 x.shCic
    let x := { x with phase := 0, combs := k.1 }
    x.hbIn cs c.1 ⟨x, o.2, c.2, 0, 0, 16⟩

/-- u of R164 with the gain of R162: f × 256 × the exact inverse of the chain's passband gain. -/
def Chain.restore (x : Chain) (f : Int) : Int :=
  let shifts := x.shDc + x.shCic + (if 1 ≤ x.hbN then x.shHb1 else 0) + (if x.hbN = 2 then x.shHb2 else 0) + x.shFir
  f * 256 * 2 ^ shifts / ((x.cicR : Int) ^ 4 * 2 ^ (17 * (x.hbN + 1)))

/-- The loop at a fine output sample (R164): the chain with its new word, and whether the word was clamped. -/
def Chain.loop (x : Chain) (f : Int) : Chain × Bool :=
  let phi := w48 (x.phi + (x.restore f - x.v))
  let i := w48 (x.i + x.ki * phi)
  let v := (x.kp * phi + i) / 2 ^ x.shLoop
  let w := 256 * x.dcEst + v
  ({ x with phi := phi, i := i, v := v, word := clamp32 w, out := none, settleLeft := x.settleLeft - 1 }, clamp32 w != w)

/-- Engine cycles of array a. -/
def Dev.filterWork (d : Dev) (a n : Nat) : Dev :=
  { d with sync := { d.sync with work := Table.put d.sync.work a (Table.get d.sync.work a 0 + n) 0 } }

/-- A pending fine output of a chain through its loop. -/
def Chain.pull (x : Chain) : Option (Chain × Bool) := x.out.map x.loop

/-- R164, R165, R177: fine output samples of the running chain and of the shadow: loops, settling counts, and the word
that nco_src delivers. -/
def Dev.filterOutput (d : Dev) (c : Nat) : Dev :=
  let x := d.ctx c
  let run := x.chain.bind Chain.pull
  let shd := x.shadow.bind Chain.pull
  if run.isNone && shd.isNone then d
  else
    let fade := d.get .FLT_CTX_STAT_swap_state c = 3
    let x := { x with
      chain := (run.map (·.1)).orElse (fun _ => x.chain)
      shadow := (shd.map (·.1)).orElse (fun _ => x.shadow)
      fadeI := if fade && shd.isSome then min 64 (x.fadeI + 1) else x.fadeI }
    let d := d.setCtx c x
    let old := (x.chain.map (·.word)).getD 0
    let new := (x.shadow.map (·.word)).getD 0
    let d := match d.get .FLT_CTX_STAT_nco_src c with
      | 0 => if run.isSome then d.deliver c old else d
      | 1 => match x.sprintSum with
        | some v => if run.isSome then d.deliver c (16 * v) else d
        | none => d
      | 2 => d
      | _ => if shd.isSome then d.deliver c (old + (new - old) * x.fadeI / 64) else d
    let clamped := (match run with | some r => r.2 | none => false) || (match shd with | some r => r.2 | none => false)
    (d.countClamp c clamped).showLeft c

def execFilterOutputSample (c : Ctx) (s : State) : Host.Outcome State Fault Refusal := .next (s.onDev (·.filterOutput c.val))

/-- The sprint window takes a valid sample; the first full window after START seeds m (R160, R163). -/
def Dev.sprintIn (d : Dev) (c : Nat) (e : Int) : Dev :=
  let x := d.ctx c
  let first := x.sprint.length = 15
  let x := { x with sprint := (e :: x.sprint).take 16, validRun := x.validRun + 1, lastE := e, inputNew := false }
  match x.sprintSum with
  | some v =>
    let chain := if first then x.chain.map (fun y => { y with dcEst := v / 16 }) else x.chain
    ((d.setCtx c { x with chain := chain }).set .FLT_CTX_SPRINT_sprint c (un 32 (16 * v))).showDc c
  | none => d.setCtx c x

/-- A valid sample into the running chain and the shadow. -/
def Dev.fineIn (d : Dev) (c : Nat) (e : Int) : Dev :=
  let x := d.ctx c
  let frozen := x.dcFreeze
  let feed (y : Chain) : Fed := y.feed (d.coefs y.bank y.page y.taps) e frozen
  let fs := (x.chain.map feed).toList ++ (x.shadow.map feed).toList
  let d := d.setCtx c { x with chain := x.chain.map (fun y => (feed y).chain), shadow := x.shadow.map (fun y => (feed y).chain) }
  let total (f : Fed → Nat) : Nat := (fs.map f).foldl (· + ·) 0
  ((d.showDc c).countSat c [(.FLT_CTX_SAT0_sat_dc, total (·.dc)), (.FLT_CTX_SAT0_sat_cic, total (·.cic)),
    (.FLT_CTX_SAT0_sat_hb, total (·.hb)), (.FLT_CTX_SAT1_sat_fir, total (·.fir))]).filterWork (ctxArray c) (total (·.cycles))

/-- R157, R158: an input sample of context c, formed from its parts. A fine output that still waits is processed first; a
change of input repeats the previous sample, and one of producer or class raises a swap request (R175). -/
def Dev.filterSample (d : Dev) (c : Nat) (line cn client arrival : Int) : Dev :=
  if d.ctxState c = 0 || !d.pdOn (domFilt (ctxArray c)) then d
  else
    let d := d.filterOutput c
    let (d, moved, swap) := d.bindInput c
    let d := if swap then d.swapRequest c else d
    let valid := match (d.ctx c).input with | some p => d.sampleValid c p.2 | none => false
    let d := d.setB .FLT_CTX_STAT_in_valid c valid
    if !valid then
      let d := d.setCtx c { d.ctx c with validRun := 0, inputNew := true }
      if d.ctxState c = 3 then d else d.holdover c
    else
      let e := match (d.ctx c).input with | some p => d.sampleOf c p.2 line cn client arrival | none => 0
      let s := sat24 e
      let d := d.countSat c [(.FLT_CTX_SAT0_sat_in, if s = e then 0 else 1)]
      let s := if moved || (d.ctx c).inputNew then (d.ctx c).lastE else s
      let d := d.sprintIn c s
      if d.ctxState c = 3 then d else d.fineIn c s

def execFilterInputSample (c : Ctx) (line cn client arrival : Int) (s : State) : Host.Outcome State Fault Refusal :=
  .next (s.onDev (·.filterSample c.val line cn client arrival))

/-! ### Sync (R172–R174) -/

/-- A sync reset waits for tick t. -/
def Dev.syncWait (d : Dev) (t : Nat) (grps : BitVec 8) (pin : Bool) : Dev :=
  { d with sync := { d.sync with due := d.sync.due ++ [(t, grps, pin)] } }

/-- busy: a command or the FSYNC_OUT pulse is in progress. -/
def Dev.syncBusy (d : Dev) : Dev :=
  d.setB .FLT_SYNC_CMD_busy 0 (d.sync.outEnd.isSome || d.sync.due.any (fun e => !e.2.2))

/-- R172: the command: a reset at the next tick, or with out_en the FSYNC_OUT pulse of 16 ticks from the next tick. -/
def Dev.syncCommand (d : Dev) (grps : BitVec 8) : Dev :=
  if d.bit .FLT_SYNC_CTL_out_en 0 then
    ({ d with sync := { d.sync with outEnd := some (d.ticks + 17) } } : Dev).syncBusy
  else (d.syncWait (d.ticks + 1) grps false).syncBusy

def execSyncCommand (grps : BitVec 8) (s : State) : Host.Outcome State Fault Refusal := .next (s.onDev (·.syncCommand grps))

/-- R172: FSYNC_OUT falls. -/
def Dev.fsyncOutEnd (d : Dev) : Dev := ({ d with sync := { d.sync with outEnd := none } } : Dev).syncBusy

def execFsyncOutEnd (s : State) : Host.Outcome State Fault Refusal := .next (s.onDev (·.fsyncOutEnd))

/-- R172, R174: a detected edge on FSYNC_IN; one within 1 µs of the previously accepted edge is ignored. The groups are those
of pin_grps at the edge (DESIGN CHOICE, log entry 67). -/
def Dev.fsyncInEdge (d : Dev) : Dev :=
  let near := match d.sync.lastEdge with | some t => decide (d.ticks < t + 250) | none => false
  if near then d
  else
    ({ d with sync := { d.sync with lastEdge := some d.ticks } } : Dev).syncWait
      (d.ticks + d.get .FLT_SYNC_CTL_in_dly 0) (BitVec.ofNat 8 (d.get .FLT_SYNC_CTL_pin_grps 0)) true

def execFsyncInEdge (s : State) : Host.Outcome State Fault Refusal := .next (s.onDev (·.fsyncInEdge))

/-- R173 for one context; in HOLDOVER only the stages are zeroed (R170). -/
def Dev.ctxSync (d : Dev) (c : Nat) : Dev :=
  match d.ctxState c with
  | 0 => d
  | 3 => d.setCtx c { d.ctx c with chain := (d.ctx c).chain.map Chain.zero }
  | _ => ((((d.swapDrop c).ctxRebuild c).ctxGo c 1 (d.settleSrc c)).showLeft c).settleEvent c 1

/-- R173: the due sync reset: every request of the earliest due tick, as one reset of the union of their groups. The swaps
of all its contexts are discarded before a freed shadow serves a waiting context. -/
def Dev.syncReset (d : Dev) : Dev :=
  match d.sync.due with
  | [] => d
  | e :: r =>
    let t := r.foldl (fun t x => min t x.1) e.1
    let now := (e :: r).filter (fun x => x.1 == t)
    let grps := now.foldl (fun (g : BitVec 8) x => g ||| x.2.1) 0
    let pin := now.any (fun x => x.2.2)
    let d := ({ d with sync := { d.sync with due := (e :: r).filter (fun x => x.1 != t) } } : Dev).syncBusy
    let cs := (d.ctxs.map (·.1)).filter (fun c =>
      d.bit .FLT_CTX_CTL_sync_en c && grps.getLsbD (d.get .FLT_CTX_CTL_sync_grp c))
    let d := (cs.filter (fun c => [1, 2].contains (d.ctxState c))).foldl (fun d c => d.swapDrop c) d
    let d := ((cs.foldl (fun d c => d.ctxSync c) d).serveWaiting 0).serveWaiting 1
    (d.set .FLT_SYNC_LAST_dtime 0 d.now).raise 0x070A (grps.toNat + if pin then 256 else 0)

def execSyncReset (s : State) : Host.Outcome State Fault Refusal := .next (s.onDev (·.syncReset))

/-! ### Arrays, clock outputs, commit checks (R153, R180–R182) -/

/-- The swaps of the contexts cs end before any shadow that they free serves a waiting context. -/
def Dev.dropSwaps (d : Dev) (cs : List Nat) : Dev := cs.foldl (fun d c => d.swapDrop c) d

/-- Array a loses its domain: its contexts, at once, go to OFF with their words held (R180). -/
def Dev.filtOff (d : Dev) (a : Nat) : Dev := (d.arrayCtxs a).foldl (fun d c => d.ctxOff c) (d.dropSwaps (d.arrayCtxs a))

/-- Array a has its domain back: the words held are shown, and contexts of RUN units with ctx_en = 1 start as from OFF
(R180). -/
def Dev.filtOn (d : Dev) (a : Nat) : Dev :=
  let d := (d.ctxs.filter (fun e => ctxArray e.1 == a)).foldl (fun d e => d.set .FLT_CTX_WORD_word e.1 (un 32 e.2.word)) d
  ((d.listed .FLT_CTX_CTL).filter (fun c => ctxArray c == a)).foldl (fun d c =>
    if d.running .fctx c && d.bit .FLT_CTX_CTL_ctx_en c && d.ctxState c == 0 then d.ctxStartUp c else d) d

/-- The word of context c that transmitters, re-mappers and clock outputs follow: the delivered word, or on a standby the
one last applied from an epoch (R165, R261). -/
def Dev.outWord (d : Dev) (c : Nat) : Int := (d.ctx c).drive

/-- A standby's outputs take the words of the epoch applied (R261). -/
def Dev.driveMirror (d : Dev) (fs : List FiltEntry) : Dev :=
  if !d.standby then d else fs.foldl (fun d e => d.setCtx e.c { d.ctx e.c with drive := e.word.toInt }) d

/-- The outputs of a device that is no longer a standby follow its own words. -/
def Dev.driveOwn (d : Dev) : Dev := d.ctxs.foldl (fun d e => d.setCtx e.1 { e.2 with drive := e.2.word }) d

/-- Clock output k (R181): driven low, or its base frequency in Hz and the word it follows, in units of 2^−40. -/
def Dev.clkOut (d : Dev) (k : Nat) : Option (Nat × Int) :=
  let c := d.get .FLT_CLKOUT_clk_ctx k
  if !d.bit .FLT_CLKOUT_clk_en k || (d.bit .FLT_CLKOUT_sq_hold k && d.ctxState c == 3) then none
  else some (d.get .FLT_CLKOUT_F_f_base k, d.outWord c)

/-- The worst-case cost of a context at 1.2 MHz in cycles/s (R153). -/
def stageCharge (r hb taps : Nat) : Nat :=
  let up (n q : Nat) : Nat := if q = 0 then 0 else (n + q - 1) / q
  1200000 * 16 + (if 1 ≤ hb then up (1200000 * 4) r else 0) + (if hb = 2 then up (1200000 * 4) (2 * r) else 0)
    + up (1200000 * (taps / 8 + 8)) (r * 2 ^ hb)

/-- The charge of context c from its active registers. -/
def Dev.ctxCharge (d : Dev) (c : Nat) : Nat :=
  let p := d.get .FLT_CTX_CTL_preset c
  if p = 0 then stageCharge (d.get .FLT_CTX_STG_cic_r c) (d.get .FLT_CTX_STG_hb_n c) (tapsOf (d.get .FLT_CTX_STG_fir_taps c))
  else let s := presetStages p; stageCharge s.1 s.2.1 s.2.2.1

/-- The charge of array a: its enabled contexts and 32 times the largest, for the shadows. -/
def Dev.arrayCharge (d : Dev) (a : Nat) : Nat :=
  let cs := ((d.listed .FLT_CTX_CTL).filter (fun c => ctxArray c == a && d.bit .FLT_CTX_CTL_ctx_en c)).map d.ctxCharge
  cs.foldl (· + ·) 0 + 32 * cs.foldl max 0

/-- FLT_ARRAY_STAT.charge, in percent. -/
def Dev.showCharge (d : Dev) (a : Nat) : Dev := d.set .FLT_ARRAY_STAT_charge a (d.arrayCharge a / 10 ^ 8)

/-- The lowest reason for which a COMMIT of context c is rejected, on a device whose active registers hold the words to
be committed (R182). -/
def Dev.fctxCheck (d : Dev) (c : Nat) : Option Nat :=
  let p := d.get .FLT_CTX_CTL_preset c
  let r := d.get .FLT_CTX_STG_cic_r c
  let hb := d.get .FLT_CTX_STG_hb_n c
  let tp := d.get .FLT_CTX_STG_fir_taps c
  let bank := d.get .FLT_CTX_STG_fir_bank c
  let dck := d.get .FLT_CTX_CTL_dc_k c
  let en := d.bit .FLT_CTX_CTL_ctx_en c
  if 5 ≤ p then some 0x20
  else if (p == 0 && (decide (r < 2) || decide (64 < r) || hb == 3 || tp == 3)) || decide (dck < 8) || decide (24 < dck) then
    some 0x21
  else if p == 0 && !d.bit .FLT_CTX_CTL_unsafe_ok c &&
      (decide (d.get .FLT_CTX_SHIFT_sh_dc c < 1) || decide (d.get .FLT_CTX_SHIFT_sh_cic c < cicGrowth r)
        || (decide (1 ≤ hb) && decide (d.get .FLT_CTX_SHIFT_sh_hb1 c < 18))
        || (hb == 2 && decide (d.get .FLT_CTX_SHIFT_sh_hb2 c < 18))
        || decide (d.get .FLT_CTX_SHIFT_sh_fir c < d.firGrowth bank (d.bankPage bank) (tapsOf tp))) then some 0x22
  else if p == 0 && en && d.get .FLT_CTX_LOOP_kp c == 0 && d.get .FLT_CTX_LOOP_ki c == 0 then some 0x23
  else if en && decide (10 ^ 10 < d.arrayCharge (ctxArray c)) then some 0x24
  else none

/-- Whether a COMMIT of context c from device d to device d' changed what R175 names: preset, dc_k or in_sel, or under
CUSTOM the stages, shifts or loop. -/
def ctxChanged (d d' : Dev) (c : Nat) : Bool :=
  let ne (f : Fld) : Bool := d.get f c != d'.get f c
  ne .FLT_CTX_CTL_preset || ne .FLT_CTX_CTL_dc_k || ne .FLT_CTX_CTL_in_sel
    || (d'.get .FLT_CTX_CTL_preset c == 0 && (d.word .FLT_CTX_STG c != d'.word .FLT_CTX_STG c
      || d.word .FLT_CTX_SHIFT c != d'.word .FLT_CTX_SHIFT c || d.word .FLT_CTX_LOOP c != d'.word .FLT_CTX_LOOP c))

end Sys2Proof.Machine
end

