-- ==== Sys2Proof/Machine/PairWire.lean ====
section
/-!
DEFINITION. The bytes of a relay pair's messages (chapter 10): baton header, sections, entries, change records and trailer
(R247–R250), and the pacer frame (R252), little-endian (R9); each with the reading that undoes it.
-/
namespace Sys2Proof.Machine

/-! ### Small pieces -/

/-- The bytes with zeros after them, cut to n. -/
def padTo (n : Nat) (bs : List Byte) : List Byte := (bs ++ List.replicate n (0 : Byte)).take n

/-- A flag as bit b of a byte. -/
def flag (b : Nat) (v : Bool) : Nat := if v then 2 ^ b else 0

/-- Bit b of byte i. -/
def bitAt (bs : List Byte) (i b : Nat) : Bool := (byteAt bs i).toNat.testBit b

/-- Byte i as a number. -/
def numAt (bs : List Byte) (i : Nat) : Nat := (byteAt bs i).toNat

/-- The pieces of n bytes that a body consists of. -/
def pieces (n : Nat) (bs : List Byte) : List (List Byte) := (List.range (bs.length / n)).map (fun i => (bs.drop (n * i)).take n)

/-! ### Entries (R249) -/

/-- A selector entry: 48 bytes. -/
def SelEntry.bytes (e : SelEntry) : List Byte :=
  padTo 48 (leBytes 2 e.g
    ++ [BitVec.ofNat 8 (e.selSig.toNat + 16 * e.brSig.toNat), BitVec.ofNat 8 (e.reqLocal.toNat + 16 * e.reqFar.toNat),
        BitVec.ofNat 8 (e.cmd.toNat + 8 * e.cmdSig.toNat + flag 7 e.frozen),
        BitVec.ofNat 8 (flag 0 e.holdoffRun + flag 1 e.wtrRun + 4 * e.fop.toNat)]
    ++ leBytes 2 e.holdoffLeft.toNat ++ leBytes 2 e.wtrLeft.toNat ++ [0, 0] ++ leBytes 4 e.apsTx.toNat
    ++ leBytes 4 e.apsRx.toNat ++ [e.alnState, 0, 0, 0] ++ leBytes 4 e.delta.toNat ++ leBytes 4 e.delayNs.toNat)

def SelEntry.read (b : List Byte) : SelEntry :=
  { g := leField b 0 2, selSig := BitVec.ofNat 4 (numAt b 2), brSig := BitVec.ofNat 4 (numAt b 2 / 16)
    reqLocal := BitVec.ofNat 4 (numAt b 3), reqFar := BitVec.ofNat 4 (numAt b 3 / 16)
    cmd := BitVec.ofNat 3 (numAt b 4), cmdSig := BitVec.ofNat 4 (numAt b 4 / 8), frozen := bitAt b 4 7
    holdoffRun := bitAt b 5 0, wtrRun := bitAt b 5 1, fop := BitVec.ofNat 4 (numAt b 5 / 4)
    holdoffLeft := BitVec.ofNat 16 (leField b 6 2), wtrLeft := BitVec.ofNat 16 (leField b 8 2)
    apsTx := BitVec.ofNat 32 (leField b 12 4), apsRx := BitVec.ofNat 32 (leField b 16 4), alnState := byteAt b 20
    delta := BitVec.ofNat 32 (leField b 24 4), delayNs := BitVec.ofNat 32 (leField b 28 4) }

/-- A pending item: 3 bytes. -/
def PendItem.bytes (p : PendItem) : List Byte := leBytes 3 (p.code.toNat + flag 5 p.clear + 64 * p.elapsed.toNat)

/-- One level of a failure entry: 18 bytes, four items. -/
def FailLevel.bytes (v : FailLevel) : List Byte :=
  padTo 18 (leBytes 3 v.causes.toNat ++ leBytes 3 v.declared.toNat ++ (v.items.take 4).flatMap PendItem.bytes)

def FailLevel.read (b : List Byte) : FailLevel :=
  { causes := BitVec.ofNat 24 (leField b 0 3), declared := BitVec.ofNat 24 (leField b 3 3)
    items := (List.range 4).filterMap (fun i =>
      let v := leField b (6 + 3 * i) 3
      if v = 0 then none else some ⟨BitVec.ofNat 5 v, v.testBit 5, BitVec.ofNat 12 (v / 64)⟩) }

/-- A failure entry: 160 bytes, the source as in R73, a mask of the levels present, eight levels. -/
def FailEntry.bytes (e : FailEntry) : List Byte :=
  leBytes 2 e.src
    ++ [BitVec.ofNat 8 (e.levels.foldl (fun v l => v ||| 2 ^ l.1) 0), BitVec.ofNat 8 (flag 0 e.overflow)]
    ++ leBytes 4 e.evalAt.toNat ++ List.replicate 8 (0 : Byte)
    ++ (List.range 8).flatMap (fun l => match e.levels.find? (fun p => p.1 == l) with
        | some p => p.2.bytes
        | none => List.replicate 18 (0 : Byte))

def FailEntry.read (b : List Byte) : FailEntry :=
  { src := leField b 0 2, overflow := bitAt b 3 0, evalAt := BitVec.ofNat 32 (leField b 4 4)
    levels := ((List.range 8).filter (bitAt b 2)).map (fun l => (l, FailLevel.read (b.drop (16 + 18 * l)))) }

/-- A filter entry: 64 bytes. -/
def FiltEntry.bytes (e : FiltEntry) : List Byte :=
  padTo 64 (leBytes 2 e.c ++ [BitVec.ofNat 8 (e.ctxState.toNat + 4 * e.ncoSrc.toNat + flag 4 e.dcFrozen), 0]
    ++ leBytes 4 e.word.toNat ++ leBytes 4 e.sprint.toNat ++ leBytes 6 (un 48 e.m) ++ leBytes 6 (un 48 e.i)
    ++ leBytes 6 (un 48 e.phi))

def FiltEntry.read (b : List Byte) : FiltEntry :=
  { c := leField b 0 2, ctxState := BitVec.ofNat 2 (numAt b 2), ncoSrc := BitVec.ofNat 2 (numAt b 2 / 4), dcFrozen := bitAt b 2 4
    word := BitVec.ofNat 32 (leField b 4 4), sprint := BitVec.ofNat 32 (leField b 8 4), m := sx 48 (leField b 12 6)
    i := sx 48 (leField b 18 6), phi := sx 48 (leField b 24 6) }

/-! ### Change records (R249) -/

/-- Bytes of a change record. -/
def changeSize : Change → Nat
  | .tti .. => 72 | .pt .. => 8 | .msi .. => 184 | .aps .. => 12 | .learned .. => 28 | .freed .. => 4 | .flexeCal .. => 8

def changesSize (l : List Change) : Nat := l.foldl (fun n c => n + changeSize c) 0

/-- Type, length in words and index. -/
def changeHead (ty words idx : Nat) : List Byte := [BitVec.ofNat 8 ty, BitVec.ofNat 8 words] ++ leBytes 2 idx

/-- A change record; `src` gives a source its number as in R73 (log entry 74). -/
def Change.bytes (src : Nat → Nat) : Change → List Byte
  | .tti k l v => changeHead 1 18 (src k) ++ [BitVec.ofNat 8 l, 0, 0, 0] ++ padTo 64 v
  | .pt k v => changeHead 2 2 (src k) ++ [v, 0, 0, 0]
  | .msi n tpn occ =>
    changeHead 3 46 n ++ padTo 160 tpn
      ++ leBytes 20 ((List.range 160).foldl (fun v b => v + if occ.getD b false then 2 ^ b else 0) 0)
  | .aps k l v => changeHead 4 3 (src k) ++ [BitVec.ofNat 8 l, 0, 0, 0] ++ leBytes 4 v.toNat
  | .learned t cfg ts =>
    changeHead 5 7 t ++ leBytes 4 cfg.toNat ++ (List.range 5).flatMap (fun w => leBytes 4 (ts.getD w 0).toNat)
  | .freed t => changeHead 6 1 t
  | .flexeCal j c => changeHead 7 2 j ++ [BitVec.ofNat 8 (flag 0 c), 0, 0, 0]

/-- The source number k of a source as in R73. -/
def srcOfWord (w : Nat) : Nat := if w / 4096 % 2 = 1 then 192 + w % 4096 else w % 4096

/-- A change record read, where its type and length fit. -/
def Change.read (b : List Byte) : Option Change :=
  let i := leField b 2 2
  let k := srcOfWord i
  match numAt b 0, numAt b 1 with
  | 1, 18 => some (.tti k (numAt b 4) ((b.drop 8).take 64))
  | 2, 2 => some (.pt k (byteAt b 4))
  | 3, 46 => some (.msi i ((b.drop 4).take 160) ((List.range 160).map ((leField b 164 20).testBit ·)))
  | 4, 3 => some (.aps k (numAt b 4) (BitVec.ofNat 32 (leField b 8 4)))
  | 5, 7 => some (.learned i (BitVec.ofNat 32 (leField b 4 4)) ((List.range 5).map (fun w => BitVec.ofNat 32 (leField b (8 + 4 * w) 4))))
  | 6, 1 => some (.freed i)
  | 7, 2 => some (.flexeCal i (bitAt b 4 0))
  | _, _ => none

/-- The records of a section, at most n of them; none where one does not fit. -/
def changesRead : Nat → List Byte → Option (List Change)
  | _, [] => some []
  | 0, _ => none
  | n + 1, b =>
    match Change.read b with
    | none => none
    | some c => if b.length < changeSize c then none else (changesRead n (b.drop (changeSize c))).map (c :: ·)

/-! ### Header, sections, trailer (R247, R248, R250) -/

/-- The header: 64 bytes, the last four the CRC-32C of the others. -/
def BatonHeader.bytes (h : BatonHeader) : List Byte :=
  let b := leBytes 2 h.kind.toNat ++ [h.version, h.alive] ++ leBytes 8 h.epoch.toNat ++ leBytes 8 h.cutDtime.toNat
    ++ [BitVec.ofNat 8 h.role.toNat, h.health,
        BitVec.ofNat 8 (flag 0 h.final + flag 1 h.take + flag 2 h.pairId + flag 3 h.arb + flag 4 h.suspended + flag 5 h.resyncReq),
        h.nsec]
    ++ leBytes 4 h.length.toNat ++ leBytes 4 h.cfgCrc.toNat ++ leBytes 8 h.ackEpoch.toNat ++ [h.part, h.parts, h.model]
    ++ List.replicate 17 (0 : Byte)
  b ++ leBytes 4 (crc32c b).toNat

def BatonHeader.read (b : List Byte) : BatonHeader :=
  { kind := BitVec.ofNat 16 (leField b 0 2), version := byteAt b 2, alive := byteAt b 3
    epoch := BitVec.ofNat 64 (leField b 4 8), cutDtime := BitVec.ofNat 64 (leField b 12 8)
    role := BitVec.ofNat 4 (numAt b 20), health := byteAt b 21, final := bitAt b 22 0, take := bitAt b 22 1
    pairId := bitAt b 22 2, arb := bitAt b 22 3, suspended := bitAt b 22 4, resyncReq := bitAt b 22 5, nsec := byteAt b 23
    length := BitVec.ofNat 32 (leField b 24 4), cfgCrc := BitVec.ofNat 32 (leField b 28 4)
    ackEpoch := BitVec.ofNat 64 (leField b 32 8), part := byteAt b 40, parts := byteAt b 41, model := byteAt b 42 }

/-- Whether hcrc is the CRC-32C of bytes 0–59. -/
def hcrcOk (b : List Byte) : Bool := leField b 60 4 == (crc32c (b.take 60)).toNat

/-- The entry size of a section, 0 for a variable-length one. -/
def entrySize : Nat → Nat
  | 1 => 48 | 2 => 160 | 3 => 64 | 5 => 256 | _ => 0

/-- The longest body of a section; a SNAP part is at most 1 MiB in all (R251). -/
def bodyCap (snap : Bool) : Nat → Nat
  | 1 => 98304 | 2 => 522240 | 3 => 49152 | 4 => if snap then 2 ^ 20 - 88 else 376832 | _ => 52224

/-- A section: its header and body. -/
def sectionBytes (id : Nat) (body : List Byte) : List Byte :=
  [BitVec.ofNat 8 id, 0] ++ leBytes 2 (entrySize id) ++ leBytes 4 body.length ++ body

/-- Whether an EPOCH of number e that is not suspended carries a PM slice: the first 16 epochs of a second (R249). -/
def pmEpoch (e : Nat) : Bool := decide (e % 4000 < 16)

/-- The PM slice of epoch e: entry j for source i + 16j, eight words of each of eight levels. -/
def pmBytes (e : Nat) (pm : List (Nat × List Word)) : List Byte :=
  (List.range 204).flatMap (fun j => match pm.find? (fun p => p.1 == e % 4000 + 16 * j) with
    | some p => (List.range 64).flatMap (fun w => leBytes 4 (p.2.getD w 0).toNat)
    | none => List.replicate 256 (0 : Byte))

def pmRead (e : Nat) (b : List Byte) : List (Nat × List Word) :=
  ((pieces 256 b).zipIdx.map (fun p => (e % 4000 + 16 * p.2, (List.range 64).map (fun w => BitVec.ofNat 32 (leField p.1 (4 * w) 4))))).filter
    (fun p => p.2.any (· != 0))

/-- The sections of a message in ascending id; an empty one is not sent. -/
def BatonMsg.sections (src : Nat → Nat) (m : BatonMsg) : List (Nat × List Byte) :=
  let e := m.hdr.epoch.toNat
  [(1, m.sels.flatMap SelEntry.bytes), (2, m.fails.flatMap FailEntry.bytes), (3, m.filts.flatMap FiltEntry.bytes),
   (4, m.changes.flatMap (Change.bytes src)),
   (5, if m.hdr.kind == 1 && !m.hdr.suspended && pmEpoch e then pmBytes e m.pm else [])].filter (fun s => !s.2.isEmpty)

/-- A message: header, sections, trailer. -/
def BatonMsg.bytes (src : Nat → Nat) (m : BatonMsg) : List Byte :=
  let b := m.hdr.bytes ++ (m.sections src).flatMap (fun s => sectionBytes s.1 s.2)
    ++ leBytes 8 m.trEpoch.toNat ++ [m.trAlive, 0, 0, 0]
  b ++ leBytes 4 (crc32c b).toNat

/-- n sections that fill the bytes, ascending above id `last`, each with a header that fits it (R248, R250). -/
def sectionsRead (snap : Bool) : Nat → Nat → List Byte → Option (List (Nat × List Byte))
  | 0, _, [] => some []
  | 0, _, _ => none
  | n + 1, last, b =>
    let id := numAt b 0
    let len := leField b 4 4
    let unit := if entrySize id = 0 then 4 else entrySize id
    if b.length < 8 + len || id ≤ last || 5 < id || numAt b 1 ≠ 0 || leField b 2 2 ≠ entrySize id || len % unit ≠ 0
        || bodyCap snap id < len then none
    else (sectionsRead snap n id (b.drop (8 + len))).map ((id, (b.drop 8).take len) :: ·)

/-- The sections of a message. -/
def msgSections (b : List Byte) : Option (List (Nat × List Byte)) :=
  sectionsRead (leField b 0 2 == 2) (numAt b 23) 0 ((b.take (b.length - 16)).drop 64)

/-- The body of section id, empty where the message has none. -/
def sectionOf (b : List Byte) (id : Nat) : List Byte :=
  (((msgSections b).getD []).find? (fun s => s.1 == id)).elim [] (·.2)

/-- The trailer's CRC, over every byte before it. -/
def trailerOk (b : List Byte) : Bool := leField b (b.length - 4) 4 == (crc32c (b.take (b.length - 4))).toNat

/-- Whether version, kind, length and section headers are consistent (R250): a SNAP carries section 4 only, an ACK none, and a
PM slice of 204 entries goes with the first 16 epochs of a second (R249, R251). -/
def formOk (b : List Byte) (kind : Nat) : Bool :=
  let e := leField b 4 8
  match msgSections b with
  | none => false
  | some ss =>
    numAt b 2 == 1 && leField b 0 2 == kind && leField b 24 4 == b.length
      && (changesRead (b.length / 4) (sectionOf b 4)).isSome
      && (match kind with
          | 1 => ss.all (fun s => s.1 != 5 || (pmEpoch e && s.2.length == 52224))
          | 2 => ss.all (fun s => s.1 == 4)
          | _ => ss.isEmpty)

/-- A message read from its bytes. -/
def BatonMsg.read (b : List Byte) : BatonMsg :=
  let n := b.length - 16
  let h := BatonHeader.read b
  { hdr := h, trEpoch := BitVec.ofNat 64 (leField b n 8), trAlive := byteAt b (n + 8)
    sels := (pieces 48 (sectionOf b 1)).map SelEntry.read, fails := (pieces 160 (sectionOf b 2)).map FailEntry.read
    filts := (pieces 64 (sectionOf b 3)).map FiltEntry.read
    changes := (changesRead (b.length / 4) (sectionOf b 4)).getD [], pm := pmRead h.epoch.toNat (sectionOf b 5) }

/-! ### The pacer frame (R252) -/

/-- A pacer frame: 16 bytes, the last four the CRC-32C of the others. -/
def PacerFrame.bytes (f : PacerFrame) : List Byte :=
  let b := [f.version, BitVec.ofNat 8 f.role.toNat, f.alive, f.health,
      BitVec.ofNat 8 (flag 0 f.take + flag 1 f.yield + flag 2 f.pairId + flag 3 f.arb + flag 4 f.fresh + flag 5 f.batonUp), 0]
    ++ leBytes 2 f.epoch.toNat ++ leBytes 4 f.dtime.toNat
  b ++ leBytes 4 (crc32c b).toNat

def PacerFrame.read (b : List Byte) : PacerFrame :=
  { version := byteAt b 0, role := BitVec.ofNat 4 (numAt b 1), alive := byteAt b 2, health := byteAt b 3, take := bitAt b 4 0
    yield := bitAt b 4 1, pairId := bitAt b 4 2, arb := bitAt b 4 3, fresh := bitAt b 4 4, batonUp := bitAt b 4 5
    epoch := BitVec.ofNat 16 (leField b 6 2), dtime := BitVec.ofNat 32 (leField b 8 4) }

/-- Whether bytes 12–15 are the CRC-32C of bytes 0–11. -/
def pacerCrcOk (b : List Byte) : Bool := leField b 12 4 == (crc32c (b.take 12)).toNat

end Sys2Proof.Machine
end

