-- ==== Sys2Proof/Machine/PairMsg.lean ====
section
/-!
DEFINITION. What a relay pair sends (chapter 10): health, the entries of an EPOCH and of a snapshot (R249), message
lengths (R247, R248), headers, and the pacer frame (R252).
-/
namespace Sys2Proof.Machine

/-! ### Health (R254) -/

/-- Whether the PLL of quad q matters: a channel of it that is not OFF. -/
def Dev.quadUsed (d : Dev) (q : Nat) : Bool := (List.range 4).any (fun i => d.mode (4 * q + i) != 0)

/-- Bit b of the health bits of R254. -/
def Dev.healthBit (d : Dev) : Nat → Bool
  | 0 => !(d.rootState == 1 || d.rootState == 2) ||
      (List.range 48).any (fun q => (d.get .PAIR_CTL_own_mask 0).testBit (q / 6) && d.quadUsed q && !d.quadLocked q)
  | 1 => (List.range 8).any (fun s => (d.get .PAIR_CTL_own_mask 0).testBit s && !d.pdOn (domSlice s))
  | 2 => d.sys.thermTripPin
  | 3 => !d.sys.fwRunning || (List.range 16).any (fun h => !d.served h)
  | 4 => !d.bit .CPL_POOL_STAT_pool_ready 0 && (d.listed .PRT_GRP_CFG).any d.hlCfg
  | 5 => d.bit .MTX_STAT_hang_recent 0
  | _ => false

/-- PAIR_HEALTH.health. -/
def Dev.health (d : Dev) : Nat := lvlMask d.healthBit
/-- The health field sent: the bits under the device's own mask. -/
def Dev.healthSent (d : Dev) : Nat := d.health &&& d.get .PAIR_HEALTH_CTL_health_mask 0
/-- Whether the device is unhealthy. -/
def Dev.unhealthy (d : Dev) : Bool := d.healthSent != 0

/-- ARB_FAULT_L: none while held in reset (R382), else low while unhealthy or after dual activity (R237). -/
def Dev.arbFaultL (d : Dev) : Option Bool :=
  if d.sys.held then none else some (!(d.unhealthy || d.bit .PAIR_STAT_dual_active 0))

/-! ### The agent's registers that follow other state (R265) -/

/-- agent_state. -/
def Dev.agent (d : Dev) : Nat := d.get .PAIR_STAT_agent_state 0
/-- Whether the agent is ACTIVE or YIELDING. -/
def Dev.agentOwns (d : Dev) : Bool := d.agent == 2 || d.agent == 3
/-- Whether the PAIRAGENT unit is RUN: copying is not suspended (R258). -/
def Dev.copying (d : Dev) : Bool := d.running .pairagent 0

/-- mirror_age (R265): epochs since the front buffer's cut, at most 15. -/
def Dev.mirrorAge (d : Dev) : Nat :=
  match d.pair.mirror with
  | some m => min (d.epoch - m.epoch) 15
  | none => 0

/-- The mirror field: 0 none, 1 fresh, 2 stale, 3 unmatched (R246, R258). -/
def Dev.mirrorField (d : Dev) : Nat :=
  match d.pair.mirror with
  | none => 0
  | some m =>
    if !m.matched then 3 else if d.agent == 4 || d.agent == 6 || d.pair.suspended || !d.copying then 2 else 1

/-- PAIR_STAT as read. -/
def Dev.pairStat (d : Dev) : Word :=
  let w := Fld.PAIR_STAT_mirror.into (d.word .PAIR_STAT 0) d.mirrorField
  let w := Fld.PAIR_STAT_unhealthy.into w (bitNat d.unhealthy)
  let w := Fld.PAIR_STAT_partner_unhealthy.into w (bitNat (d.get .PAIR_HEALTH_partner_health 0 != 0))
  Fld.PAIR_STAT_mirror_age.into w d.mirrorAge

/-- PAIR_HEALTH as read. -/
def Dev.pairHealth (d : Dev) : Word := Fld.PAIR_HEALTH_health.into (d.word .PAIR_HEALTH 0) d.health

/-! ### Entries (R249) -/

/-- The enabled groups. -/
def Dev.enabledGroups (d : Dev) : List Nat := (d.listed .PRT_GRP_CFG).filter (d.bit .PRT_GRP_CFG_en)

/-- What is left of a timer of `total` ns that has run since a DTIME. -/
def timeLeft (total now : Nat) : Option Int → Nat
  | some t => ((total : Int) - ((now : Int) - t)).toNat
  | none => 0

/-- The hold-off and WTR times of group g in ns. -/
def Dev.holdTotal (d : Dev) (g : Nat) : Nat := d.get .PRT_GRP_TMR_holdoff g * 10 ^ 8
def Dev.wtrTotal (d : Dev) (g : Nat) : Nat := d.get .PRT_GRP_TMR_wtr g * 10 ^ 9

/-- The selector entry of group g. -/
def Dev.selEntry (d : Dev) (g : Nat) : SelEntry :=
  let x := d.group g
  { g := g
    selSig := BitVec.ofNat 4 (d.get .PRT_GRP_STAT_sel_sig g)
    brSig := BitVec.ofNat 4 (d.get .PRT_GRP_STAT_br_sig g)
    reqLocal := BitVec.ofNat 4 (d.get .PRT_GRP_STAT_req_local g)
    reqFar := BitVec.ofNat 4 (d.get .PRT_GRP_STAT_req_far g)
    cmd := BitVec.ofNat 3 x.cmd
    cmdSig := BitVec.ofNat 4 x.cmdSig
    frozen := d.bit .PRT_GRP_STAT_frozen g
    holdoffRun := d.bit .PRT_GRP_STAT_holdoff_run g
    wtrRun := d.bit .PRT_GRP_STAT_wtr_run g
    fop := BitVec.ofNat 4 (d.get .PRT_GRP_STAT_fop g)
    holdoffLeft := BitVec.ofNat 16 (timeLeft (d.holdTotal g) d.now x.holdAt / 10 ^ 6)
    wtrLeft := BitVec.ofNat 16 (timeLeft (d.wtrTotal g) d.now x.wtrAt / 10 ^ 8)
    apsTx := BitVec.ofNat 32 (d.get .PRT_GRP_APS_TX_aps_tx g)
    apsRx := BitVec.ofNat 32 (d.get .PRT_GRP_APS_RX_aps_rx g)
    alnState := BitVec.ofNat 8 (d.hlState g)
    delta := BitVec.ofNat 32 (d.get .PRT_ALN_OFFSET_delta g)
    delayNs := BitVec.ofNat 32 (d.get .PRT_ALN_DELAY_delay_ns g) }

/-- The sources that are RUN, by number. -/
def Dev.runSrcs (d : Dev) : List Nat :=
  (List.range 192).filter d.srcRun ++ ((d.listed .ODU_CFG).map (192 + ·)).filter d.srcRun

/-- The items of level l of source k whose fault cause and failure differ, with the time they have differed. -/
def Dev.pendItems (d : Dev) (k l : Nat) : List PendItem :=
  (List.range 21).filterMap (fun c =>
    let x := Table.get (d.oh k).causes (32 * l + c) ⟨false, 0⟩
    if x.present == d.failBit k l c then none
    else some ⟨BitVec.ofNat 5 c, !x.present, BitVec.ofNat 12 (min ((d.now - x.since.toNat) / 10 ^ 7) 4095)⟩)

/-- The failure entry of source k: its monitored levels, at most four pending items each. -/
def Dev.failEntry (d : Dev) (k : Nat) : FailEntry :=
  let ls := (List.range 8).filter (d.monitored k)
  { src := d.srcWord k
    overflow := ls.any (fun l => 4 < (d.pendItems k l).length)
    evalAt := (d.oh k).evalAt.setWidth 32
    levels := ls.map (fun l => (l,
      { causes := BitVec.ofNat 24 ((List.range 21).foldl (fun v c =>
          v + if (Table.get (d.oh k).causes (32 * l + c) ⟨false, 0⟩).present then 2 ^ c else 0) 0)
        declared := BitVec.ofNat 24 (d.og k .CH_OH_FAIL_fail 8 l)
        items := (d.pendItems k l).take 4 })) }

/-- The filter entry of context c. -/
def Dev.filtEntry (d : Dev) (c : Nat) : FiltEntry :=
  let x := d.ctx c
  { c := c
    ctxState := BitVec.ofNat 2 (d.ctxState c)
    ncoSrc := BitVec.ofNat 2 (d.get .FLT_CTX_STAT_nco_src c)
    dcFrozen := d.bit .FLT_CTX_STAT_dc_frozen c
    word := BitVec.ofInt 32 (d.ctxWord c)
    sprint := d.word .FLT_CTX_SPRINT c
    m := (x.chain.map (·.dcEst)).getD 0
    i := (x.chain.map (·.i)).getD 0
    phi := (x.chain.map (·.phi)).getD 0 }

/-- The eight PM words of levels 0–7 of source j of a PM slice, for the second just closed. -/
def Dev.pmWords (d : Dev) (k : Nat) : List Word :=
  (List.range 64).map (fun i => d.word (ohFld k ⟨.CH_PM_SEC, 0, 32⟩).reg (srcIdx k * 64 + i))

/-- Section 5 of epoch e: sources i + 16j where i is the epoch's index in its second, i < 16. Sources whose words are
all zero are not listed. -/
def Dev.pmSlice (d : Dev) (e : Nat) : List (Nat × List Word) :=
  let i := e % 4000
  if !pmEpoch e then []
  else ((List.range 204).map (fun j => (i + 16 * j, d.pmWords (i + 16 * j)))).filter (fun p => p.2.any (· != 0))

/-- The level at which source k carries APS/PCC or K1/K2. -/
def Dev.apsLevels (d : Dev) (k : Nat) : List Nat :=
  if d.isStm k then [1] else if isTribSrc k then [1, 2, 3, 4, 5, 6, 7] else List.range 8

/-- Every current value of every record type (R251). -/
def Dev.snapshotRecords (d : Dev) : List Change :=
  let tti (k l : Nat) : Change := .tti k l (Table.get (d.oh k).ttiAcc l (List.replicate 64 0))
  let srcs := d.runSrcs
  srcs.flatMap (fun k => (if isTribSrc k then [1, 2, 3, 4, 5, 6, 7] else List.range 8).map (tti k))
    ++ srcs.map (fun k => .pt k (BitVec.ofNat 8 (d.og k .CH_OH_ACC_acc_pt)))
    ++ ((List.range 192).filter (fun n => d.leader n == n && d.isMux n)).map (fun n =>
        .msi n (d.msiValue n).1 (d.msiValue n).2)
    ++ srcs.flatMap (fun k => (d.apsLevels k).map (fun l =>
        .aps k l (BitVec.ofNat 32 (leVal (Table.get (d.oh k).apsAcc l [])))))
    ++ ((d.listed .ODU_STAT).filter (fun t => d.bit .ODU_STAT_learned t)).map (fun t =>
        .learned t (d.word .ODU_CFG t) ((List.range 5).map (fun w => d.word .ODU_TS (t * 5 + w))))
    ++ ((d.listed .SL_FLXE_GRP0).filter (fun j => d.bit .SL_FLXE_GRP0_grp_en j)).map (fun j =>
        .flexeCal j (d.bit .SL_FLXE_GRP_STAT_cal_act j))

/-- A snapshot in parts of at most 1 MiB each, with header, section header and trailer (R251). -/
def snapParts (l : List Change) : List (List Change) :=
  let r := l.foldl (fun (a : List (List Change) × List Change × Nat) c =>
    if 2 ^ 20 - 88 < a.2.2 + changeSize c then (a.1 ++ [a.2.1], [c], changeSize c)
    else (a.1, a.2.1 ++ [c], a.2.2 + changeSize c)) ([], [], 0)
  r.1 ++ [r.2.1]

/-! ### Messages (R247–R252) -/

/-- Bytes of a message with the given section bodies: empty sections are not sent. -/
def msgLen (bodies : List Nat) : Nat := (bodies.filter (· != 0)).foldl (fun n b => n + 8 + b) 80

/-- The header of a message that this device sends. -/
def Dev.header (d : Dev) (kind e nsec len ack part parts : Nat) (final resync suspended : Bool) : BatonHeader :=
  { kind := BitVec.ofNat 16 kind
    version := 1
    alive := d.pair.aliveTxBaton
    epoch := BitVec.ofNat 64 e
    cutDtime := BitVec.ofNat 64 (e * 250000)
    role := BitVec.ofNat 4 d.agent
    health := BitVec.ofNat 8 d.healthSent
    final := final
    take := d.pair.take && d.agent == 2
    pairId := d.bit .PAIR_CTL_pair_id 0
    arb := d.bit .PAIR_STAT_arb_req 0
    suspended := suspended
    resyncReq := resync
    nsec := BitVec.ofNat 8 nsec
    length := BitVec.ofNat 32 len
    cfgCrc := d.word .CHK_DIGEST 0
    ackEpoch := BitVec.ofNat 64 ack
    part := BitVec.ofNat 8 part
    parts := BitVec.ofNat 8 parts
    model := BitVec.ofNat 8 (d.get .STR_FW_VER_model 0) }

/-- A whole message round a header. -/
def wholeMsg (h : BatonHeader) : BatonMsg :=
  { hdr := h, trEpoch := h.epoch, trAlive := h.alive
    sels := [], fails := [], filts := [], changes := [], pm := [] }

/-- Whether the baton carries messages: its domain on and its lanes aligned (R238). -/
def Dev.batonReady (d : Dev) : Bool := d.pdOn domBaton && d.pair.batonLink && !d.sys.held

/-- One baton message sent: the alive counter advances. -/
def Dev.sendBaton (d : Dev) (f : Dev → BatonMsg) : Dev :=
  if !d.batonReady then d
  else
    let d : Dev := { d with pair := { d.pair with aliveTxBaton := d.pair.aliveTxBaton + 1 } }
    { d with pair := { d.pair with txBaton := d.pair.txBaton ++ [(f d).bytes d.srcWord] } }

/-- A pacer frame sent (R252). -/
def Dev.sendPacer (d : Dev) : Dev :=
  if d.sys.held then d
  else
    let a := d.pair.aliveTxPacer + 1
    { d with pair := { d.pair with
        aliveTxPacer := a
        txPacer := some (PacerFrame.bytes
          { version := 1, role := BitVec.ofNat 4 d.agent, alive := a, health := BitVec.ofNat 8 d.healthSent
            take := d.pair.take && d.agent == 2, yield := d.agent == 3, pairId := d.bit .PAIR_CTL_pair_id 0
            arb := d.bit .PAIR_STAT_arb_req 0, fresh := d.mirrorField == 1, batonUp := d.bit .PAIR_STAT_baton_up 0
            epoch := BitVec.ofNat 16 d.epoch, dtime := BitVec.ofNat 32 d.now }) } }

/-- A pacer frame within 2 µs of a change of take, yield or health (R252). -/
def Dev.pacerFollow (d : Dev) : Dev :=
  match d.pair.txPacer with
  | some b =>
    let f := PacerFrame.read b
    if f.take == (d.pair.take && d.agent == 2) && f.yield == (d.agent == 3) && f.health == BitVec.ofNat 8 d.healthSent then d
    else d.sendPacer
  | none => d

/-- The last epoch the partner has acknowledged, or the cut of the snapshot sent since (R245, R263). -/
def Dev.ackBase (d : Dev) : Nat := max d.pair.ackEpoch d.pair.sentCut

/-- Changes since an epoch was cut, of the epochs before e. -/
def Dev.changesSince (d : Dev) (base e : Nat) : List Change :=
  (d.pair.changes.filter (fun c => decide (base ≤ c.1) && decide (c.1 < e))).map (·.2)

/-- An EPOCH with its change set (R245, R247): the changes since the last acknowledged epoch, resynchronisation for a
standby more than 16 epochs behind or whose changes exceed the section cap, and the lengths that follow. -/
def Dev.withChanges (d : Dev) (m : BatonMsg) : BatonMsg :=
  let e := m.hdr.epoch.toNat
  let base := d.ackBase
  let chg := d.changesSince base e
  let resync := decide (base + 16 < e) || decide (376832 < changesSize chg)
  let chg := if m.hdr.suspended || resync then [] else chg
  let bodies := [48 * m.sels.length, 160 * m.fails.length, 64 * m.filts.length, changesSize chg,
    if !m.hdr.suspended && pmEpoch e then 52224 else 0]
  { m with
    changes := chg
    hdr := { m.hdr with
      ackEpoch := BitVec.ofNat 64 base
      resyncReq := resync
      nsec := BitVec.ofNat 8 (bodies.filter (· != 0)).length
      length := BitVec.ofNat 32 (msgLen bodies) } }

/-- The EPOCH message e of an active device (R243–R248): suspended and without sections while its agent is STOPPED. -/
def Dev.sendEpoch (d : Dev) (e : Nat) : Dev :=
  if !d.batonReady then d
  else
    let base := d.ackBase
    let final := d.agent == 3 && !d.pair.finalSent
    let run := d.copying
    let sels := if run then d.enabledGroups.map d.selEntry else []
    let fails := if run then d.runSrcs.map d.failEntry else []
    let filts := if run then ((List.range 768).filter (fun c => d.ctxState c != 0)).map d.filtEntry else []
    let pm := if run then d.pmSlice e else []
    let msg (d : Dev) : BatonMsg :=
      d.withChanges { wholeMsg (d.header 1 e 0 0 base 0 0 final false (!run)) with sels := sels, fails := fails, filts := filts, pm := pm }
    let len := (msg d).hdr.length.toNat
    let d := ((d.sendBaton msg).setWord .PAIR_EPOCH_SENT 0 (BitVec.ofNat 32 e)).set .PAIR_MSG_LEN_len 0 len
    { d with pair := { d.pair with
        finalSent := d.pair.finalSent || final
        changes := d.pair.changes.filter (fun c => decide (base ≤ c.1) && decide (e ≤ c.1 + 17)) } }

/-- An acknowledgement within the 10 µs before the EPOCH of this boundary begins (R243 step 2) becomes the base of that
EPOCH's change set. DEDUCED (log entry 31). -/
def Dev.rebase (d : Dev) : Dev :=
  if 10000 ≤ d.now % 250000 then d
  else
    let mine (b : List Byte) : Bool := leField b 0 2 == 1 && leField b 4 8 == d.epoch
    let q := d.pair.txBaton.map (fun b => if mine b then (d.withChanges (BatonMsg.read b)).bytes d.srcWord else b)
    let d : Dev := { d with pair := { d.pair with txBaton := q } }
    match q.find? mine with
    | some b => d.set .PAIR_MSG_LEN_len 0 b.length
    | none => d

/-- The snapshot beside the EPOCH messages (R263): a request waiting is cut at this boundary; one part per epoch. A part
without a record is a message without a section (R247, R251). A STOPPED agent sends none (R258). -/
def Dev.sendSnap (d : Dev) (e : Nat) : Dev :=
  if !d.copying then d else
  let d : Dev := { d with pair := { d.pair with snapHold := d.pair.snapHold - 1 } }
  let d : Dev :=
    if d.pair.snapReq && d.pair.snapOut.isEmpty then
      let ps := snapParts d.snapshotRecords
      { d with pair := { d.pair with snapReq := false, snapOut := ps, snapTotal := ps.length, sentCut := e } }
    else d
  match (if d.batonReady then d.pair.snapOut else []) with
  | [] => d
  | p :: rest =>
    let idx := d.pair.snapTotal - d.pair.snapOut.length
    let d := d.sendBaton (fun d =>
      { wholeMsg (d.header 2 d.pair.sentCut (if p.isEmpty then 0 else 1) (msgLen [changesSize p]) d.pair.sentCut idx d.pair.snapTotal false false false) with
        changes := p })
    { d with pair := { d.pair with snapOut := rest, snapHold := if rest.isEmpty then 2 else d.pair.snapHold } }

/-- The ACK of a standby (R251): 0 from SYNC until its snapshot is verified. -/
def Dev.sendAck (d : Dev) (e : Nat) : Dev :=
  let ack := if d.agent == 4 && !d.pair.snapOk then 0 else d.pair.lastApplied
  d.sendBaton (fun d => wholeMsg (d.header 3 e 0 80 ack 0 0 false false false))

end Sys2Proof.Machine
end

