-- ==== Sys2Proof/Machine/Pair.lean ====
section
/-!
DEFINITION. The pair agent (chapter 10): heartbeats, agent states, copy epochs, applying EPOCH and SNAP, take-over and
resynchronisation.
-/
namespace Sys2Proof.Machine

/-- A device with its pair state changed. -/
def Dev.onPair (d : Dev) (f : PairSt → PairSt) : Dev := { d with pair := f d.pair }

/-! ### State changes (R258, R259, R263) -/

/-- Groups of a device that becomes a standby run no timers, what is present counting at once, and make no decision that they
have not made yet (R242). -/
def Dev.timersOff (d : Dev) : Dev :=
  (d.listed .PRT_GRP_CFG).foldl (fun d g =>
    let x := d.group g
    ((d.set .PRT_GRP_STAT_holdoff_run g 0).set .PRT_GRP_STAT_wtr_run g 0).setGroup g
      { x with effSf := x.rawSf, effSd := x.rawSd, holdAt := none, wtrAt := none, changed := false, decided := none }) d

/-- The agent enters state v: state_chg, the PAIR record (R311), and what each state begins with. -/
def Dev.pairGo (d : Dev) (v : Nat) : Dev :=
  let old := d.agent
  if old = v then d
  else
    let wasStandby := d.standby
    let d := (d.set .PAIR_STAT_agent_state 0 v).set .PAIR_EVT_state_chg 0 1
    let d := d.record 0x07 d.dtime
      ([BitVec.ofNat 8 (v + old * 16), BitVec.ofNat 8 (d.get .PAIR_STAT_partner_state 0 + d.mirrorAge * 16),
        BitVec.ofNat 8 d.health, BitVec.ofNat 8 (d.get .PAIR_HEALTH_partner_health 0)]
        ++ leBytes 4 (d.word .PAIR_EPOCH_APPL 0).toNat)
    let d := if d.standby && !wasStandby then d.timersOff else d
    let d := if wasStandby && !d.standby then d.driveOwn else d
    let d := d.onPair (fun p => { p with absentEpochs := 0, ownerHeard := false })
    match v with
    | 1 => d.onPair (fun p => { p with partnerHeard := false, partnerDisc := none })
    | 2 => d.onPair (fun p => { p with
        changes := [], snapReq := false, snapOut := [], snapHold := 0, sentCut := 0, ackEpoch := 0, finalSent := false })
    | 3 => d.onPair (fun p => { p with finalSent := false })
    | 4 =>
      let d := d.onPair (fun p => { p with
        snapGot := [], snapLater := [], snapOk := false, staleWait := if d.bit .PAIR_STAT_baton_up 0 then none else some 0 })
      (((d.set .PAIR_SYNC_STAT_parts_rx 0 0).set .PAIR_SYNC_STAT_parts_total 0 0).bump .PAIR_CNT_DISC_sync_cnt 0 1).raise
        0x0A0E 0
    | 5 => d.raise 0x0A09 0
    | 6 => (d.set .PAIR_EVT_stale 0 1).raise 0x0A08 0
    | _ => d

/-- Ownership is released: OWN_L follows the state at once; event 0x0A07 with its cause. -/
def Dev.pairRelease (d : Dev) (v cause : Nat) : Dev :=
  let d := (d.onPair (fun p => { p with take := false })).set .PAIR_STAT_dual_active 0 0
  (((d.pairGo v).bump .PAIR_CNT_YIELD_yield_cnt 0 1).set .PAIR_EVT_yielded 0 1).raise 0x0A07 cause

/-! ### Take-over (R259, R260) -/

/-- Group g takes the decisions of a mirror entry (R242, R260). -/
def Dev.loadEntry (d : Dev) (e : SelEntry) : Dev :=
  let d := ((d.setB .PRT_GRP_STAT_frozen e.g e.frozen).set .PRT_GRP_STAT_req_local e.g e.reqLocal.toNat).set
    .PRT_GRP_STAT_req_far e.g e.reqFar.toNat
  d.setGroup e.g { d.group e.g with
    cmd := e.cmd.toNat, cmdSig := e.cmdSig.toNat, want := e.selSig.toNat, reqSig := e.selSig.toNat, changed := true }

/-- Group g begins as from START: NR, no command, signal 0 (R218, R260). -/
def Dev.loadStart (d : Dev) (g : Nat) : Dev :=
  let d := ((d.set .PRT_GRP_STAT_frozen g 0).set .PRT_GRP_STAT_req_local g 0).set .PRT_GRP_STAT_req_far g 0
  d.setGroup g { d.group g with cmd := 0, cmdSig := 0, want := 0, reqSig := 0, changed := true }

/-- The DTIME from which a timer of `total` ns has `left` to run. -/
def startedAt (total now left : Nat) : Int := (now : Int) + left - total

/-- Hold-off and WTR of a mirror entry: the time left less the mirror's age in ns. -/
def Dev.loadTimers (d : Dev) (e : SelEntry) (age : Nat) : Dev :=
  let x := d.group e.g
  let hold := startedAt (d.holdTotal e.g) d.now (e.holdoffLeft.toNat * 10 ^ 6 - age)
  let wtr := startedAt (d.wtrTotal e.g) d.now (e.wtrLeft.toNat * 10 ^ 8 - age)
  let waits := e.holdoffRun && e.reqLocal.toNat < 9
  ((d.setB .PRT_GRP_STAT_holdoff_run e.g e.holdoffRun).setB .PRT_GRP_STAT_wtr_run e.g e.wtrRun).setGroup e.g
    { x with holdAt := if e.holdoffRun then some hold else none, wtrAt := if e.wtrRun then some wtr else none
             effSf := if waits then 0 else x.rawSf, effSd := if waits then 0 else x.rawSd }

/-- Hold-off and WTR restart from the current requests. -/
def Dev.restartTimers (d : Dev) (g : Nat) : Dev :=
  let x := d.group g
  let hold := d.get .PRT_GRP_TMR_holdoff g != 0 && (x.rawSf != 0 || x.rawSd != 0)
  let wtr := d.get .PRT_GRP_STAT_req_local g == 5
  ((d.setB .PRT_GRP_STAT_holdoff_run g hold).setB .PRT_GRP_STAT_wtr_run g wtr).setGroup g
    { x with holdAt := if hold then some d.now else none, wtrAt := if wtr then some d.now else none
             effSf := if hold then 0 else x.rawSf, effSd := if hold then 0 else x.rawSd }

/-- The groups load the last applied mirror, or their START state, and decide again for themselves (R260). -/
def Dev.loadGroups (d : Dev) (warm : Bool) : Dev :=
  let age := match d.pair.mirror with
    | some m => d.now - m.cut
    | none => 0
  d.enabledGroups.foldl (fun d g =>
    if !d.running .pgroup g then d
    else
      match d.mirrorSel g with
      | some e => ((if warm then (d.loadEntry e).loadTimers e age else (d.loadEntry e).restartTimers g)).groupEval g
      | none => ((d.loadStart g).restartTimers g).groupEval g) d

/-- One failure entry of the mirror loaded (R260): the declared failures and the elapsed times of its pending items; the
device's own fault causes continue, and what the entry had no room for begins again (R249). -/
def Dev.loadFail (d : Dev) (e : FailEntry) : Dev :=
  let k := srcOfWord e.src
  let ago := ((BitVec.ofNat 32 d.now) - e.evalAt).toNat
  e.levels.foldl (fun d p =>
    let d := d.oset k .CH_OH_FAIL_fail p.2.declared.toNat 8 p.1
    let o := d.oh k
    let cs := (List.range 21).foldl (fun cs c =>
      let i := 32 * p.1 + c
      let x := Table.get cs i ⟨false, 0⟩
      if x.present == p.2.declared.toNat.testBit c then cs
      else
        match p.2.items.find? (fun it => it.code.toNat == c && it.clear == !x.present) with
        | some it => Table.ins cs i ⟨x.present, BitVec.ofNat 64 (d.now - (it.elapsed.toNat * 10 ^ 7 + ago))⟩
        | none => Table.ins cs i ⟨x.present, d.dtime⟩) o.causes
    d.setOh k { o with causes := cs }) d

/-- The filter contexts at a take-over: warm from the mirror's entry, else cold (R180, R260). -/
def Dev.loadFilters (d : Dev) (warm : Bool) : Dev :=
  let es := match (if warm then d.pair.mirror else none) with
    | some m => m.filts
    | none => []
  let d := d.dropSwaps ((List.range 768).filter (fun c => d.ctxState c != 0))
  (List.range 768).foldl (fun d c =>
    if d.ctxState c = 0 then d
    else
      match es.find? (fun e => e.c == c) with
      | some e => d.ctxWarm c e.m e.i e.word
      | none => d.ctxCold c) d

/-- Whether a take-over now is warm: from WARM, with a matched mirror (R260). -/
def Dev.warmNow (d : Dev) : Bool := d.agent == 5 && d.pair.mirror.any (·.matched)

/-- The take-over of R259: state and take flag, OWN_L and ARB_ROLE with them, event 0x0A06, the state of R260, a pacer
frame. -/
def Dev.takeOver (d : Dev) (cause : Nat) : Dev :=
  let warm := d.warmNow
  let age := d.mirrorAge
  let d := (d.pairGo 2).onPair (fun p => { p with take := true, ownTakeover := d.epoch, blocked := false })
  let d := (d.bump (if warm then .PAIR_CNT_TKO_warm_cnt else .PAIR_CNT_TKO_cold_cnt) 0 1).set .PAIR_EVT_takeover 0 1
  let d := (d.raise 0x0A06 (bitNat warm + cause * 2 + age * 16)).loadGroups warm
  let d := if warm then
      match d.pair.mirror with
      | some m => m.fails.foldl (fun d e => d.loadFail e) d
      | none => d
    else d
  (d.loadFilters warm).sendPacer

/-- DISCOVER or ISOLATED becomes ACTIVE without a take-over: event 0x0A01, the cold column but for the filters (R260). -/
def Dev.becomeActive (d : Dev) : Dev :=
  let old := d.agent
  (((d.pairGo 2).raise 0x0A01 old).loadGroups false).pacerFollow

/-! ### Take-over conditions (R255) -/

/-- Whether both paths are down. -/
def Dev.alone (d : Dev) : Bool := !d.bit .PAIR_STAT_baton_up 0 && !d.bit .PAIR_STAT_pacer_up 0

/-- Whether a partner is being heard in state v. -/
def Dev.hears (d : Dev) (v : Nat) : Bool := !d.alone && d.get .PAIR_STAT_partner_state 0 == v

/-- Whether the data path calls for a take-over: both paths down, or the active reports ill health. -/
def Dev.takeWanted (d : Dev) : Bool :=
  [4, 5, 6].contains d.agent &&
    (d.alone || ((d.hears 2 || d.hears 3) && d.get .PAIR_HEALTH_partner_health 0 != 0))

/-- After any change: a wanted take-over that is blocked raises 0x0A0D once per episode (R255), and a change of take, yield
or health is sent (R252). -/
def Dev.pairEval (d : Dev) : Dev :=
  let arb := d.bit .PAIR_STAT_arb_req 0
  let d :=
    if !d.takeWanted then d.onPair (fun p => { p with blocked := false })
    else if (arb && !d.unhealthy) || d.pair.blocked then d
    else (d.onPair (fun p => { p with blocked := true })).raise 0x0A0D (bitNat (!arb) + 2 * bitNat d.unhealthy)
  d.pacerFollow

/-- TAKE_OVER (R255, R259). -/
def Dev.takeOverNow (d : Dev) : Dev :=
  if d.takeWanted && d.bit .PAIR_STAT_arb_req 0 && !d.unhealthy then (d.takeOver (if d.alone then 0 else 1)).pairEval else d

def execTakeOver (s : State) : Host.Outcome State Fault Refusal := .next (s.onDev (·.takeOverNow))

/-! ### Heartbeats (R252, R253, R258, R262) -/

/-- Dual activity: counted with event 0x0A0B; the device that releases enters SYNC, the other shows it (R262). -/
def Dev.dual (d : Dev) (mine : Bool) : Dev :=
  if !mine && d.bit .PAIR_STAT_dual_active 0 then d
  else
    let d := ((d.bump .PAIR_CNT_YIELD_dual_cnt 0 1).set .PAIR_EVT_dual 0 1).raise 0x0A0B (bitNat mine)
    if mine then d.pairRelease 4 3 else d.set .PAIR_STAT_dual_active 0 1

/-- Whether this device's take-over is the later one, or of the partner's epoch with pair_id 1 (R262). A partner whose
take-over was not heard counts as one of the same epoch. DESIGN CHOICE (log entry 30): no message carries the epoch of a
take-over. -/
def Dev.mineLater (d : Dev) : Bool :=
  let id1 := d.bit .PAIR_CTL_pair_id 0
  match d.pair.partnerTakeover with
  | none => id1
  | some e => decide (e < d.pair.ownTakeover) || (d.pair.ownTakeover == e && id1)

/-- The transitions that hearing the partner causes (R258, R262): a valid take is obeyed by a device that has not itself taken
over; two take flags, and two ACTIVE devices, are dual activity. -/
def Dev.pairHears (d : Dev) (role : Nat) (take : Bool) : Dev :=
  match d.agent with
  | 1 => if role = 2 || role = 3 then d.pairGo 4 else d
  | 7 => if role = 2 then d.pairGo 4 else d
  | 3 => if take then d.pairRelease 4 1 else d
  | 2 =>
    if take && !d.pair.take then d.pairRelease 4 1
    else if take || role = 2 then d.dual d.mineLater
    else d
  | _ => d

/-- A valid heartbeat on a path: the path is up and its silence timer starts again; one that carries the device's own
pair_id is ignored with event 0x0A0C. The epoch of a partner's take-over is that of the first heartbeat with its take flag,
where the partner was being heard until then. -/
def Dev.heard (d : Dev) (baton : Bool) (role health : Nat) (take pid arb : Bool) : Dev :=
  if pid == d.bit .PAIR_CTL_pair_id 0 then (d.set .PAIR_EVT_cfg_mismatch 0 1).raise 0x0A0C 1
  else
    let up : Fld := if baton then .PAIR_STAT_baton_up else .PAIR_STAT_pacer_up
    let silent := d.alone
    let d := if d.bit up 0 then d
      else ((d.set up 0 1).set .PAIR_EVT_path_chg 0 1).raise (if baton then 0x0A03 else 0x0A05) 0
    let owns := role = 2 || role = 3
    let d := (d.set .PAIR_STAT_partner_state 0 role).set .PAIR_HEALTH_partner_health 0 health
    let d := d.onPair (fun p => { p with
      staleWait := if baton then none else p.staleWait
      partnerPairId := some pid
      partnerHeard := true
      partnerDisc := if role = 1 && d.agent == 1 then some arb else p.partnerDisc
      ownerHeard := p.ownerHeard || owns
      take := p.take && owns
      partnerTakeover := if take && !p.partnerTake then (if silent then none else some d.epoch) else p.partnerTakeover
      partnerTake := take
      batonAt := if baton then d.ticks else p.batonAt
      pacerAt := if baton then p.pacerAt else d.ticks })
    let d := if owns then d else d.set .PAIR_STAT_dual_active 0 0
    (d.pairHears role take).pairEval

/-- Whether message bytes carry the device's own pair_id in a header that reads right: they are ignored (R253). -/
def Dev.ownMsg (d : Dev) (b : List Byte) : Bool := hcrcOk b && bitAt b 22 2 == d.bit .PAIR_CTL_pair_id 0

/-- A baton header judged once (R253, R281): hcrc and alive, before its trailer. The answer says whether its message may
be used. -/
def Dev.judgeHeader (d : Dev) (b : List Byte) : Dev × Bool :=
  let h := BatonHeader.read b
  if !hcrcOk b then (d, false)
  else
    let j := d.pair.rxBaton.judge 32 true h.alive
    let (d, ok) := (d.onPair (fun p => { p with rxBaton := j.1 })).aliveCount 0 j.2
    if !ok then (d, false)
    else
      let own := d.ownMsg b
      let d := d.heard true h.role.toNat h.health.toNat h.take h.pairId h.arb
      (if own then d else d.partnerCut h.cutDtime.toNat, ok)

/-- A message is discarded (R250): event 0x0A0A for the first of a DTIME second. -/
def Dev.discard (d : Dev) (reason kind : Nat) : Dev :=
  ((d.bump .PAIR_CNT_DISC_disc_cnt 0 1).set .PAIR_EVT_discard 0 1).raise1 0x0A0A 0 (reason + kind % 256 * 256)

/-- The snapshot's parts begin again (R263). -/
def Dev.snapRestart (d : Dev) : Dev :=
  (d.onPair (fun p => { p with snapGot := [], snapLater := [] })).set .PAIR_SYNC_STAT_parts_rx 0 0

/-- A header or the boundary arrives while a message is awaited: a standby discards it as incomplete (R250). -/
def Dev.dropAwaited (d : Dev) : Dev :=
  match d.pair.hdr with
  | none => d
  | some (b, _) =>
    let d := d.onPair (fun p => { p with hdr := none })
    let kind := leField b 0 2
    if ! [4, 5, 6].contains d.agent || kind == 3 || d.ownMsg b then d
    else (if kind == 2 && !d.pair.snapOk then d.snapRestart else d).discard 1 kind

/-- BATON_HEADER_RECEIVED: the heartbeat; its message, when whole, finds the judgement made. A message still awaited is
incomplete. -/
def Dev.headerReceived (d : Dev) (b : List Byte) : Dev :=
  if !d.batonReady then d
  else
    let r := d.dropAwaited.judgeHeader b
    r.1.onPair (fun p => { p with hdr := some (b, r.2) })

def execBatonHeaderReceived (bytes : List Byte) (s : State) : Host.Outcome State Fault Refusal :=
  .next (s.onDev (·.headerReceived bytes))

/-- The judgement of a message's header: the one made when it arrived, else now. -/
def Dev.msgHeader (d : Dev) (b : List Byte) : Dev × Bool :=
  match d.pair.hdr with
  | some (h, v) =>
    if h = b.take 64 then (d.onPair (fun p => { p with hdr := none }), v) else d.dropAwaited.judgeHeader (b.take 64)
  | none => d.judgeHeader (b.take 64)

/-- PACER_FRAME_RECEIVED (R252, R253): CRC, version and alive, then heartbeat and time (R377). -/
def Dev.pacerReceived (d : Dev) (b : List Byte) : Dev :=
  let f := PacerFrame.read b
  if !(pacerCrcOk b && f.version == 1) || d.sys.held then d
  else
    let j := d.pair.rxPacer.judge 16 true f.alive
    let (d, ok) := (d.onPair (fun p => { p with rxPacer := j.1 })).aliveCount 1 j.2
    if !ok then d
    else
      let d' := d.heard false f.role.toNat f.health.toNat f.take f.pairId f.arb
      if f.pairId == d.bit .PAIR_CTL_pair_id 0 then d' else d'.partnerTime f.dtime

def execPacerFrameReceived (bytes : List Byte) (s : State) : Host.Outcome State Fault Refusal :=
  .next (s.onDev (·.pacerReceived bytes))

/-- Whether the silence timer of a path has reached to_epochs × 62,500 ticks (R253). -/
def Dev.silenceUp (d : Dev) (baton : Bool) : Bool :=
  decide ((if baton then d.pair.batonAt else d.pair.pacerAt) + d.get .PAIR_CTL_to_epochs 0 * 62500 ≤ d.ticks)

/-- PATH_DOWN (R253): a path that is up and silent for to_epochs goes down; its alive receiver starts afresh (R281); an
ACTIVE device left alone yields under iso_policy (R257). -/
def Dev.pathDown (d : Dev) (baton : Bool) : Dev :=
  let up : Fld := if baton then .PAIR_STAT_baton_up else .PAIR_STAT_pacer_up
  if !(d.bit up 0 && d.silenceUp baton) then d
  else
    let d := ((d.set up 0 0).bump (if baton then .PAIR_CNT_DOWN_baton_down else .PAIR_CNT_DOWN_pacer_down) 0 1).set
      .PAIR_EVT_path_chg 0 1
    let d := (d.raise (if baton then 0x0A02 else 0x0A04) 0).onPair (fun p =>
      if baton then { p with rxBaton := { p.rxBaton with fresh := true }, staleWait := some 0 }
      else { p with rxPacer := { p.rxPacer with fresh := true }, staleWait := p.staleWait.map (fun _ => 0) })
    (if d.agent == 2 && d.alone && d.bit .PAIR_CTL_iso_policy 0 then d.pairRelease 7 2 else d).pairEval

def execPathDown (p : PairPath) (s : State) : Host.Outcome State Fault Refusal := .next (s.onDev (·.pathDown (p == .baton)))

/-- The baton link comes up where its domain is on (R238). -/
def execBatonLinkUp (s : State) : Host.Outcome State Fault Refusal :=
  .next (s.onDev (fun d => if d.pdOn domBaton then d.onPair (fun p => { p with batonLink := true }) else d))

/-- The baton link goes down: a header whose message was under way finds no message. -/
def Dev.batonDown (d : Dev) : Dev := d.onPair (fun p => { p with batonLink := false })

def execBatonLinkDown (s : State) : Host.Outcome State Fault Refusal := .next (s.onDev (·.batonDown))

/-! ### ARB_REQ (R240, R258) -/

/-- ARB_REQ rises: an ISOLATED device that hears no ACTIVE partner becomes ACTIVE. -/
def Dev.arbRise (d : Dev) : Dev :=
  let d := ({ d with sys := { d.sys with arbPin := true } } : Dev)
  if d.sys.held then d
  else
    let d := d.set .PAIR_STAT_arb_req 0 1
    (if d.agent == 7 && !d.hears 2 then d.becomeActive else d).pairEval

def execArbReqRise (s : State) : Host.Outcome State Fault Refusal := .next (s.onDev (·.arbRise))

/-- ARB_REQ falls: an ACTIVE device begins to yield. -/
def Dev.arbFall (d : Dev) : Dev :=
  let d := ({ d with sys := { d.sys with arbPin := false } } : Dev)
  if d.sys.held then d
  else
    let d := d.set .PAIR_STAT_arb_req 0 0
    (if d.agent == 2 then d.pairGo 3 else d).pairEval

def execArbReqFall (s : State) : Host.Outcome State Fault Refusal := .next (s.onDev (·.arbFall))

/-! ### Windows (R258) -/

/-- The discovery window ends (R258): not before disc_epochs boundaries without an owning partner. -/
def Dev.discoverEnd (d : Dev) : Dev :=
  if d.agent != 1 || d.pair.absentEpochs < d.get .PAIR_CTL_disc_epochs 0 || !d.bit .PAIR_STAT_arb_req 0 then d
  else if d.bit .PAIR_CTL_pair_id 0 && d.pair.partnerDisc == some true then (d.pairGo 4).pairEval
  else if !d.pair.partnerHeard || !d.bit .PAIR_CTL_pair_id 0 || d.pair.partnerDisc == some false then
    d.becomeActive.pairEval
  else d

def execDiscoverWindowEnd (s : State) : Host.Outcome State Fault Refusal := .next (s.onDev (·.discoverEnd))

/-- No owning partner for disc_epochs epochs in SYNC: a cold take-over (R258). -/
def Dev.syncAbsent (d : Dev) : Dev :=
  if d.agent == 4 && decide (d.get .PAIR_CTL_disc_epochs 0 ≤ d.pair.absentEpochs) && d.bit .PAIR_STAT_arb_req 0
      && !d.unhealthy && (!d.bit .PAIR_CTL_pair_id 0 || !(d.hears 4 || d.hears 5 || d.hears 6)) then (d.takeOver 0).pairEval
  else d

def execSyncPartnerAbsent (s : State) : Host.Outcome State Fault Refusal := .next (s.onDev (·.syncAbsent))

/-- yield_to epochs in YIELDING: ownership is released (R258). -/
def Dev.yieldEnd (d : Dev) : Dev :=
  if d.agent == 3 && decide (d.get .PAIR_CTL_yield_to 0 ≤ d.pair.absentEpochs) then
    (d.pairRelease (if d.alone then 7 else 4) 0).pairEval
  else d

def execYieldTimeout (s : State) : Host.Outcome State Fault Refusal := .next (s.onDev (·.yieldEnd))

/-- A write of PAIR_CMD.resync: WARM or STALE to SYNC. -/
def Dev.pairResync (d : Dev) : Dev := if d.agent == 5 || d.agent == 6 then (d.pairGo 4).pairEval else d

def execResync (s : State) : Host.Outcome State Fault Refusal := .next (s.onDev (·.pairResync))

/-- START of the PAIRAGENT (R258): pair_en = 0 leaves the pair; from OFF, pair_en = 1 discovers; else copying resumes. -/
def Dev.pairStart (d : Dev) : Dev :=
  let d := d.onPair (fun p => { p with started := true })
  (if !d.bit .PAIR_CTL_pair_en 0 then
    let d' := d.pairGo 0
    (d'.onPair (fun p => { p with take := false })).set .PAIR_STAT_dual_active 0 0
  else if d.agent == 0 then d.pairGo 1 else d).pairEval

/-- STOP of the PAIRAGENT: copying is suspended; a standby's mirror becomes stale (R258). -/
def Dev.pairStop (d : Dev) : Dev :=
  if [4, 5, 6].contains d.agent && d.pair.mirror.isSome then d.set .PAIR_EVT_stale 0 1 else d

/-! ### Applying the mirror (R242–R246, R249, R263) -/

/-- Whether two change records hold the same value's place. -/
def sameValue : Change → Change → Bool
  | .tti a l _, .tti b m _ => a == b && l == m
  | .pt a _, .pt b _ => a == b
  | .msi a _ _, .msi b _ _ => a == b
  | .aps a l _, .aps b m _ => a == b && l == m
  | .learned a _ _, .learned b _ _ => a == b
  | .freed a, .learned b _ _ => a == b
  | .flexeCal a _, .flexeCal b _ => a == b
  | _, _ => false

/-- The accepted values after one change. -/
def takeValue (vs : List Change) (c : Change) : List Change :=
  let vs := vs.filter (fun v => !sameValue c v)
  match c with
  | .freed _ => vs
  | _ => vs ++ [c]

/-- A learned entry as the active allocated or freed it (R242). -/
def Dev.takeLearned (d : Dev) : Change → Dev
  | .learned t cfg ts =>
    if d.bit .ODU_STAT_learned t && d.word .ODU_CFG t == cfg
        && (List.range 5).all (fun w => d.word .ODU_TS (t * 5 + w) == ts.getD w 0) then d
    else
      let d := if d.bit .ODU_STAT_learned t then d.learnedDrop t else d
      let k : Kind := ⟨Fld.ODU_CFG_kind.of cfg, Fld.ODU_CFG_flex_s.of cfg⟩
      let slots := (List.range 160).filter (fun b => (ts.getD (b / 32) 0).getLsbD (b % 32))
      d.learnedStart (Fld.ODU_CFG_srv_ch.of cfg) t (Fld.ODU_CFG_tpn.of cfg) k slots
  | .freed t => if d.bit .ODU_STAT_learned t then d.learnedDrop t else d
  | _ => d

/-- The groups that a mirror moves decide at their next frame boundary (R242). -/
def Dev.followSels (d : Dev) (es : List SelEntry) : Dev :=
  es.foldl (fun d e =>
    if d.running .pgroup e.g && (d.get .PRT_GRP_STAT_sel_sig e.g != e.selSig.toNat
        || d.get .PRT_GRP_STAT_br_sig e.g != e.brSig.toNat || d.get .PRT_GRP_APS_TX_aps_tx e.g != e.apsTx.toNat
        || (d.group e.g).cmd != e.cmd.toNat || (d.group e.g).cmdSig != e.cmdSig.toNat
        || d.get .PRT_GRP_STAT_req_far e.g != e.reqFar.toNat || d.bit .PRT_GRP_STAT_frozen e.g != e.frozen
        || d.get .PRT_GRP_STAT_req_local e.g != e.reqLocal.toNat) then
      d.setGroup e.g { d.group e.g with changed := true }
    else d) d

/-- The reason for which a message is discarded, in the order of R250; `after` is the epoch it must exceed. One without a
trailer is incomplete. -/
def discardReason (b : List Byte) (alive : Bool) (kind : Nat) (after : Option Nat) : Nat :=
  let n := b.length - 16
  if b.length < 80 then 1
  else if !hcrcOk b || !trailerOk b then 2
  else if !alive || leField b n 8 != leField b 4 8 || byteAt b (n + 8) != byteAt b 3 then 3
  else if (match after with | some e => decide (leField b 4 8 ≤ e) | none => false) then 4
  else if !formOk b kind then 5
  else 0

/-- The final EPOCH of a yielding partner, applied with ARB_REQ = 1 (R258). -/
def Dev.finalApplied (d : Dev) (final : Bool) : Dev :=
  if final && d.bit .PAIR_STAT_arb_req 0 && [4, 5, 6].contains d.agent then d.takeOver 2 else d

/-- The resync-required flag of an EPOCH header, heard in WARM or STALE with the baton up: SYNC (R245, R258). -/
def Dev.resyncAsked (d : Dev) (h : BatonHeader) : Dev :=
  if (d.agent == 5 || d.agent == 6) && h.resyncReq && d.bit .PAIR_STAT_baton_up 0 then (d.pairGo 4).pairEval else d

/-- What an applied EPOCH does to the agent's state (R245, R258, R263). -/
def Dev.epochMoves (d : Dev) (h : BatonHeader) (prev : Nat) : Dev :=
  let a := d.agent
  if (a == 5 || a == 6) && h.resyncReq && d.bit .PAIR_STAT_baton_up 0 then d.pairGo 4
  else if a == 4 && d.pair.snapOk && decide (d.pair.snapCut < h.epoch.toNat) then d.pairGo 5
  else if a == 6 && h.ackEpoch.toNat == prev then d.pairGo 5
  else d

/-- A valid EPOCH swapped to the front (R243–R246); one whose change set is based on a snapshot that is not yet whole has that
set applied after the parts (R263). The outputs of a standby take the words of the epoch (R261). -/
def Dev.applyEpoch (d : Dev) (m : BatonMsg) : Dev :=
  let e := m.hdr.epoch.toNat
  let old := d.pair.mirror
  let prev := d.pair.lastApplied
  let useChanges := d.agent != 4 || d.pair.snapOk
  let d := if useChanges then m.changes.foldl (fun d c => d.takeLearned c) d
    else if d.get .PAIR_SYNC_STAT_parts_rx 0 != 0 && m.hdr.ackEpoch.toNat == d.pair.snapCut then
      d.onPair (fun p => { p with snapLater := m.changes })
    else d
  let base := if d.agent == 4 && d.pair.snapOk then d.pair.snapGot else (old.map (·.values)).getD []
  let matched := m.hdr.cfgCrc == d.word .CHK_DIGEST 0
  let mirror : Mirror :=
    { epoch := e, cut := m.hdr.cutDtime.toNat, sels := m.sels, fails := m.fails, filts := m.filts
      values := if useChanges then m.changes.foldl takeValue base else base
      pm := if m.pm.isEmpty then (old.map (·.pm)).getD [] else m.pm
      matched := matched }
  let d := d.onPair (fun p => { p with mirror := some mirror, lastApplied := e, suspended := false })
  let d := ((d.bump .PAIR_CNT_APPL_appl_cnt 0 1).setWord .PAIR_EPOCH_APPL 0 (BitVec.ofNat 32 e)).set .PAIR_MSG_LEN_len 0
    m.hdr.length.toNat
  let d := if !matched && (old.map (·.matched)).getD true then (d.set .PAIR_EVT_cfg_mismatch 0 1).raise 0x0A0C 0 else d
  ((((d.driveMirror m.filts).followSels m.sels).epochMoves m.hdr prev).finalApplied m.hdr.final).pairEval

/-- EPOCH_RECEIVED (R243, R250): heartbeat, discard, suspension (R258), or application. -/
def Dev.epochReceived (d : Dev) (b : List Byte) : Dev :=
  if !d.batonReady then d
  else
    let (d, alive) := d.msgHeader b
    if ! [4, 5, 6].contains d.agent || d.ownMsg b then d
    else
      let m := BatonMsg.read b
      match discardReason b alive 1 (some d.pair.lastApplied) with
      | 0 =>
        if m.hdr.suspended then
          let d := if d.pair.suspended || d.pair.mirror.isNone then d else d.set .PAIR_EVT_stale 0 1
          (d.onPair (fun p => { p with suspended := true })).resyncAsked m.hdr
        else if !d.copying then d
        else d.applyEpoch m
      | r => d.discard r 1

def execEpochReceived (bytes : List Byte) (s : State) : Host.Outcome State Fault Refusal :=
  .next (s.onDev (·.epochReceived bytes))

/-- The last part is verified: the learned entries become those of the snapshot and of the change set received since (R242,
R263). -/
def Dev.snapDone (d : Dev) : Dev :=
  let got := d.pair.snapLater.foldl takeValue d.pair.snapGot
  let gone := (d.listed .ODU_STAT).filter (fun t =>
    d.bit .ODU_STAT_learned t && !got.any (fun c => match c with | .learned u _ _ => u == t | _ => false))
  let d := gone.foldl (fun d t => d.learnedDrop t) d
  (got.foldl (fun d c => d.takeLearned c) d).onPair (fun p => { p with snapGot := got, snapLater := [], snapOk := true })

/-- A verified SNAP part: parts count in order from 0; another order begins again. -/
def Dev.snapPart (d : Dev) (m : BatonMsg) : Dev :=
  let k := m.hdr.part.toNat
  let e := m.hdr.epoch.toNat
  let d := if k = 0 then d.snapRestart.onPair (fun p => { p with snapCut := e }) else d
  if k ≠ d.get .PAIR_SYNC_STAT_parts_rx 0 || e ≠ d.pair.snapCut then d.snapRestart
  else
    let d := d.onPair (fun p => { p with snapGot := m.changes.foldl takeValue p.snapGot })
    let d := (d.set .PAIR_SYNC_STAT_parts_rx 0 (k + 1)).set .PAIR_SYNC_STAT_parts_total 0 m.hdr.parts.toNat
    if m.hdr.parts.toNat ≤ k + 1 then d.snapDone else d

/-- SNAP_RECEIVED (R250, R263). -/
def Dev.snapReceived (d : Dev) (b : List Byte) : Dev :=
  if !d.batonReady then d
  else
    let (d, alive) := d.msgHeader b
    if ! [4, 5, 6].contains d.agent || d.ownMsg b then d
    else
      match discardReason b alive 2 none with
      | 0 => if d.agent == 4 && !d.pair.snapOk && d.copying then d.snapPart (BatonMsg.read b) else d
      | r => (if d.pair.snapOk then d else d.snapRestart).discard r 2

def execSnapReceived (bytes : List Byte) (s : State) : Host.Outcome State Fault Refusal :=
  .next (s.onDev (·.snapReceived bytes))

/-- ACK_RECEIVED (R245, R251, R263): an active takes the acknowledged epoch; an ACK 0 from SYNC asks for a snapshot unless
one is running or has just ended. -/
def Dev.ackReceived (d : Dev) (b : List Byte) : Dev :=
  if !d.batonReady then d
  else
    let (d, alive) := d.msgHeader b
    if !d.agentOwns || d.ownMsg b || discardReason b alive 3 none ≠ 0 then d
    else
      let h := BatonHeader.read b
      let a := h.ackEpoch.toNat
      let d := d.onPair (fun p => { p with ackEpoch := a })
      let d := (d.setWord .PAIR_EPOCH_ACK 0 (BitVec.ofNat 32 a)).rebase
      if a = 0 && h.role == 4 && d.pair.snapOut.isEmpty && !d.pair.snapReq && d.pair.snapHold = 0 then
        d.onPair (fun p => { p with snapReq := true })
      else d

def execAckReceived (bytes : List Byte) (s : State) : Host.Outcome State Fault Refusal :=
  .next (s.onDev (·.ackReceived bytes))

/-! ### The copy epoch boundary (R243, R258) -/

/-- Epochs without an owning partner, or in YIELDING, are counted. -/
def Dev.countEpoch (d : Dev) : Dev :=
  d.onPair (fun p => { p with
    absentEpochs := if p.ownerHeard && d.agent != 3 then 0 else p.absentEpochs + 1
    ownerHeard := false })

/-- The baton has been down for one further epoch while the pacer has stayed up: STALE (R258). -/
def Dev.staleStep (d : Dev) : Dev :=
  match d.pair.staleWait with
  | none => d
  | some n =>
    let up := d.bit .PAIR_STAT_pacer_up 0
    let d := d.onPair (fun p => { p with staleWait := some (if up then n + 1 else 0) })
    if up && 1 ≤ n && (d.agent == 4 || d.agent == 5) then d.pairGo 6 else d

/-- COPY_EPOCH (R243): a message still awaited is incomplete (R250); epochs are counted; then the pacer frame, and on the
baton EPOCH and SNAP, or ACK. -/
def Dev.copyEpoch (d : Dev) : Dev :=
  let e := d.epoch
  let d := (d.dropAwaited.countEpoch.staleStep.onPair (fun p => { p with txBaton := [] })).pairEval
  let d := d.sendPacer
  if d.agentOwns then (d.sendEpoch e).sendSnap e else if d.standby then d.sendAck e else d

def execCopyEpoch (s : State) : Host.Outcome State Fault Refusal := .next (s.onDev (·.copyEpoch))

end Sys2Proof.Machine
end

