-- ==== Sys2Proof/Machine/Access.lean ====
section
/-!
DEFINITION. Where a register or window lies: the register at a BAR0 offset (R13, R14), the matrix target that holds it
(R285), and the power domain of its part (R384).
-/
namespace Sys2Proof.Machine

/-- The array index at a byte distance from a register's base, where one of its words lies there. -/
def dimIdx : List (Nat × Nat) → Nat → Option Nat
  | [], rel => if rel = 0 then some 0 else none
  | (n, st) :: rest, rel =>
    let i := rel / st
    if i < n then (dimIdx rest (rel % st)).map (fun j => i * (rest.map (·.1)).foldl (· * ·) 1 + j) else none

/-- The index of the word of register r at a BAR0 offset. -/
def Reg.at (r : Reg) (off : Nat) : Option Nat := if off < r.info.base then none else dimIdx r.info.dims (off - r.info.base)

/-- The register word at a BAR0 offset. -/
def regAt (off : Nat) : Option (Reg × Nat) := Reg.all.findSome? (fun r => (r.at off).map (fun i => (r, i)))

/-- The matrix target of a BAR0 offset (R285); none where the host port itself answers. -/
def busTarget (off : Nat) : Option Nat :=
  if off < 0x80000 then some 3
  else if off < 0x100000 then some 7
  else if off < 0x200000 then none
  else if off < 0x500000 then some 3
  else if off < 0x600000 then some 4
  else if off < 0x700000 then some 9
  else if off < 0x800000 then some 6
  else if off < 0xA00000 then some 3
  else if 0x1000000 ≤ off && off < 0x1C00000 then (if off % 0x10000 / 0x1000 = 4 then some 5 else some 0)
  else if 0x1C00000 ≤ off && off < 0x2000000 then some 2
  else if 0x2000000 ≤ off && off < 0x2C00000 then (if 0xE00 ≤ off % 0x1000 then some 5 else some 1)
  else if 0x2C00000 ≤ off && off < 0x2D00000 then some 2
  else none

/-- The power domain in which word i of a register with PD state lies (R384). -/
def Dev.pdOf (d : Dev) (m : PdMap) (r : Reg) (i : Nat) : Nat :=
  let k := i / r.per 1
  match m with
  | .q => domQuad (k / 4)
  | .s => domSlice (k / 24)
  | .hs => domSlice (k / 2)
  | .t => domSlice (sliceOf (d.carrier k))
  | .sp => domSlice k
  | .s8 => domSlice k
  | .s3840 => domSlice k
  | .s1 => domSlice k
  | .port => domSlice (if k < 3072 then sliceOf (d.carrier k) else sliceOf (k - 3072))
  | .f => domFilt (ctxArray k)
  | .g => domSite k
  | .scan => domScan
  | .recEng => domRecEng
  | .capt => domCapt

/-- The power domain that holds word i of register r, if it is not in the always-on region. -/
def Dev.wordDom (d : Dev) (r : Reg) (i : Nat) : Option Nat :=
  match r.info.dom with
  | .pd m => some (d.pdOf m r i)
  | _ => none

/-- Whether word i of register r lies in a domain that is off: an access completes DOWN (R297). -/
def Dev.wordDown (d : Dev) (r : Reg) (i : Nat) : Bool :=
  match d.wordDom r i with
  | some x => !d.pdOn x
  | none => false

/-- Internal addresses (R285): target and offset. -/
def addrTarget (a : BitVec 44) : Nat := a.toNat / 2 ^ 40
def addrOff (a : BitVec 44) : Nat := a.toNat % 2 ^ 40

/-- Bytes of a target's RAM window (R284). -/
def ramWindow : Nat → Nat
  | 4 => 2 ^ 38 | 5 => 2 ^ 24 | 6 => 2 ^ 23 | 8 => 2 ^ 21 | _ => 0

/-- Whether T7 decodes an offset (R286, R298). -/
def Dev.periphHit (d : Dev) (o : Nat) : Bool :=
  if 2 ^ 39 ≤ o then o - 2 ^ 39 < min d.boot.flashSize (2 ^ 28)
  else (0x80000 ≤ o && o < 0x100000) || (0x10000000 ≤ o && o < 0x10040000)

/-- Whether the layered bridge decodes an address (R298). -/
def Dev.bridgeHit (d : Dev) (a : BitVec 44) : Bool :=
  let t := addrTarget a
  let o := addrOff a
  if t = 7 then d.periphHit o
  else if 10 ≤ t then false
  else if 2 ^ 39 ≤ o then o - 2 ^ 39 < ramWindow t
  else busTarget o == some t && (regAt o).isSome

/-- The domain of the part of a target that an address reaches, if it is not in the always-on region. No domain of R384
holds the staging SRAM of T6. -/
def Dev.addrDom (d : Dev) (a : BitVec 44) : Option Nat :=
  let t := addrTarget a
  let o := addrOff a
  if 2 ^ 39 ≤ o then (if t = 4 then some (domSite (ptrSite ((o - 2 ^ 39) / 512))) else none)
  else if busTarget o == some t then
    match regAt o with
    | some (r, i) => d.wordDom r i
    | none => none
  else none

end Sys2Proof.Machine
end

