-- ==== Sys2Proof/Machine/Matrix.lean ====
section
/-!
DEFINITION. The control matrix (chapter 12): routing and modes, arbitration, hold-back, completions, decode misses, the
hang monitor, and master resets.
-/
namespace Sys2Proof.Machine

/-- A device with its matrix state changed. -/
def Dev.onMx (d : Dev) (f : MatrixSt → MatrixSt) : Dev := { d with matrix := f d.matrix }

/-! ### Connections and modes (R287–R289) -/

/-- The targets that a master reaches over fast-layer paths (R287). -/
def mxTargets : Nat → List Nat
  | 0 => [0, 1, 2, 3, 4, 5, 6, 7, 9]
  | 1 => [3, 7]
  | 2 => [0, 1, 2, 3, 4, 5, 6, 8]
  | 3 => [3, 4, 5, 6, 7]
  | 4 => [0, 1, 2, 3, 5, 9]
  | 5 => [0, 1, 2, 3, 4, 5, 6, 8]
  | 6 => [0, 1, 2, 3, 4, 5, 6, 8]
  | 7 => [0, 3, 4, 6]
  | 8 => [3, 5, 6]
  | 9 => [1, 2, 3]
  | _ => []

/-- Whether the matrix joins master m and target t directly. -/
def mxConnected (m t : Nat) : Bool := (mxTargets m).contains t

/-- LAYERED mode. -/
def Dev.mxLayered (d : Dev) : Bool := d.bit .MTX_MODE_mode 0
/-- A change to NORMAL waits for the bridge. -/
def Dev.mxBusy (d : Dev) : Bool := d.bit .MTX_MODE_mode_busy 0

/-- The power domain in which a master lies, if it is not in the always-on region (R284). -/
def mxMasterDom : Nat → Option Nat
  | 2 => some domScan | 3 => some domRecEng | 4 => some domBaton | 7 => some domCapt | 8 => some domTrace | _ => none

/-- The outstanding transactions of master m. -/
def Dev.mxOut (d : Dev) (m : Nat) : List Txn := d.matrix.txns.filter (fun x => x.master == m)

/-- The transaction that the bridge holds, if any. -/
def Dev.bridgeBusy (d : Dev) : Bool := d.matrix.txns.any (·.layered)

/-- MTX_MSTAT and MTX_STAT follow the matrix state. -/
def Dev.mxShow (d : Dev) (m : Nat) : Dev :=
  let stalled := (Table.find d.matrix.miss m).isSome
  let d := (d.set .MTX_MSTAT_outstanding m (d.mxOut m).length).setB .MTX_MSTAT_stalled m stalled
  let d := d.setB .MTX_MSTAT_held m (d.matrix.held.any (fun h => h.master == m))
  (d.set .MTX_STAT_stalled 0 (putBit (d.get .MTX_STAT_stalled 0) m stalled)).setB .MTX_STAT_bridge_busy 0 d.bridgeBusy

/-! ### Requests (R287, R290–R298) -/

/-- A completion that the matrix itself gives a request of master m: a read returns 0 in every byte (R287, R297). -/
def Dev.mxAnswer (d : Dev) (m : Nat) (r : MxReq) (st : MxStatus) : Dev :=
  d.onMx (fun s => { s with
    answers := Table.ins s.answers m ⟨r.id, st, if r.write then [] else List.replicate (32 * r.beats) 0⟩ })

/-- A request to an unconnected target: REFUSED (R287). -/
def Dev.mxRefuse (d : Dev) (m : Nat) (r : MxReq) : Dev :=
  let t := addrTarget r.addr
  (((d.bump .MTX_CNT_B_refused_cnt 0 1).set .MTX_EVT_refused 0 1).raise1 0x0C04 m (m + t * 16)).mxAnswer m r .refused

/-- A request or a transaction in flight completed DOWN or RESET (R297); a master under its domain reset takes no response
(R296). -/
def Dev.mxEnd (d : Dev) (m : Nat) (r : MxReq) (reset : Bool) : Dev :=
  let d := d.mxDown (addrTarget r.addr) reset
  if d.bit .MTX_MSTAT_rst_busy m then d else d.mxAnswer m r (if reset then .reset else .down)

/-- The transactions that a request becomes: a burst to T7 is split into single beats (R286), of the burst's ID, each
counted as a transaction of its own (DESIGN CHOICE, log entry 76). -/
def mxParts (r : MxReq) : List MxReq :=
  if addrTarget r.addr = 7 then
    (List.range r.beats).map (fun i => { r with addr := r.addr + BitVec.ofNat 44 (32 * i), beats := 1 })
  else [r]

/-- Whether a request of master m is held back (R295); the first case, a stalled master, holds everything. -/
def Dev.mxHolds (d : Dev) (m : Nat) (r : MxReq) : Bool :=
  let t := addrTarget r.addr
  let lay := !mxConnected m t
  let out := d.mxOut m
  (Table.find d.matrix.miss m).isSome || decide (16 < out.length + (mxParts r).length)
    || out.any (fun x => x.req.id == r.id && (x.target != t || x.layered != lay)) || !r.ready
    || (lay && (d.mxBusy || d.bridgeBusy || (t == 7 && d.matrix.txns.any (fun x => x.target == 7 && !x.layered))))

/-- A decode miss stalls its requester in its miss slot (R298): event 0x0C03. -/
def Dev.mxMiss (d : Dev) (m : Nat) (x : Txn) : Dev :=
  let d := d.onMx (fun s => { s with miss := Table.ins s.miss m x })
  (((d.bump .MTX_CNT_A_miss_cnt 0 1).set .MTX_EVT_miss 0 1).raise 0x0C03 (m + x.target * 16 + bitNat x.layered * 256)).mxShow m

/-- One transaction issued: decoded, completed DOWN, or outstanding. An idle target parked on the master grants it at once
(R291); the bridge holds one transaction, and the next beat of a split burst after it (R288). Nothing follows a miss. -/
def Dev.mxIssueOne (d : Dev) (m : Nat) (r : MxReq) : Dev :=
  let t := addrTarget r.addr
  let lay := !mxConnected m t
  let x : Txn :=
    { master := m, req := r, target := t, layered := lay, issuedAt := d.dtime, tick := d.ticks, granted := false, hung := false
      grantTick := d.ticks, passed := 0 }
  let miss := if lay then !d.bridgeHit r.addr else t == 7 && !d.periphHit (addrOff r.addr)
  let down := match d.addrDom r.addr with | some p => !d.pdOn p | none => false
  if (Table.find d.matrix.miss m).isSome then d
  else if miss then d.mxMiss m x
  else if down then d.mxEnd m r false
  else
    let idle := !d.matrix.txns.any (fun y => y.target == t && !y.layered)
    let now := if lay then !d.bridgeBusy else idle && Table.find d.matrix.parked t == some m
    d.onMx (fun s => { s with
      txns := s.txns ++ [{ x with granted := now }]
      lastGrant := if now then Table.ins s.lastGrant (if lay then 10 else t) m else s.lastGrant })

/-- A request issued (R286, R295). -/
def Dev.mxIssue (d : Dev) (m : Nat) (r : MxReq) : Dev := ((mxParts r).foldl (fun d p => d.mxIssueOne m p) d).mxShow m

/-- Whether a held request is for the layered bridge. -/
def Held.layered (h : Held) : Bool := !mxConnected h.master (addrTarget h.req.addr)

/-- The held requests that wait for the layered bridge alone, in order of arrival (R288). -/
def Dev.bridgeQueue (d : Dev) : List Held := d.matrix.held.filter (fun h => h.layered && !d.mxHolds h.master h.req)

/-- Whether a request of master m is held back on its arrival: by a case of R295, or behind bridge requests that arrived
before it (R288). -/
def Dev.mxHeldBack (d : Dev) (m : Nat) (r : MxReq) : Bool :=
  d.mxHolds m r || (!mxConnected m (addrTarget r.addr) && !d.bridgeQueue.isEmpty)

/-- MATRIX_REQUEST (R287, R288, R295): refused, held back in the master's port, or issued. A master in reset or without
power issues nothing. -/
def Dev.mxRequest (d : Dev) (m : Nat) (r : MxReq) : Dev :=
  let off := match mxMasterDom m with | some p => !d.pdOn p | none => false
  if d.bit .MTX_MSTAT_rst_busy m || off then d
  else if (Table.find d.matrix.miss m).isNone && !mxConnected m (addrTarget r.addr) && !d.mxLayered then d.mxRefuse m r
  else if d.mxHeldBack m r then
    let d := d.onMx (fun s => { s with held := s.held ++ [⟨m, r, d.ticks⟩] })
    (d.bump .MTX_CNT_C_hold_cnt 0 1).mxShow m
  else d.mxIssue m r

def execMatrixRequest (m : MMaster) (r : MxReq) (s : State) : Host.Outcome State Fault Refusal :=
  .next (s.onDev (·.mxRequest m.val r))

/-! ### Arbitration (R290, R291) -/

/-- The priority of master m at target t. -/
def Dev.mxPrio (d : Dev) (t m : Nat) : Nat :=
  if m < 8 then d.get ⟨.MTX_PRIO_LO, 4 * m, 4⟩ t else d.get ⟨.MTX_PRIO_HI, 4 * (m - 8), 4⟩ t

/-- Consecutive arbitrations that master m has lost at target t. -/
def Dev.mxLost (d : Dev) (t m : Nat) : Nat := Table.get d.matrix.lost (16 * t + m) 0

/-- The masters in round-robin order after the one last granted at target t; before any grant, from M0 (DESIGN CHOICE, log
entry 76). -/
def Dev.mxRound (d : Dev) (t : Nat) : List Nat :=
  let last := Table.get d.matrix.lastGrant t 9
  (List.range 10).map (fun i => (last + 1 + i) % 10)

/-- The masters with a request waiting for target t, in round-robin order. -/
def Dev.mxWaiting (d : Dev) (t : Nat) : List Nat :=
  (d.mxRound t).filter (fun m => d.matrix.txns.any (fun x => x.target == t && x.master == m && !x.layered && !x.granted))

/-- The winner among masters in round-robin order: one that has lost 64 times at target t, else the first of the highest
priority. -/
def Dev.mxPick (d : Dev) (t : Nat) (prio : Nat → Nat) (ws : List Nat) : Option Nat :=
  match ws.find? (fun m => decide (64 ≤ d.mxLost t m)) with
  | some m => some m
  | none => ws.find? (fun m => ws.all (fun n => decide (prio n ≤ prio m)))

/-- The winner at target t. -/
def Dev.mxWinner (d : Dev) (t : Nat) : Option Nat := d.mxPick t (d.mxPrio t) (d.mxWaiting t)

/-- The losses at target t after an arbitration among ws that m wins. -/
def MatrixSt.lose (s : MatrixSt) (t m : Nat) (ws : List Nat) : Table Nat :=
  ws.foldl (fun l n => Table.put l (16 * t + n) (if n = m then 0 else Table.get l (16 * t + n) 0 + 1) 0) s.lost

/-- The oldest waiting request of master m at target t is granted, at clk_tm tick k. -/
def grantFirst (m t k : Nat) : List Txn → List Txn
  | [] => []
  | x :: r =>
    if x.master = m && x.target = t && !x.layered && !x.granted then { x with granted := true, grantTick := k } :: r
    else x :: grantFirst m t k r

/-- Whether beats of a granted burst have still to pass (R292). -/
def Txn.passing (x : Txn) : Bool := x.granted && decide (x.passed < x.req.beats)

/-- The beats that can have passed since the grant: one per clk_mx cycle on a fast-layer path, one per 8 clk_pb cycles over
the bridge (R26, R288). A clk_tm tick is 25/8 clk_mx cycles (R373). -/
def Txn.beatsBy (x : Txn) (now : Nat) : Nat :=
  min x.req.beats (25 * (now - x.grantTick + 1) / (if x.layered then 256 else 8))

/-- The beats of a burst that have passed by now: no fewer than were known, no more than the path carries; how many the
target took is its own affair, and a free value (log entry 2). -/
def Dev.beatsNow (d : Dev) (x : Txn) : Txn × Dev :=
  if x.passing then
    let (w, d) := d.draw
    ({ x with passed := x.passed + w.toNat % (x.beatsBy d.ticks - x.passed + 1) }, d)
  else (x, d)

/-- Of a list of transactions, those with p brought up to the beats that have passed. -/
def Dev.passBeats (p : Txn → Bool) : List Txn → Dev → List Txn × Dev
  | [], d => ([], d)
  | x :: r, d =>
    let (x, d) := if p x then d.beatsNow x else (x, d)
    let (r, d) := Dev.passBeats p r d
    (x :: r, d)

/-- The beats that have passed on the path to target t. -/
def Dev.pathBeats (d : Dev) (t : Nat) : Dev :=
  let (l, d) := Dev.passBeats (fun x => x.target == t && !x.layered) d.matrix.txns d
  d.onMx (fun s => { s with txns := l })

/-- Whether a granted burst still holds the path to target t (R292). -/
def Dev.pathHeld (d : Dev) (t : Nat) : Bool := d.matrix.txns.any (fun x => x.target == t && !x.layered && x.passing)

/-- TARGET_ARBITRATION: no grant while the path is held. -/
def Dev.mxArbitrate (d : Dev) (t : Nat) : Dev :=
  let d := d.pathBeats t
  if d.pathHeld t then d
  else match d.mxWinner t with
  | none => d
  | some m =>
    d.onMx (fun s => { s with
      txns := grantFirst m t d.ticks s.txns, lost := s.lose t m (d.mxWaiting t)
      lastGrant := Table.ins s.lastGrant t m, parked := Table.ins s.parked t m })

def execTargetArbitration (t : MTarget) (s : State) : Host.Outcome State Fault Refusal :=
  .next (s.onDev (·.mxArbitrate t.val))

/-! ### Held requests (R288, R290, R295) -/

/-- A held request with its beats buffered, or its room reserved (R293). -/
def mxFilled (r : MxReq) : MxReq := { r with ready := true }

/-- The requests for which the layered bridge arbitrates: those that arrived first of the ones that wait for it (R288, R290;
DEDUCED, log entry 77). -/
def Dev.bridgeFront (d : Dev) : List Held :=
  match d.bridgeQueue with
  | [] => []
  | h :: r => h :: r.filter (fun g => g.at_ == h.at_)

/-- The masters of these requests, in round-robin order. -/
def Dev.bridgeWaiting (d : Dev) : List Nat := (d.mxRound 10).filter (fun n => d.bridgeFront.any (fun h => h.master == n))

/-- Master n's oldest request among them, and the priority of its pair; a pair of targets 10 to 15 has priority 8 (log
entry 77). -/
def Dev.bridgeReq (d : Dev) (n : Nat) : Option Held := d.bridgeFront.find? (fun h => h.master == n)

def Dev.bridgePrio (d : Dev) (n : Nat) : Nat :=
  match d.bridgeReq n with
  | some h => if addrTarget h.req.addr < 10 then d.mxPrio (addrTarget h.req.addr) n else 8
  | none => 0

/-- A held request leaves its port. -/
def Dev.mxUnhold (d : Dev) (h : Held) : Dev :=
  (d.onMx (fun s => { s with held := s.held.erase h })).mxIssue h.master h.req

/-- The layered bridge arbitrates (R290) and takes the winner's request. -/
def Dev.bridgeTake (d : Dev) : Dev :=
  let ws := d.bridgeWaiting
  match d.mxPick 10 d.bridgePrio ws with
  | none => d
  | some n => match d.bridgeReq n with
    | none => d
    | some h => (d.onMx (fun s => { s with lost := s.lose 10 n ws })).mxUnhold h

/-- The oldest held request of master m that nothing but its buffering or room holds (R293). -/
def Dev.mxNext (d : Dev) (m : Nat) : Option Held :=
  d.matrix.held.find? (fun h => h.master == m && !d.mxHolds m (mxFilled h.req))

/-- HELD_REQUEST_ISSUE (R295): buffering or room is there for the oldest request of the master that nothing else holds. One
of the fast layer is issued; for the layered bridge, the bridge arbitrates among the requests that wait for it. -/
def Dev.mxRelease (d : Dev) (m : Nat) : Dev :=
  match d.mxNext m with
  | none => d
  | some h =>
    let g := { h with req := mxFilled h.req }
    let d := d.onMx (fun s => { s with held := s.held.replace h g })
    if g.layered then d.bridgeTake else d.mxUnhold g

def execHeldRequestIssue (m : MMaster) (s : State) : Host.Outcome State Fault Refusal := .next (s.onDev (·.mxRelease m.val))

/-! ### Completion (R294, R296, R297) -/

/-- The list without its first element that satisfies p. -/
def dropFirst (p : Txn → Bool) : List Txn → List Txn
  | [] => []
  | x :: r => if p x then r else x :: dropFirst p r

/-- The bridge, when it holds no transaction, takes the next beat of a burst split for T7 (R286, R288). -/
def bridgeNext (k : Nat) : List Txn → List Txn
  | [] => []
  | x :: r =>
    if x.layered then (if x.granted then x else { x with granted := true, grantTick := k }) :: r else x :: bridgeNext k r

/-- rst_busy of master m clears when its last transaction has ended (R296). -/
def Dev.mxResetEnd (d : Dev) (m : Nat) : Dev := if (d.mxOut m).isEmpty then d.set .MTX_MSTAT_rst_busy m 0 else d

/-- TRANSACTION_COMPLETE: the oldest transaction of the id, if its target has granted it. -/
def Dev.mxComplete (d : Dev) (m : Nat) (id : BitVec 4) : Dev :=
  let p := fun (x : Txn) => x.master == m && x.req.id == id
  match d.matrix.txns.find? p with
  | some x =>
    if x.granted then ((d.onMx (fun s => { s with txns := bridgeNext d.ticks (dropFirst p s.txns) })).mxShow m).mxResetEnd m else d
  | none => d

def execTransactionComplete (m : MMaster) (id : BitVec 4) (s : State) : Host.Outcome State Fault Refusal :=
  .next (s.onDev (·.mxComplete m.val id))

/-- The transactions in flight to domain x complete RESET (R297). -/
def Dev.mxDomainReset (d : Dev) (x : Nat) : Dev :=
  let hit := d.matrix.txns.filter (fun y => d.addrDom y.req.addr == some x)
  let d := d.onMx (fun s => { s with txns := bridgeNext d.ticks (s.txns.filter (fun y => !hit.contains y)) })
  hit.foldl (fun d y => ((d.mxEnd y.master y.req true).mxShow y.master).mxResetEnd y.master) d

/-! ### Mode changes (R289) -/

/-- The mode in force changes: event 0x0C05 and the ready bit of R361. -/
def Dev.mxMode (d : Dev) (layered : Bool) : Dev :=
  (((d.setB .MTX_MODE_mode 0 layered).set .MTX_EVT_mode_chg 0 1).raise 0x0C05 (bitNat layered)).readyFn 10 (!layered)

/-- mode_req = 1: LAYERED from the next cycle; a change to NORMAL that still waits is given up. -/
def Dev.mxToLayered (d : Dev) : Dev :=
  let d := (d.set .MTX_MODE_mode_req 0 1).set .MTX_MODE_mode_busy 0 0
  if d.mxLayered then d else d.mxMode true

def execModeToLayered (s : State) : Host.Outcome State Fault Refusal := .next (s.onDev (·.mxToLayered))

/-- mode_req = 0: the bridge admits no more, and the change waits for it. -/
def Dev.mxToNormal (d : Dev) : Dev :=
  let d := d.set .MTX_MODE_mode_req 0 0
  if d.mxLayered && !d.mxBusy then (d.onMx (fun s => { s with modeSince := d.ticks })).set .MTX_MODE_mode_busy 0 1
  else d

def execModeToNormal (s : State) : Host.Outcome State Fault Refusal := .next (s.onDev (·.mxToNormal))

/-- NORMAL_SWITCH: the bridge holds no transaction; held bridge requests complete REFUSED. -/
def Dev.mxNormal (d : Dev) : Dev :=
  if d.mxBusy && !d.bridgeBusy then
    let gone := d.matrix.held.filter (fun h => h.layered && (Table.find d.matrix.miss h.master).isNone)
    let d := d.onMx (fun s => { s with held := s.held.filter (fun h => !gone.contains h) })
    let d := gone.foldl (fun d h => (d.mxRefuse h.master h.req).mxShow h.master) d
    (d.set .MTX_MODE_mode_busy 0 0).mxMode false
  else d

def execNormalSwitch (s : State) : Host.Outcome State Fault Refusal := .next (s.onDev (·.mxNormal))

/-- Whether hang_lim clk_mx cycles have passed since a clk_tm tick: 25 cycles take 8 ticks (R373); values below 1,024 act
as 1,024 (R300). -/
def Dev.hangReached (d : Dev) (t : Nat) : Bool :=
  decide (8 * max (d.get .MTX_HANG_LIM_hang_lim 0) 1024 ≤ 25 * (d.ticks - t))

/-- MODE_CHANGE_REFUSED: the bridge is still occupied after hang_lim cycles. -/
def Dev.mxModeRefused (d : Dev) : Dev :=
  if d.mxBusy && d.bridgeBusy && d.hangReached d.matrix.modeSince then
    ((((d.set .MTX_MODE_mode_busy 0 0).set .MTX_MODE_mode_req 0 1).set .MTX_EVT_mode_chg 0 1)).raise 0x0C06 0
  else d

def execModeChangeRefused (s : State) : Host.Outcome State Fault Refusal := .next (s.onDev (·.mxModeRefused))

/-! ### Hangs (R299) -/

/-- A transaction recorded as hung: the record where none is held, the count, event 0x0C01, hang_recent and its DTIME. -/
def Dev.mxHang (d : Dev) (x : Txn) (slow : Bool) : Dev :=
  let d := if d.bit .MTX_HANG_REC_rec_valid 0 then d
    else
      let w := 1 + bitNat slow * 2 + bitNat x.req.write * 4 + bitNat x.layered * 8 + x.master * 16 + x.target * 256
        + x.req.id.toNat * 4096 + x.req.beats * 65536
      let d := d.setWord .MTX_HANG_REC 0 (BitVec.ofNat 32 w)
      let d := (d.setWord .MTX_HANG_ADDR_LO 0 (BitVec.ofNat 32 x.req.addr.toNat)).setWord .MTX_HANG_ADDR_HI 0
        (BitVec.ofNat 32 (x.req.addr.toNat / 2 ^ 32))
      d.setWord .MTX_HANG_DTIME 0 (BitVec.ofNat 32 x.issuedAt.toNat)
  let d := (d.bump .MTX_CNT_A_hang_cnt 0 1).set .MTX_EVT_hang 0 1
  let d := d.raise 0x0C01 (x.master + x.target * 16 + bitNat slow * 256)
  (d.onMx (fun s => { s with hangAt := some d.dtime.toNat })).set .MTX_STAT_hang_recent 0 1

/-- rec_valid written 1: the record is cleared (R299, R300). -/
def Dev.mxHangRelease (d : Dev) : Dev :=
  (((d.setWord .MTX_HANG_REC 0 0).setWord .MTX_HANG_ADDR_LO 0 0).setWord .MTX_HANG_ADDR_HI 0 0).setWord .MTX_HANG_DTIME 0 0

/-- The first transaction with p is marked as recorded. -/
def markHung (p : Txn → Bool) : List Txn → List Txn
  | [] => []
  | x :: r => if p x then { x with hung := true } :: r else x :: markHung p r

/-- The outstanding transactions of the id: the oldest not yet recorded, when it has reached hang_lim. -/
def Dev.mxHangOut (d : Dev) (m : Nat) (id : BitVec 4) : Dev :=
  let p := fun (x : Txn) => x.master == m && x.req.id == id && !x.hung && d.hangReached x.tick
  match d.matrix.txns.find? p with
  | some x => (d.onMx (fun s => { s with txns := markHung p s.txns })).mxHang x true
  | none => d

/-- HANG_DETECT: a stalled or outstanding transaction of the id, once each. -/
def Dev.mxHangDetect (d : Dev) (m : Nat) (id : BitVec 4) : Dev :=
  match Table.find d.matrix.miss m with
  | some x =>
    if x.req.id == id && !x.hung && d.hangReached x.tick then
      (d.onMx (fun s => { s with miss := Table.ins s.miss m { x with hung := true } })).mxHang x false
    else d.mxHangOut m id
  | none => d.mxHangOut m id

def execHangDetect (m : MMaster) (id : BitVec 4) (s : State) : Host.Outcome State Fault Refusal :=
  .next (s.onDev (·.mxHangDetect m.val id))

/-- HANG_RECENT_CLEAR: 10^9 ns of DTIME after the latest hang (R299). -/
def Dev.mxHangClear (d : Dev) : Dev :=
  if timeUp d.matrix.hangAt d.dtime.toNat (10 ^ 9) then d.set .MTX_STAT_hang_recent 0 0 else d

def execHangRecentClear (s : State) : Host.Outcome State Fault Refusal := .next (s.onDev (·.mxHangClear))

/-! ### Master reset (R296) -/

/-- A burst finished for its master under reset: event 0x0C07 where beats were still to pass. -/
def Dev.mxFinish (d : Dev) (x : Txn) : Dev :=
  let left := x.req.beats - x.passed
  if left = 0 then d
  else ((d.bump .MTX_CNT_C_rstburst_cnt 0 1).set .MTX_EVT_rst_burst 0 1).raise 0x0C07 (x.master + x.target * 16 + left * 256)

/-- A master's domain reset: bursts finish masked, held and stalled requests drop, targets unpark. -/
def Dev.masterReset (d : Dev) (m : Nat) : Dev :=
  let stalled := (Table.find d.matrix.miss m).isSome
  let (txns, d) := Dev.passBeats (fun x => x.master == m) d.matrix.txns d
  let d := d.onMx (fun s => { s with txns := txns })
  let out := d.mxOut m
  let d := d.onMx (fun s => { s with
    held := s.held.filter (fun h => h.master != m), miss := Table.del s.miss m, parked := s.parked.filter (fun e => e.2 != m)
    lost := s.lost.filter (fun e => e.1 % 16 != m) })
  let d := out.foldl (fun d x => d.mxFinish x) d
  let d := if stalled then (d.set .MTX_EVT_released 0 1).raise 0x0C02 m else d
  (d.setB .MTX_MSTAT_rst_busy m (!out.isEmpty)).mxShow m

/-- MASTER_RESET: M1 has no domain reset but SYS_RST_L (R284). -/
def execMasterReset (m : MMaster) (s : State) : Host.Outcome State Fault Refusal :=
  .next (if m.val = 1 then s else s.onDev (·.masterReset m.val))

end Sys2Proof.Machine
end

