-- ==== Sys2Proof/Machine/RingWire.lean ====
section
/-!
DEFINITION. The bytes of the recorder ring: anchor header and index entries (R306), segment headers, pages and trailers
(R307), and what is read from them (R309, R310).
-/
namespace Sys2Proof.Machine

/-! ### Anchors and index entries (R306) -/

/-- The first 60 bytes of a block, filled with zeros, and their CRC. -/
def block64 (bs : List Byte) : List Byte := sealed ((bs ++ List.replicate 60 0).take 60)

/-- Whether the first 64 bytes of a block carry a magic, version 1 and their CRC. -/
def block64Ok (magic : Nat) (bs : List Byte) : Bool := sealedOk (bs.take 64) && decide (64 ≤ bs.length) && leField bs 0 4 == magic

/-- An index entry: seg_seq[47:0], state, alive, first and last DTIME second. -/
def IdxEntry.bytes (e : IdxEntry) : List Byte :=
  leBytes 6 e.seq ++ [BitVec.ofNat 8 e.st, e.alive] ++ leBytes 4 e.first ++ leBytes 4 e.last

def IdxEntry.read (b : List Byte) : IdxEntry :=
  ⟨leField b 0 6, (byteAt b 6).toNat, byteAt b 7, leField b 8 4, leField b 12 4⟩

/-- Entry j of the index blocks of an anchor area: entry j mod 256 of block j div 256. -/
def idxOf (blocks : List (List Byte)) (j : Nat) : IdxEntry :=
  IdxEntry.read (((blocks.getD (j / 256) []).drop (j % 256 * 16)).take 16)

/-- The index block that holds the entry of slot j. -/
def RecSt.idxBlock (s : RecSt) (j : Nat) : List Byte :=
  (List.range 256).flatMap (fun i => (Table.get s.index (j / 256 * 256 + i) .init).bytes)

/-- The fields of an anchor header. -/
structure Anchor where
  state : Nat
  drives : Nat
  ringId : BitVec 64
  slots : Nat
  mapCrc : Word
  ckpt : Nat
  newest : Nat
  newestSeq : Nat
  seq : Nat
deriving DecidableEq, Repr

def Anchor.bytes (a : Anchor) : List Byte :=
  block64 (leBytes 4 0x414E4352 ++ leBytes 2 1 ++ [BitVec.ofNat 8 a.state, BitVec.ofNat 8 (a.drives % 16)] ++ leBytes 8 a.ringId.toNat
    ++ leBytes 4 a.slots ++ leBytes 4 a.mapCrc.toNat ++ leBytes 4 a.ckpt ++ leBytes 4 a.newest ++ leBytes 8 a.newestSeq
    ++ leBytes 4 a.seq)

/-- A valid anchor header as read. -/
def Anchor.read (b : List Byte) : Option Anchor :=
  if block64Ok 0x414E4352 b && leField b 4 2 == 1 && (byteAt b 6 == 1 || byteAt b 6 == 2) then
    some ⟨(byteAt b 6).toNat, (byteAt b 7).toNat % 16, BitVec.ofNat 64 (leField b 8 8), leField b 16 4, BitVec.ofNat 32 (leField b 20 4),
      leField b 24 4, leField b 28 4, leField b 32 8, leField b 40 4⟩
  else none

/-! ### Segments (R307) -/

/-- Bytes used in the page being filled. -/
def Segment.used (g : Segment) : Nat := 24 + g.page.foldl (fun n b => n + b.length) 0

/-- The bytes in use of the page being filled, with its header and CRC. -/
def Segment.pageBytes (g : Segment) : List Byte :=
  let h := leBytes 4 g.seq ++ leBytes 2 g.pageIdx ++ leBytes 2 g.used ++ leBytes 8 g.base.toNat ++ leBytes 4 g.page.length
  let recs := g.page.flatten
  h ++ leBytes 4 (crc32c (h ++ recs)).toNat ++ recs

/-- Pages that hold records. -/
def Segment.pages (g : Segment) : Nat := if g.page.isEmpty then g.pageIdx - 1 else g.pageIdx

/-- The header of a segment on a drive and namespace. -/
def Segment.header (g : Segment) (ring : BitVec 64) (drive nsid : Nat) : List Byte :=
  block64 (leBytes 4 0x53454748 ++ leBytes 2 1 ++ [g.alive, 1] ++ leBytes 8 ring.toNat ++ leBytes 8 g.seq ++ leBytes 4 g.slot
    ++ [BitVec.ofNat 8 drive, 0] ++ leBytes 2 nsid ++ leBytes 8 g.opened.toNat ++ leBytes 4 g.prevSlot ++ leBytes 4 g.prevB.toNat)

/-- What trailer A says of a segment's pages: whether they were cut short, whether GAP records are among them, pages,
records, earliest and latest record, the pages' CRCs, capture fragments. -/
structure PagesInfo where
  cut : Bool
  gaps : Bool
  pages : Nat
  records : Nat
  first : Nat
  last : Nat
  crcs : List Word
  frags : Nat
deriving DecidableEq, Repr

/-- Trailer A. -/
def trailerABytes (ring : BitVec 64) (seq : Nat) (alive : Byte) (p : PagesInfo) : List Byte :=
  block64 (leBytes 4 0x54524C41 ++ [1, alive, 1, BitVec.ofNat 8 (bitNat p.cut + 2 * bitNat p.gaps)] ++ leBytes 8 ring.toNat
    ++ leBytes 8 seq ++ leBytes 4 p.pages ++ leBytes 4 p.records ++ leBytes 8 p.first ++ leBytes 8 p.last
    ++ leBytes 4 (crc32c (p.crcs.flatMap (fun c => leBytes 4 c.toNat))).toNat ++ leBytes 4 p.frags)

/-- Trailer B, committed at a DTIME, of a segment with the CRC of its trailer A. -/
def trailerBBytes (ring : BitVec 64) (seq : Nat) (alive : Byte) (aCrc : Word) (now : Nat) : List Byte :=
  block64 (leBytes 4 0x54524C42 ++ [1, alive, 2, 0] ++ leBytes 8 ring.toNat ++ leBytes 8 seq ++ leBytes 4 aCrc.toNat
    ++ leBytes 4 0 ++ leBytes 8 now)

/-- The CRC field of a block's first 64 bytes. -/
def sealOf (bs : List Byte) : Word := BitVec.ofNat 32 (leField bs 60 4)

/-! ### Slots as read (R309) -/

def segBlank : SegScan := ⟨[], [], [], []⟩

/-- A valid header, and its fields. -/
def segHdrOk (x : SegScan) : Bool := block64Ok 0x53454748 x.hdr && leField x.hdr 4 2 == 1
def segRing (x : SegScan) : BitVec 64 := BitVec.ofNat 64 (leField x.hdr 8 8)
def segSeq (x : SegScan) : Nat := leField x.hdr 16 8
def segAlive (x : SegScan) : Byte := byteAt x.hdr 6
def segPrevB (x : SegScan) : Word := BitVec.ofNat 32 (leField x.hdr 44 4)

/-- Trailers that are valid and of the header's segment. -/
def segTrailerOk (magic phase : Nat) (x : SegScan) (b : List Byte) : Bool :=
  block64Ok magic b && byteAt b 4 == 1 && (byteAt b 6).toNat == phase && leField b 8 8 == (segRing x).toNat && leField b 16 8 == segSeq x
def segAOk (x : SegScan) : Bool := segTrailerOk 0x54524C41 1 x x.trA
def segBOk (x : SegScan) : Bool := segTrailerOk 0x54524C42 2 x x.trB && leField x.trB 24 4 == leField x.trA 60 4

/-- The state of a slot as read, for the ring and the rings that the drives' anchors name (R309): a ring_id of none of them
is EMPTY. -/
def scanState (ring : BitVec 64) (rings : List (BitVec 64)) (x : SegScan) : Nat :=
  if !segHdrOk x then 0
  else if segRing x != ring then (if rings.contains (segRing x) then 4 else 0)
  else if !segAOk x then 1
  else if !segBOk x then 2
  else 3

/-- The index entry of a slot as read: the seconds of its first and last record from trailer A; without one, that of its
opening (DEDUCED, log entry 79). -/
def scanEntry (ring : BitVec 64) (rings : List (BitVec 64)) (x : SegScan) : IdxEntry :=
  match scanState ring rings x with
  | 0 => .init
  | st =>
    let sec (lo : Nat) : Nat := if segAOk x then leField x.trA lo 8 / 10 ^ 9 else leField x.hdr 32 8 / 10 ^ 9
    ⟨segSeq x, st, segAlive x, sec 32, sec 40⟩

/-! ### Pages as read (R307, R310, R317) -/

/-- Whether a page block fails its CRC (R307). -/
def pageBad (b : List Byte) : Bool :=
  let used := leField b 6 2
  leField b 20 4 != (crc32c (b.take 20 ++ (b.take used).drop 24)).toNat

/-- The records of a page, from their lengths. -/
def pageRecs : Nat → List Byte → List (List Byte)
  | 0, _ => []
  | n + 1, b =>
    let k := leField b 2 2
    if k < 8 || b.length < k then [] else b.take k :: pageRecs n (b.drop k)

/-- The DTIME of a record in a page of a base (R310). -/
def recTime (base : Nat) (r : List Byte) : Nat :=
  if (byteAt r 1).getLsbD 1 then leField r 8 8
  else ((base : Int) + (BitVec.ofNat 32 (leField r 4 4)).toInt).toNat

/-- The pages from page 1 on that a repair accepts: while seg_seq, page index and CRC agree (R317 step 5). -/
def goodPages (seq : Nat) (ps : List (List Byte)) : List (List Byte) :=
  ((ps.zipIdx 1).takeWhile (fun p =>
    leField p.1 0 4 == seq % 2 ^ 32 && leField p.1 4 2 == p.2 && p.2 ≤ 16381 && !pageBad p.1)).map (·.1)

/-- What trailer A of a repaired segment says. -/
def pagesInfo (ps : List (List Byte)) : PagesInfo :=
  let recs := ps.flatMap (fun p =>
    (pageRecs (leField p 16 4) ((p.take (leField p 6 2)).drop 24)).map (fun r => (byteAt r 0, recTime (leField p 8 8) r)))
  { cut := true, gaps := recs.any (·.1 == 0x0B), pages := ps.length, records := ps.foldl (fun n p => n + leField p 16 4) 0
    first := match recs with | [] => 0 | r :: t => t.foldl (fun m x => min m x.2) r.2
    last := recs.foldl (fun m x => max m x.2) 0
    crcs := ps.map (fun p => BitVec.ofNat 32 (leField p 20 4)), frags := (recs.filter (·.1 == 0x0A)).length }

end Sys2Proof.Machine
end

