-- ==== Sys2Proof/Machine/Recorder.lean ====
section
/-!
DEFINITION. The line recorder (chapter 13): records and their encoding, staging, pages and segments, NVMe commands,
drives, discovery and rebuild, commands, and the read service.
-/
namespace Sys2Proof.Machine

/-- A device with its recorder state changed. -/
def Dev.onRec (d : Dev) (f : RecSt → RecSt) : Dev := { d with recr := f d.recr }

/-! ### Records (R310–R312) -/

/-- Bytes padded with zeros to a multiple of 4. -/
def pad4 (bs : List Byte) : List Byte := bs ++ List.replicate ((4 - bs.length % 4) % 4) 0

/-- The mask and the present bytes of an overhead item against its predecessor. -/
def ohDelta (v : List Byte) (base : Option (List Byte)) : List Nat :=
  (List.range v.length).filter (fun i => match base with | some b => byteAt v i != byteAt b i | none => true)

/-- The body of an OHCHG record: source, level, item, what is present, its mask, its bytes. -/
def ohBody (body : List Byte) (base : Option (List Byte)) : List Byte :=
  let v := body.drop 4
  let ps := ohDelta v base
  body.take 4 ++ [BitVec.ofNat 8 ps.length, 0, 0, 0] ++ leBytes 8 (ps.foldl (fun n i => n + 2 ^ i) 0)
    ++ pad4 (ps.map (byteAt v))

/-- Word w of a PM body. -/
def pmWord (body : List Byte) (w : Nat) : List Byte := (body.drop (3 + 4 * w)).take 4

/-- The body of a PM record: source, level, words present, the second, the words. -/
def pmBody (body : List Byte) (base : Option (List Byte)) : List Byte :=
  let ps := [1, 2, 3, 4, 5, 6, 7].filter (fun w =>
    w == 7 || (match base with | some b => pmWord body w != pmWord b w | none => true))
  body.take 3 ++ [BitVec.ofNat 8 (ps.foldl (fun n w => n + 2 ^ w) 0)] ++ pmWord body 0 ++ ps.flatMap (pmWord body)

/-- The key of a change-encoded record: source, level and item. -/
def recKey (r : Rec) : Nat := leField r.body 0 3 * 16 + (if r.ty = 4 then leField r.body 3 1 else 0)

/-- The content of a record against its predecessors in the segment, and whether it is full (R312). -/
def RecSt.content (s : RecSt) (r : Rec) : List Byte × Bool :=
  let pre := fun (t : Table (List Byte)) => if r.full then none else Table.find t (recKey r)
  if r.ty = 4 then (ohBody r.body (pre s.ohBase), (pre s.ohBase).isNone)
  else if r.ty = 5 then (pmBody r.body (pre s.pmBase), (pre s.pmBase).isNone)
  else (r.body, false)

/-- The bytes a record takes with every byte of its item present. -/
def Rec.size (r : Rec) : Nat :=
  8 + (if r.ty = 4 then ohBody r.body none else if r.ty = 5 then pmBody r.body none else r.body).length

/-- A record in a page with the given base (R310). -/
def encodeRec (r : Rec) (base : DTime) (body : List Byte) (full : Bool) : List Byte :=
  let dt : Int := (r.at_.toNat : Int) - base.toNat
  let wide := dt < -(2 ^ 31) || 2 ^ 31 ≤ dt
  let n := 8 + (if wide then 8 else 0) + body.length
  [BitVec.ofNat 8 r.ty, BitVec.ofNat 8 (bitNat full + 2 * bitNat wide)] ++ leBytes 2 n ++ leBytes 4 (if wide then 0 else un 32 dt)
    ++ (if wide then leBytes 8 r.at_.toNat else []) ++ body

/-- A GAP record (R311). -/
def gapRec (reason src n : Nat) (at_ : DTime) : Rec :=
  ⟨at_, 0x0B, false, [BitVec.ofNat 8 reason, 0] ++ leBytes 2 src ++ leBytes 4 n⟩

/-! ### Drives and slots (R304–R306, R321) -/

/-- Slots of one namespace, less the anchor area of a drive's first. -/
def nsSlots (first : Bool) (bytes : Nat) : Nat := (bytes - if first then 2 ^ 23 else 0) / 2 ^ 26

/-- A namespace that the recorder uses (R304). -/
def nsUsable (n : NsInfo) : Bool := (n.lba == 512 || n.lba == 4096) && n.metaSize == 0 && !n.protInfo

/-- A drive with its used namespaces only, in ascending NSID (R304). -/
def usedDrive (i : DriveInfo) : DriveInfo :=
  { i with nss := ((i.nss.filter nsUsable).foldl (fun t n => Table.ins t n.nsid n) []).map (·.2) }

/-- The namespaces of a drive with their slots. -/
def driveNs (i : DriveInfo) : List (Nat × Nat) :=
  match i.nss with
  | [] => []
  | n :: r => (n.nsid, nsSlots true n.bytes) :: r.map (fun m => (m.nsid, nsSlots false m.bytes))

/-- Slots of a drive. -/
def driveSlots (i : DriveInfo) : Nat := (driveNs i).foldl (fun n p => n + p.2) 0

/-- drv_state of drive k. -/
def Dev.drvState (d : Dev) (k : Nat) : Nat := d.get .REC_DRV_STAT_drv_state k
/-- The drives in use. -/
def Dev.liveDrives (d : Dev) : List Nat := (List.range 4).filter (fun k => d.drvState k == 2)

/-- The drive, the NSID, and the byte of the namespace at which slot j begins: 64 MiB for each slot of the namespace before it,
after the anchor area of the drive's first (R305). -/
def Dev.slotPlace (d : Dev) (j : Nat) : Option (Nat × Nat × Nat) :=
  ((d.recr.drives.flatMap (fun e => (driveNs e.2).zipIdx.map (fun p => (e.1, p)))).foldl
    (fun (a : Option (Nat × Nat × Nat) × Nat) e =>
      let n := e.2.1.2
      (if a.1.isNone && a.2 ≤ j && j < a.2 + n then
          some (e.1, e.2.1.1, (if e.2.2 = 0 then 2 ^ 23 else 0) + (j - a.2) * 2 ^ 26)
        else a.1, a.2 + n)) (none, 0)).1

/-- The NSID and byte of block b of slot j, for a command of it. -/
def Dev.slotBlock (d : Dev) (j b : Nat) : Option (Nat × Nat) := (d.slotPlace j).map (fun p => (p.2.1, p.2.2 + 4096 * b))

/-- The NSID and byte of block b of the anchor area of drive k (R305). -/
def Dev.anchorBlock (d : Dev) (k b : Nat) : Option (Nat × Nat) :=
  ((Table.find d.recr.drives k).bind (fun i => i.nss.head?)).map (fun n => (n.nsid, 4096 * b))

/-- The drive that holds slot j. -/
def Dev.slotDrive (d : Dev) (j : Nat) : Option Nat := (d.slotPlace j).map (·.1)

/-- Slots of the ring. -/
def Dev.ringSlots (d : Dev) : Nat := min (d.recr.drives.foldl (fun n e => n + driveSlots e.2) 0) 262144

/-- Whether slot j lies on a drive in use. -/
def Dev.slotLive (d : Dev) (j : Nat) : Bool := match d.slotDrive j with | some k => d.drvState k == 2 | none => false

/-- map_crc of the drives present (R306). -/
def Dev.mapCrc (d : Dev) : Word :=
  crc32c (d.recr.drives.flatMap (fun e =>
    (e.2.serial ++ List.replicate 20 0).take 20 ++ e.2.nss.flatMap (fun n => leBytes 4 n.nsid ++ leBytes 8 n.bytes)))

/-- An index entry replaced. -/
def Dev.setIdx (d : Dev) (j : Nat) (e : IdxEntry) : Dev := d.onRec (fun s => { s with index := Table.put s.index j e .init })

/-- REC_OLDEST: the first second of the segment with the lowest seg_seq. -/
def Dev.oldest (d : Dev) : Dev :=
  let es := d.recr.index.filter (fun e => 1 ≤ e.2.st && e.2.st ≤ 3)
  match es.find? (fun e => es.all (fun f => decide (e.2.seq ≤ f.2.seq))) with
  | some e => d.set .REC_OLDEST_oldest 0 e.2.first
  | none => d.set .REC_OLDEST_oldest 0 0

/-- rec_state, with ready and the ready bit: set in RUN, cleared when RUN is left (R361). -/
def Dev.recState (d : Dev) (v : Nat) : Dev :=
  ((d.set .REC_STAT_rec_state 0 v).setB .REC_STAT_ready 0 (v == 3)).readyFn 8 (v == 3)

/-- drives_live. -/
def Dev.drivesShow (d : Dev) : Dev := d.set .REC_STAT_drives_live 0 (lvlMask (fun k => d.drvState k == 2))

/-- The commands that the admin queue of depth 16, or the I/O queue of depth 64, of drive k holds; a queue holds one fewer than
its depth, and what is issued beyond waits (R303). -/
def RecSt.posted (s : RecSt) (k : Nat) (admin : Bool) : List NvmeCmd :=
  (s.nvme.filter (fun c => c.drive == k && c.what.admin == admin)).take (if admin then 15 else 63)

/-- A command issued behind those of its drive, but before a Read of the read service that still waits: Reads share the drive
queues with writes, and writes go first (R322). -/
def RecSt.issue (s : RecSt) (c : NvmeCmd) : RecSt :=
  let waits (x : NvmeCmd) : Bool := x.what == .read && x.drive == c.drive && !(s.posted c.drive false).contains x
  { s with nvme := s.nvme.filter (fun x => !waits x) ++ c :: s.nvme.filter waits }

/-- An NVMe command issued to a drive, with the place and the bytes of a Write. -/
def Dev.nvmeIssue (d : Dev) (k : Nat) (w : NvmePurpose) (place : Option (Nat × Nat) := none) (data : List Byte := []) : Dev :=
  d.onRec (·.issue ⟨k, w, place, data, d.ticks⟩)

/-- A command leaves its drive's queue; one that waited takes its place there, and is issued at `now`. -/
def RecSt.drop (s : RecSt) (c : NvmeCmd) (now : Nat) : RecSt :=
  let old := s.posted c.drive c.what.admin
  let s := { s with nvme := s.nvme.erase c }
  match (s.posted c.drive c.what.admin)[old.length - 1]? with
  | some x => { s with nvme := s.nvme.map (fun y => if y = x then { y with tick := now } else y) }
  | none => s

/-- The commands that a fresh start of the drives or of a rebuild keeps: the Reads of the read service. -/
def RecSt.readsOnly (s : RecSt) : List NvmeCmd := s.nvme.filter (fun c => c.what == .read)

/-- Bytes written to drives (REC_RATE). -/
def Dev.wrote (d : Dev) (n : Nat) : Dev := d.onRec (fun s => { s with bytesSec := s.bytesSec + n })

/-- The drive of the open segment. -/
def Dev.segDrive (d : Dev) : Nat := (d.recr.seg.bind (fun g => d.slotDrive g.slot)).getD 0

/-! ### Opening a segment (R308 step 5) -/

/-- The first slot in ascending order from j, wrapping, on a drive in use. -/
def Dev.nextSlot (d : Dev) (j : Nat) : Option Nat :=
  let n := d.ringSlots
  ((List.range n).map (fun i => (j + i) % n)).find? d.slotLive

/-- The next slot from j is opened with previous slot, sequence, alive and prev_b: deallocated where supported, its header
written. -/
def Dev.openSlot (d : Dev) (j prev seq : Nat) (alive : Byte) (prevB : Word) : Dev :=
  match d.nextSlot j with
  | none => (d.onRec (fun s => { s with seg := none })).recState 5
  | some j =>
    let p := (d.slotPlace j).getD (0, 0, 0)
    let k := p.1
    let g : Segment :=
      { slot := j, prevSlot := prev, seq := seq, alive := alive, prevB := prevB, pageIdx := 1, base := 0, page := [], pageDirty := false
        records := 0, first := none, last := 0, crcs := [], frags := 0, gaps := false, opened := d.dtime, trB := 0 }
    let d := d.onRec (fun s => { s with seg := some g, pmBase := [], ohBase := [], keyOh := [], keyPm := [], pageAt := d.ticks })
    let d := (d.setIdx j ⟨seq, 1, alive, d.second, d.second⟩).oldest
    let d := ((d.set .REC_SEG_CUR_cur 0 j).setWord .REC_SEG_SEQ_LO 0 (BitVec.ofNat 32 seq)).setWord .REC_SEG_SEQ_HI 0
      (BitVec.ofNat 32 (seq / 2 ^ 32))
    let d := if d.bit .REC_DRV_STAT_dsm k then d.nvmeIssue k .dealloc (d.slotBlock j 0) else d
    (d.nvmeIssue k .header (d.slotBlock j 0) (g.header d.recr.ringId k p.2.1)).wrote 4096

/-! ### Pages (R308) -/

/-- The page being filled is written (R308). -/
def Dev.pageOut (d : Dev) : Dev :=
  match d.recr.seg with
  | none => d
  | some g =>
    let crc := BitVec.ofNat 32 (leField g.pageBytes 20 4)
    let d := d.onRec (fun s => { s with
      seg := some { g with pageDirty := false, crcs := g.crcs.take (g.pageIdx - 1) ++ [crc] }, pageAt := d.ticks })
    (d.nvmeIssue d.segDrive (.page g.pageIdx) (d.slotBlock g.slot g.pageIdx) g.pageBytes).wrote 4096

/-! ### Staging (R313) -/

/-- The STAGING queue of the cell pool, where it runs. -/
def Dev.stagingQ (d : Dev) : Option Nat :=
  (d.listed .CPL_Q_CFG).find? (fun i => d.bit .CPL_Q_CFG_en i && d.get .CPL_Q_CFG_owner_kind i == 3 && d.running .queue i)

/-- Staging is the early ring. -/
def Dev.early (d : Dev) : Bool := !d.bit .CPL_POOL_STAT_pool_ready 0

/-- Bytes in the early ring. -/
def Dev.earlyBytes (d : Dev) : Nat := d.recr.staged.foldl (fun n p => if p.cells = 0 then n + p.r.size else n) 0

/-- Cells of a record in the STAGING queue: it begins a cell of its own. -/
def Rec.cells (r : Rec) : Nat := (r.size + 447) / 448

/-- The bytes of a record as staged. -/
def Rec.stageBytes (r : Rec) : List Byte :=
  encodeRec r r.at_ (if r.ty = 4 then ohBody r.body none else if r.ty = 5 then pmBody r.body none else r.body) true

/-- A record's cells pushed to the STAGING queue, if they fit; the record as staged. -/
def State.stageCells (s : State) (r : Rec) : Option (State × Staged) :=
  match s.dev.stagingQ with
  | none => none
  | some q =>
    if s.dev.get .CPL_Q_QUOTA_quota q < s.dev.qOcc q + r.cells then none
    else
      ((List.range r.cells).foldl (fun (o : Option State) j =>
        o.bind (fun s => (s.qWrite q (((r.stageBytes ++ List.replicate 448 0).drop (448 * j)).take 448)).map (·.qEnd q)))
        (some s)).map (fun s => (s, ⟨r, r.cells, q⟩))

/-- The early ring drains into the queue first, in order. -/
def State.drainOne (a : State × List Staged) (p : Staged) : State × List Staged :=
  if p.cells ≠ 0 || a.2.any (fun x => x.cells = 0) then (a.1, a.2 ++ [p])
  else
    match a.1.stageCells p.r with
    | some (s, x) => (s, a.2 ++ [x])
    | none => (a.1, a.2 ++ [p])

/-- Drain what the early ring holds once the pool is ready. -/
def State.drainEarly (s : State) : State :=
  if s.dev.early then s
  else
    let r := s.dev.recr.staged.foldl State.drainOne (s, [])
    r.1.onDev (·.onRec (fun x => { x with staged := r.2 }))

/-- One record into staging; none where there is no room. -/
def State.stage (s : State) (r : Rec) : Option State :=
  if s.dev.early then
    if s.dev.earlyBytes + r.size ≤ 2 ^ 21 then
      some (s.onDev (·.onRec (fun x => { x with staged := x.staged ++ [⟨r, 0, 0⟩] })))
    else none
  else if s.dev.recr.staged.any (fun p => p.cells = 0) then none
  else (s.stageCells r).map (fun e => e.1.onDev (·.onRec (fun x => { x with staged := x.staged ++ [e.2] })))

/-- The GAP records owed for dropped records, then a record; none where they do not all fit. -/
def State.stageAll (s : State) (rs : List Rec) : Option State := rs.foldl (fun o r => o.bind (fun s => s.stage r)) (some s)

/-- GAP records owed. -/
def Dev.owedGaps (d : Dev) : List Rec := d.recr.dropped.map (fun e => gapRec e.1 0xFFFF e.2.1 e.2.2)

/-- An engine's record: staged behind what is owed, or dropped and counted (R313). -/
def State.stageEngine (s : State) (r : Rec) : State :=
  match s.stageAll (s.dev.owedGaps ++ [r]) with
  | some s => s.onDev (·.onRec (fun x => { x with dropped := [] }))
  | none =>
    let k := if s.dev.early then 4 else 3
    s.onDev (fun d => (d.bump .REC_CNT_drops 0 1).onRec (fun x =>
      let o := Table.get x.dropped k (0, r.at_)
      { x with dropped := Table.ins x.dropped k (o.1 + 1, o.2) }))

/-- Whether the event ring and capture copy wait for room in staging, as prod_wait of the enabled STAGING queue shows: both are
its STALL producers (R190, R193, R313). -/
def State.stageWaits (s : State) (ev cap : Bool) : State :=
  let s := s.onDev (·.onRec (fun x => { x with evWait := ev, capWait := cap }))
  match (s.dev.listed .CPL_Q_CFG).find? (fun i => s.dev.bit .CPL_Q_CFG_en i && s.dev.get .CPL_Q_CFG_owner_kind i == 3) with
  | some q =>
    if s.dev.early then s
    else s.onDev (·.setB .CPL_Q_STAT_prod_wait q (ev || cap || (s.pool.queue q).waiting.isSome))
  | none => s

/-- The event ring waits, or has staged its entry. -/
def State.evWaits (s : State) (w : Bool) : State := s.stageWaits w s.dev.recr.capWait

/-- Capture copy waits, or has staged its record. -/
def State.capWaits (s : State) (w : Bool) : State := s.stageWaits s.dev.recr.evWait w

/-- The next entry of the event ring: entries overwritten before they were journalled are a GAP of reason 6, with the DTIME of
the entry that now lies in the place of the first. -/
def State.stageEvent (s : State) : State :=
  let wr := s.dev.word .GLB_EVT_WR 0
  let depth := (wr - BitVec.ofNat 32 s.dev.recr.ringPos).toNat
  if depth = 0 then s
  else if 4096 < depth then
    let at_ := ((Table.find s.dev.host.ring (s.dev.recr.ringPos % 4096)).map (·.at_)).getD s.dev.dtime
    match s.stage (gapRec 6 0xFFFF (depth - 4096) at_) with
    | some s => (s.onDev (·.onRec (fun x => { x with ringPos := (wr - 4096).toNat }))).evWaits false
    | none => s.evWaits true
  else
    match Table.find s.dev.host.ring (s.dev.recr.ringPos % 4096) with
    | none => s
    | some e =>
      match s.stage ⟨e.at_, 1, false, evBytes e⟩ with
      | some s => (s.onDev (·.onRec (fun x => { x with ringPos := (x.ringPos + 1) % 2 ^ 32 }))).evWaits false
      | none => s.evWaits true

/-- A GAP record reaches the journal (R329). -/
def Dev.gapWritten (d : Dev) (reason : Nat) : Dev :=
  ((d.bump .REC_CNT_gaps 0 1).set .REC_EVT_gap 0 1).raise1 0x0D08 reason reason

/-- A record of the page: bases of change encoding, counts, first and last times. -/
def Dev.placed (d : Dev) (g : Segment) (r : Rec) (bytes : List Byte) : Dev :=
  let g' : Segment := { g with
    base := if g.page.isEmpty then r.at_ else g.base
    page := g.page ++ [bytes]
    pageDirty := true
    records := g.records + 1
    first := some (match g.first with | some t => (if r.at_ < t then r.at_ else t) | none => r.at_)
    last := if g.last < r.at_ then r.at_ else g.last
    frags := g.frags + bitNat (r.ty == 0x0A)
    gaps := g.gaps || r.ty == 0x0B }
  let d := d.onRec (fun s => { s with
    seg := some g'
    ohBase := if r.ty = 4 then Table.ins s.ohBase (recKey r) (r.body.drop 4) else s.ohBase
    pmBase := if r.ty = 5 then Table.ins s.pmBase (recKey r) r.body else s.pmBase })
  let sec (t : DTime) : Nat := t.toNat / 10 ^ 9
  let d := (d.setIdx g.slot ⟨g'.seq, 1, g'.alive, sec (g'.first.getD 0), sec g'.last⟩).oldest
  if r.ty = 0x0B then d.gapWritten (byteAt r.body 0).toNat else d

/-- The device with every staged record in its page: where the next record will stand. -/
def Dev.pageAhead (d : Dev) : Dev :=
  d.recr.staged.foldl (fun d e =>
    match d.recr.seg with
    | none => d
    | some g =>
      let c := d.recr.content e.r
      let n := (encodeRec e.r (if g.page.isEmpty then e.r.at_ else g.base) c.1 c.2).length
      let g := if 4096 < g.used + n then { g with page := [] } else g
      d.placed g e.r (encodeRec e.r (if g.page.isEmpty then e.r.at_ else g.base) c.1 c.2)) d

/-- The data bytes that a fragment behind `used` bytes of a page may carry, with `more` bytes of a long DTIME: what is left of
the page, or a whole page where that is less than a fragment needs (R326). -/
def roomAt (used more : Nat) : Nat := if used + 24 + more + 64 ≤ 4096 then (4096 - used - 24 - more) / 4 * 4 else 4048

/-- The data bytes that the next fragment may carry, behind what is staged. -/
def Dev.fragRoom (d : Dev) (at_ : DTime) : Nat :=
  match d.pageAhead.recr.seg with
  | some g =>
    let dt : Int := (at_.toNat : Int) - g.base.toNat
    roomAt g.used (if g.page.isEmpty || (-(2 ^ 31) ≤ dt && dt < 2 ^ 31) then 0 else 8)
  | none => 4048

/-- n bytes of a frame cut into fragments behind `used` bytes of a page: the bytes then used, and the fragments added to
`cnt`. -/
def cutFrame : Nat → Nat → Nat → Nat → Nat × Nat
  | 0, used, cnt, _ => (used, cnt)
  | fuel + 1, used, cnt, n =>
    if n = 0 then (used, cnt)
    else
      let m := min n (roomAt used 0)
      cutFrame fuel ((if used + 24 + 64 ≤ 4096 then used else 24) + 24 + (m + 3) / 4 * 4) (cnt + 1) (n - m)

/-- A fragment of a frame (R311). -/
def fragRec (f : Frag) (n : Nat) : Rec :=
  ⟨f.at_, 0x0A, false, [BitVec.ofNat 8 f.slot,
      BitVec.ofNat 8 (bitNat (f.off == 0) + 2 * bitNat (decide (f.data.length ≤ n)) + 4 * bitNat f.poison)]
    ++ leBytes 2 f.num ++ leBytes 4 (un 32 f.frame) ++ leBytes 4 f.off ++ leBytes 2 (min n f.data.length) ++ [0, 0]
    ++ pad4 (f.data.take n)⟩

/-- The CAPTURE queue of slot k (R190). -/
def Dev.capQueue (d : Dev) (k : Nat) : Option Nat :=
  (d.listed .CPL_Q_CFG).find? (fun i =>
    d.bit .CPL_Q_CFG_en i && d.get .CPL_Q_CFG_owner_kind i == 2 && d.get .CPL_Q_CFG_owner_idx i == k)

/-- The frames of slot k that capture copy has not read yet are lost: the capture is truncated (R202; log entry 69). -/
def Dev.capLost (d : Dev) (k : Nat) : Dev :=
  (d.onRec (fun x => { x with capBox := x.capBox.filter (fun i =>
    match i with | .header _ _ => true | .frame f => f.slot != k || f.isRead) })).setB .REC_CS_LAST_truncated k true

/-- Capture copy reads the next frame of slot k from the slot's queue, waiting while the queue is not RUN; a frame whose
cells cannot be read ends the copy (R197, R200–R202, R326). -/
def State.capRead (s : State) (f : Frag) (reads : List CellRead) : State × Option Frag × List CellRead :=
  let k := f.slot
  match s.dev.capQueue k with
  | none => (s.onDev (·.capLost k), none, reads)
  | some q =>
    if !s.dev.running .queue q then (s, none, reads)
    else
      let c := s.dev.cap k
      let want := c.skip + c.size
      let n := min ((want - c.rbuf.length + 447) / 448) (s.dev.qDepth q)
      let (s, o, reads) := s.popN q reads n
      match o with
      | none => (s.onDev (·.capLost k), none, reads)
      | some cells =>
        let got := c.rbuf ++ cells.flatMap (fun x => s.pool.data x.1)
        let last := decide (got.length < want)
        let bytes := if last then got ++ c.wbuf else got
        if bytes.length < want then (s.onDev (·.capLost k), none, reads)
        else
          let poison := (c.rPoison && !c.rbuf.isEmpty) || cells.any (·.2)
          let d := s.dev.setCap k { c with
            skip := 0, rbuf := bytes.drop want, wbuf := if last then [] else c.wbuf
            rPoison := match cells.getLast? with | some x => x.2 | none => c.rPoison }
          let d := if poison then d.setB .REC_CS_LAST_poison k true else d
          ({ s with dev := d }, some { f with isRead := true, data := (bytes.drop c.skip).take c.size, poison := poison }, reads)

/-- clk_tm ticks that n bytes take at bulk_rate × 10 MB/s: 25 · n ÷ bulk_rate (R314). -/
def Dev.bulkTicks (d : Dev) (n : Nat) : Nat := (25 * n + d.get .REC_CTL_bulk_rate 0 - 1) / d.get .REC_CTL_bulk_rate 0

/-- A frame's next fragment enters staging, or waits for room; the next one waits as the pacing says. -/
def State.stageFrag (s : State) (f : Frag) (rest : List CopyItem) : State :=
  let n := s.dev.fragRoom f.at_
  let r := fragRec f n
  match s.stage r with
  | some s =>
    let left := f.data.drop n
    s.onDev (fun d => d.onRec (fun x => { x with
      capBox := if left.isEmpty then rest else .frame { f with off := f.off + n, data := left } :: rest
      bulkAt := max x.bulkAt d.ticks + d.bulkTicks r.size })) |>.capWaits false
  | none => (s.onDev (·.onRec (fun x => { x with capBox := .frame f :: rest }))).capWaits true

/-- Capture copy stages its next record and waits where there is no room; fragments keep to bulk_rate, and while thermal
shedding is in force none is staged (R314, R390). The cells it reads do so as `reads` say. -/
def State.stageCapture (s : State) (reads : List CellRead) : State × List CellRead :=
  match s.dev.recr.capBox with
  | [] => (s, reads)
  | .header _ r :: rest =>
    match s.stage r with
    | some s => ((s.onDev (·.onRec (fun x => { x with capBox := rest }))).capWaits false, reads)
    | none => (s.capWaits true, reads)
  | .frame f :: rest =>
    if s.dev.bit .GLB_THERM_STAT_therm 0 || decide (s.dev.ticks < s.dev.recr.bulkAt) then (s, reads)
    else if f.isRead then (s.stageFrag f rest, reads)
    else
      match s.capRead f reads with
      | (s, some f, reads) => (s.stageFrag f rest, reads)
      | (s, none, reads) => (s, reads)

/-! ### From staging into pages (R201, R308, R312) -/

/-- A staged record's cells are read and freed, and it leaves staging; whether one of them was poisoned, none where they
cannot be read and the record is lost (R201, R202). -/
def State.unstage (s : State) (e : Staged) (reads : List CellRead) : State × Option Bool × List CellRead :=
  let leave (s : State) : State := s.onDev (·.onRec (fun x => { x with staged := x.staged.erase e }))
  if e.cells = 0 then (leave s, some false, reads)
  else if s.dev.qDepth e.queue < e.cells then (s.onDev (·.stagedGone e.queue), none, reads)
  else
    match s.popN e.queue reads e.cells with
    | (s, none, reads) => (s, none, reads)
    | (s, some cells, reads) => ((leave s).qReleaseTo e.queue ((leave s).dev.qRd e.queue), some (cells.any (·.2)), reads)

/-- The staged record that the recorder engine reads next: the oldest of the early ring or of the STAGING queue, which it
reads only while that queue is RUN (R190, R197). -/
def Dev.nextStaged (d : Dev) : Option Staged := d.recr.staged.find? (fun e => e.cells == 0 || d.stagingQ == some e.queue)

/-- The oldest staged record goes into the page, if a segment takes records and it fits. -/
def State.placeOne (s : State) (reads : List CellRead) : State × List CellRead :=
  match s.dev.recr.seg, s.dev.nextStaged with
  | some g, some e =>
    let r := e.r
    if s.dev.bit .REC_STAT_committing 0 || !s.dev.bit .REC_STAT_ready 0 then (s, reads)
    else
      let c := s.dev.recr.content r
      let bytes := encodeRec r (if g.page.isEmpty then r.at_ else g.base) c.1 c.2
      if 4096 < g.used + bytes.length then (s, reads)
      else
        match s.unstage e reads with
        | (s, none, reads) => (s, reads)
        | (s, some true, reads) =>
          let r := gapRec 2 0xFFFF 1 r.at_
          (s.onDev (fun d => d.placed g r (encodeRec r (if g.page.isEmpty then r.at_ else g.base) r.body false)), reads)
        | (s, some false, reads) => (s.onDev (fun d => d.placed g r bytes), reads)
  | _, _ => (s, reads)

/-- Staged records go into the page while they fit. -/
def State.fill (s : State) (reads : List CellRead) : State × List CellRead :=
  (List.range s.dev.recr.staged.length).foldl (fun a _ => a.1.placeOne a.2) (s, reads)

/-- The BOOT records of the entries written in this start and of the false starts found, once neither the sequencer, which
writes its entries until the start is done or HALTED, nor a host command holds the flash (R317 step 7; log entry 34). -/
def Dev.bootRecords (d : Dev) : Dev :=
  if !d.recr.bootDue || d.boot.flashOp.isSome || d.get .BOOT_STAT_state 0 = 0 then d
  else
    let d := d.onRec (fun s => { s with bootDue := false })
    (d.boot.journal.filter (fun e => e.startNo == d.get .BOOT_START_start_no 0 || d.boot.cutSeqs.contains e.jseq)).foldl (fun d e =>
      [0, 1].foldl (fun d h =>
        d.record 0x08 d.dtime ([BitVec.ofNat 8 (e.jseq % 256), BitVec.ofNat 8 h, 0, 0] ++ ((e.bytes).drop (2048 * h)).take 2048))
        d) d

/-- RECORD_STAGE (R313): engines first, then the event ring, then capture copy. The cells that capture copy and the recorder
engine read do so as `reads` say, in order. -/
def State.recordStage (s : State) (reads : List CellRead) : State :=
  let s := s.drainEarly.onDev (·.bootRecords)
  let (s, reads) := match s.dev.recr.outbox with
    | r :: rest => ((s.onDev (·.onRec (fun x => { x with outbox := rest }))).stageEngine r, reads)
    | [] =>
      if s.dev.word .GLB_EVT_WR 0 == BitVec.ofNat 32 s.dev.recr.ringPos then s.stageCapture reads else (s.stageEvent, reads)
  (s.fill reads).1

def execRecordStage (reads : List CellRead) (s : State) : Host.Outcome State Fault Refusal := .next (s.recordStage reads)

/-- Whether the page being filled has no room for the next staged record, or for any: the shortest takes 16 bytes (R310,
R311). -/
def State.pageFull (s : State) : Bool :=
  s.dev.recr.seg.any (fun g => !g.page.isEmpty && (s.dev.nextStaged.isSome || decide (4096 < g.used + 16)))

/-- PAGE_WRITE (R308): a full page, but the segment's last, which its commit writes; deferred while THERM_L is asserted
(R390). -/
def State.pageWrite (s : State) (reads : List CellRead) : State :=
  let (s, reads) := s.fill reads
  match s.dev.recr.seg with
  | some g =>
    if s.pageFull && g.pageIdx < 16381 && s.dev.bit .REC_STAT_ready 0 && !s.dev.bit .REC_STAT_committing 0
        && !s.dev.bit .GLB_THERM_STAT_therm 0 then
      let s := s.onDev (·.pageOut)
      ((s.onDev (·.onRec (fun x => { x with
        seg := x.seg.map (fun g => { g with pageIdx := g.pageIdx + 1, page := [], pageDirty := false }) }))).fill reads).1
    else s
  | none => s

def execPageWrite (reads : List CellRead) (s : State) : Host.Outcome State Fault Refusal := .next (s.pageWrite reads)

/-- A partly filled page that has grown is written again. -/
def Dev.partPage (d : Dev) : Dev :=
  match d.recr.seg with
  | some g => if g.pageDirty && !d.bit .REC_STAT_committing 0 then d.pageOut else d
  | none => d

/-- FLUSH_INTERVAL (R308): rec_flush seconds after the last page write, with Flush where the drive has a volatile write
cache. -/
def Dev.flushInterval (d : Dev) : Dev :=
  if decide (d.ticks < d.recr.pageAt + msTicks (1000 * d.get .REC_CTL_rec_flush 0)) || !d.bit .REC_STAT_ready 0
      || !(d.recr.seg.any (·.pageDirty)) || d.bit .REC_STAT_committing 0 then d
  else
    let k := d.segDrive
    let d := d.partPage
    if d.bit .REC_DRV_STAT_vwc k then d.nvmeIssue k .flushPage else d

def execFlushInterval (s : State) : Host.Outcome State Fault Refusal := .next (s.onDev (·.flushInterval))

/-! ### Commit (R307, R308) -/

/-- Trailer A of the open segment. -/
def Dev.trailerA (d : Dev) (g : Segment) : List Byte :=
  trailerABytes d.recr.ringId g.seq g.alive
    { cut := false, gaps := g.gaps, pages := g.pages, records := g.records, first := (g.first.getD 0).toNat, last := g.last.toNat
      crcs := g.crcs.take g.pages, frags := g.frags }

/-- SEGMENT_COMMIT: the last page written, then Flush. -/
def Dev.segmentCommit (d : Dev) (full : Bool) : Dev :=
  match d.recr.seg with
  | none => d
  | some g =>
    if d.bit .REC_STAT_committing 0 || !d.bit .REC_STAT_ready 0 || !(d.recr.closing || (full && g.pageIdx == 16381)) then d
    else
      let k := d.segDrive
      let d := if g.pageDirty then d.pageOut else d
      ((d.onRec (fun s => { s with closing := false })).set .REC_STAT_committing 0 1).nvmeIssue k .flushA

def execSegmentCommit (reads : List CellRead) (s : State) : Host.Outcome State Fault Refusal :=
  .next (let s := (s.fill reads).1; s.onDev (·.segmentCommit s.pageFull))

/-- The slot of the ring with the highest seg_seq among states p. -/
def Dev.newest (d : Dev) (p : Nat → Bool) : Option (Nat × IdxEntry) :=
  let es := d.recr.index.filter (fun e => p e.2.st)
  es.find? (fun e => es.all (fun f => decide (f.2.seq ≤ e.2.seq)))

/-- The anchor header of the ring as it is (R306), CONSISTENT (1) or REBUILDING (2). A ring without a segment names its last
slot with seg_seq 0, the predecessor of its first (DESIGN CHOICE, log entry 85). -/
def Dev.anchorOf (d : Dev) (state ckpt : Nat) : Anchor :=
  let n := (d.newest (fun st => 1 ≤ st && st ≤ 3)).getD (d.ringSlots - 1, .init)
  { state := state, drives := d.recr.drives.length, ringId := d.recr.ringId, slots := d.ringSlots, mapCrc := d.mapCrc, ckpt := ckpt
    newest := n.1, newestSeq := n.2.seq, seq := d.recr.anchorSeq }

/-- Index blocks and the anchor header behind them are written on every live drive, with the next anchor_seq. -/
def Dev.writeAnchors (d : Dev) (w : NvmePurpose) (state ckpt : Nat) (blocks : List (List Byte)) : Dev :=
  let d := d.onRec (fun s => { s with anchorSeq := s.anchorSeq + 1 })
  let h := (d.anchorOf state ckpt).bytes
  let d := d.liveDrives.foldl (fun d k =>
    (d.nvmeIssue k w (d.anchorBlock k 0) (blocks.flatten ++ h)).wrote (4096 * (blocks.length + 1))) d
  d.onRec (fun s => { s with drives := s.drives.map (fun e => (e.1, if d.drvState e.1 == 2 then { e.2 with anchor := h } else e.2)) })

/-- Trailer B is on the drive: COMMITTED, event 0x0D05, then index and anchors. -/
def Dev.committed (d : Dev) (g : Segment) : Dev :=
  let e := Table.get d.recr.index g.slot .init
  let d := ((d.setIdx g.slot { e with st := 3 }).set .REC_EVT_seg_commit 0 1).raise 0x0D05 (g.slot % 65536)
  d.writeAnchors .indexAnchor 1 0 [d.recr.idxBlock g.slot]

/-- The commit proceeds as a command of it ends. -/
def Dev.commitStep (d : Dev) (w : NvmePurpose) : Dev :=
  match d.recr.seg with
  | none => d
  | some g =>
    let k := d.segDrive
    match w with
    | .flushA => (d.nvmeIssue k .trailerA (d.slotBlock g.slot 16382) (d.trailerA g)).wrote 4096
    | .trailerA => d.nvmeIssue k .flushTrA
    | .flushTrA =>
      let b := trailerBBytes d.recr.ringId g.seq g.alive (sealOf (d.trailerA g)) d.now
      ((d.onRec (fun s => { s with seg := some { g with trB := sealOf b } })).nvmeIssue k .trailerB
        (d.slotBlock g.slot 16383) b).wrote 4096
    | .trailerB => d.nvmeIssue k .flushTrB
    | .flushTrB => d.committed g
    | .indexAnchor =>
      if d.bit .REC_STAT_committing 0 && !d.recr.nvme.any (fun c => c.what == .indexAnchor) then
        (d.set .REC_STAT_committing 0 0).openSlot (g.slot + 1) g.slot (g.seq + 1) (g.alive + 1) g.trB
      else d
    | _ => d

/-! ### Discovery, repair and rebuild (R309, R317–R319) -/

/-- The rings that the drives' anchors name, and with them the one in use. -/
def Dev.anchorRings (d : Dev) : List (BitVec 64) := d.recr.drives.filterMap (fun e => (Anchor.read e.2.anchor).map (·.ringId))
def Dev.rings (d : Dev) : List (BitVec 64) := d.recr.ringId :: d.anchorRings

/-- The slots of FAILED drives are LOST (R321). -/
def Dev.lostSlots (d : Dev) : Dev :=
  let ks := (List.range 4).filter (fun k => d.drvState k == 1)
  if ks.isEmpty then d
  else (List.range d.ringSlots).foldl (fun d j =>
    match d.slotDrive j with
    | some k => if ks.contains k then d.setIdx j { Table.get d.recr.index j .init with st := 6 } else d
    | none => d) d

/-- The index entries of slots lo to hi − 1 from what was read of them. -/
def Dev.indexFrom (d : Dev) (lo hi : Nat) : Dev :=
  (d.recr.scans.filter (fun e => lo ≤ e.1 && e.1 < hi)).foldl (fun d e => d.setIdx e.1 (scanEntry d.recr.ringId d.rings e.2)) d

/-- The index entries of slots 0 to hi − 1 from the index blocks of an anchor area. -/
def Dev.indexLoad (d : Dev) (blocks : List (List Byte)) (hi : Nat) : Dev :=
  ((List.range hi).foldl (fun d j => d.setIdx j (idxOf blocks j)) d).lostSlots

/-- From a slot whose segment has sequence seq, each following slot is taken into the index while its header carries the same
ring_id and the next seg_seq (R317 step 3), and its alive counter, judged in the journal's stream, is the next (R281). A
segment whose counter is rejected becomes ORPHAN (DEDUCED, log entry 101). -/
def Dev.indexFollow (d : Dev) : Nat → Nat → Nat → Dev
  | 0, _, _ => d
  | fuel + 1, j, seq =>
    let j := (j + 1) % d.ringSlots
    match Table.find d.recr.scans j with
    | some x =>
      if segHdrOk x && segRing x == d.recr.ringId && segSeq x == seq + 1 then
        let before := (Table.get d.recr.index ((j + d.ringSlots - 1) % d.ringSlots) .init).alive
        let v := d.aliveCount 2 ((AliveRx.mk (some before) false 0).judge 1 false (segAlive x)).2
        let e := scanEntry d.recr.ringId d.rings x
        if v.2 then (v.1.setIdx j e).indexFollow fuel j (seq + 1) else v.1.setIdx j { e with st := 5 }
      else d
    | none => d

/-- The slots of the ring sequence, walked backward from slot j (R319). -/
def Dev.chain (d : Dev) : Nat → Nat → List Nat
  | 0, _ => []
  | fuel + 1, j =>
    let sj := Table.find d.recr.scans j
    let ej := Table.get d.recr.index j .init
    let pred := d.recr.index.find? (fun e => 1 ≤ e.2.st && e.2.st ≤ 3 && e.2.seq + 1 == ej.seq && e.2.alive + 1 == ej.alive
      && (match sj, Table.find d.recr.scans e.1 with
          | some a, some b => segPrevB a == sealOf b.trB
          | _, _ => false))
    match pred with
    | some e => j :: d.chain fuel e.1
    | none => [j]

/-- The walk that ends at the last slot of `keep` for its alive counter alone has met a repeat or a stale segment: the
journal's rejections (R281). -/
def Dev.journalReject (d : Dev) (keep : List Nat) : Dev :=
  match keep.getLast? with
  | none => d
  | some j =>
    let s := Table.get d.recr.index j .init
    match d.recr.index.find? (fun e => 1 ≤ e.2.st && e.2.st ≤ 3 && e.2.seq + 1 == s.seq) with
    | none => d
    | some p =>
      if s.alive == p.2.alive + 1 then d
      else (d.aliveCount 2 (if s.alive == p.2.alive then .repeated else .stale)).1

/-- Segments outside the ring sequence become ORPHAN; their number. -/
def Dev.markOrphans (d : Dev) : Dev × Nat :=
  match d.newest (fun st => 1 ≤ st && st ≤ 3) with
  | none => (d, 0)
  | some e =>
    let keep := d.chain d.recr.index.length e.1
    let gone := d.recr.index.filter (fun x => 1 ≤ x.2.st && x.2.st ≤ 3 && !keep.contains x.1)
    (gone.foldl (fun d x => d.setIdx x.1 { x.2 with st := 5 }) (d.journalReject keep), gone.length)

/-- A segment gets trailer B, and its slot is COMMITTED: the repair writes what it adds (R317 steps 5 and 6). -/
def Dev.repairB (d : Dev) (j : Nat) (x : SegScan) (written : List Byte) : Dev :=
  let b := trailerBBytes d.recr.ringId (segSeq x) (segAlive x) (sealOf x.trA) d.now
  let x := { x with trB := b }
  let d := d.onRec (fun s => { s with scans := Table.ins s.scans j x })
  let d := d.setIdx j (scanEntry d.recr.ringId d.rings x)
  (d.nvmeIssue ((d.slotDrive j).getD 0) .repair (d.slotBlock j (if written.isEmpty then 16383 else 16382)) (written ++ b)).wrote
    (if written.isEmpty then 4096 else 8192)

/-- The newest OPEN segment is repaired from the pages it still holds: trailers with truncated = 1, event 0x0D06. -/
def Dev.repairOpen (d : Dev) : Dev :=
  match d.newest (· == 1) with
  | none => d
  | some e =>
    let x := Table.get d.recr.scans e.1 segBlank
    let a := trailerABytes d.recr.ringId (segSeq x) (segAlive x) (pagesInfo (goodPages (segSeq x) x.pages))
    (d.repairB e.1 { x with trA := a } a).raise 0x0D06 (e.1 % 65536)

/-- The newest PREPARED segment gets its trailer B. -/
def Dev.repairPrepared (d : Dev) : Dev :=
  match d.newest (· == 2) with
  | none => d
  | some e => d.repairB e.1 (Table.get d.recr.scans e.1 segBlank) []

/-- Steps 5 to 7 of R317: repairs, then, with the unit RUN, the next slot is opened and the ring is ready. -/
def Dev.recFinish (d : Dev) : Dev :=
  let d := (d.repairOpen.repairPrepared).oldest
  let d := (d.setWord .REC_RING_ID_LO 0 (BitVec.ofNat 32 d.recr.ringId.toNat)).setWord .REC_RING_ID_HI 0
    (BitVec.ofNat 32 (d.recr.ringId.toNat / 2 ^ 32))
  if !d.running .recorder 0 then d.recState 4
  else
    let d := match d.newest (fun st => 1 ≤ st && st ≤ 3) with
      | some e =>
        d.openSlot (e.1 + 1) e.1 (e.2.seq + 1) (e.2.alive + 1) (sealOf (Table.get d.recr.scans e.1 segBlank).trB)
      | none => d.openSlot 0 0 1 0 0
    if d.recr.seg.isNone then d
    else ((d.recState 3).raise 0x0D01 (d.get .REC_STAT_drives_live 0)).onRec (fun s => { s with bootDue := true })

/-- A ring identity different from all those given, from a free value (log entry 2). -/
def freshId (used : List (BitVec 64)) (v : BitVec 64) : Nat → BitVec 64
  | 0 => v
  | n + 1 => if used.contains v then freshId used (v + 1) n else v

/-- The drives that are present and have not failed: LIVE or FOREIGN. -/
def Dev.presentDrives (d : Dev) : List Nat := (List.range 4).filter (fun k => 2 ≤ d.drvState k)

/-- A new ring (R303, R320): all used namespaces deallocated where supported, those of FOREIGN drives with them, which are LIVE
from then on; every slot EMPTY but those of FAILED drives; anchors CONSISTENT, event 0x0D0F. -/
def Dev.recFormat (d : Dev) : Dev :=
  let (v, d) := d.draw64
  let used := d.rings ++ d.recr.scans.map (fun e => segRing e.2)
  let d := (d.onRec (fun s => { s with
    ringId := freshId used (BitVec.ofNat 64 v) (used.length + 1), index := [], scans := [], seg := none, nvme := s.readsOnly
    rebuilding := none })).set .REC_REBUILD_rb_busy 0 0
  let d := (d.setWord .REC_RING_ID_LO 0 (BitVec.ofNat 32 d.recr.ringId.toNat)).setWord .REC_RING_ID_HI 0
    (BitVec.ofNat 32 (d.recr.ringId.toNat / 2 ^ 32))
  let d := d.presentDrives.foldl (fun d k =>
    let d := d.set .REC_DRV_STAT_drv_state k 2
    if d.bit .REC_DRV_STAT_dsm k then
      (((Table.find d.recr.drives k).map (·.nss)).getD []).foldl (fun d n => d.nvmeIssue k .dealloc (some (n.nsid, 0))) d
    else d) d
  let d := d.drivesShow.lostSlots
  ((d.writeAnchors .indexAnchor 1 0 (List.replicate ((d.ringSlots + 255) / 256) (d.recr.idxBlock 0))).oldest).raise 0x0D0F 0

/-- The slot after a rebuild's batch that begins at slot j, and the slots of that batch on drive k (R318). -/
def Dev.batchEnd (d : Dev) (j : Nat) : Nat := min (j + 8192) d.ringSlots
def Dev.batchOn (d : Dev) (j k : Nat) : List Nat :=
  ((List.range (d.batchEnd j - j)).map (j + ·)).filter (fun i => d.slotDrive i == some k)

/-- A batch is read: the index takes it and a checkpoint is written (R318). -/
def Dev.batchRead (d : Dev) (slot : Nat) : Dev :=
  let next := d.batchEnd slot
  let d := d.onRec (fun s => { s with rebuilding := some next })
  let d := ((d.indexFrom slot next).lostSlots).set .REC_REBUILD_rb_slot 0 next
  d.writeAnchors .ckpt 2 next ((List.range ((next - slot + 255) / 256)).map (fun b => d.recr.idxBlock (slot + 256 * b)))

/-- The batch from slot j on is read from every drive present that holds slots of it. -/
def Dev.batchStart (d : Dev) (j : Nat) : Dev :=
  match d.presentDrives.filter (fun k => !(d.batchOn j k).isEmpty) with
  | [] => d.batchRead j
  | ks => ks.foldl (fun d k => d.nvmeIssue k (.rebuildRead j) ((d.batchOn j k).head?.bind (d.slotBlock · 0))) d

/-- A rebuild begins, or resumes at a checkpoint with the index as written up to there (R318): event 0x0D07. -/
def Dev.rebuildStart (d : Dev) (from_ : Nat) (resumed : Bool) (blocks : List (List Byte)) : Dev :=
  let d := (d.recState 2).onRec (fun s => { s with rebuilding := some from_, index := [], nvme := s.readsOnly, resumed := resumed })
  let d := (d.indexLoad blocks from_).lostSlots
  let d := (d.set .REC_REBUILD_rb_slot 0 from_).set .REC_REBUILD_rb_busy 0 1
  let d := if resumed then d.bump .REC_REBUILD_rb_resumes 0 1 else d
  (d.raise 0x0D07 (2 * bitNat resumed)).batchStart from_

/-- Every slot has been read: the chain is walked, orphans marked, the anchor CONSISTENT (R318, R319). -/
def Dev.rebuildEnd (d : Dev) : Dev :=
  let (d, n) := d.markOrphans
  let d := if n = 0 then d else d.raise 0x0D0A (min n 65535)
  let d := (d.onRec (fun s => { s with rebuilding := none })).set .REC_REBUILD_rb_busy 0 0
  ((d.writeAnchors .indexAnchor 1 0 ((List.range ((d.ringSlots + 255) / 256)).map (fun b => d.recr.idxBlock (256 * b)))).raise
    0x0D07 (1 + 2 * bitNat d.recr.resumed)).recFinish

/-- Drive k has read its slots of the batch from `slot` on; the last drive to do so ends the batch. -/
def Dev.rebuildBatch (d : Dev) (k slot : Nat) (l : List SegScan) : Dev :=
  let d := d.onRec (fun s => { s with scans := ((d.batchOn slot k).zip l).foldl (fun t p => Table.ins t p.1 p.2) s.scans })
  if d.recr.nvme.any (fun c => c.what == .rebuildRead slot) then d else d.batchRead slot

/-- The checkpoint is on every live drive and flushed: the next batch, or the end. -/
def Dev.rebuildNext (d : Dev) : Dev :=
  match d.recr.rebuilding with
  | none => d
  | some n =>
    if d.recr.nvme.any (fun c => c.what == .ckpt || c.what == .flushCkpt) then d
    else if d.ringSlots ≤ n then d.rebuildEnd
    else d.batchStart n

/-- The SMART log of drive k (R303, R316): wear and warning, and the tick of its reading. -/
def Dev.smartLog (d : Dev) (k : Nat) (pct warn : Byte) (duw : BitVec 64) : Dev :=
  let thr := d.get .REC_CTL_wear_thr 0
  let worn := decide (d.get .REC_DRV_STAT_pct_used k < thr) && decide (thr ≤ pct.toNat)
  let changed := d.get .REC_DRV_STAT_crit_warn k != warn.toNat
  let d := (d.set .REC_DRV_STAT_pct_used k pct.toNat).set .REC_DRV_STAT_crit_warn k warn.toNat
  let d := (d.setWord .REC_DRV_DUW_LO k (BitVec.ofNat 32 duw.toNat)).setWord .REC_DRV_DUW_HI k (BitVec.ofNat 32 (duw.toNat / 2 ^ 32))
  if worn || changed then (d.set .REC_EVT_health 0 1).raise 0x0D04 (k + warn.toNat * 256) else d

/-- The SMART log of drive k is read from now on every 60 s (R303). -/
def Dev.smartFrom (d : Dev) (k : Nat) : Dev := d.onRec (fun s => { s with smartAt := Table.ins s.smartAt k d.ticks })

/-- Drive k as found (R317 step 1), on the link that rp_bif gives it (R302). -/
def Dev.driveFound (d : Dev) (k : Nat) (i : DriveInfo) : Dev :=
  let d := (d.onRec (fun s => { s with drives := Table.ins s.drives k { i with idx := [], segs := [] } })).smartFrom k
  let width := min i.width.toNat (2 - d.get .REC_CTL_rp_bif 0)
  let d := ((d.set .REC_DRV_STAT_drv_state k 2).set .REC_DRV_STAT_width k width).setB .REC_DRV_STAT_vwc k i.vwc
  let d := ((d.setB .REC_DRV_STAT_dsm k i.dsm).set .REC_DRV_STAT_ns_used k i.nss.length).set .REC_DRV_SLOTS_dslots k (driveSlots i)
  ((d.set .REC_EVT_drive_chg 0 1).raise 0x0D02 (k + i.nss.length * 16)).smartLog k i.pctUsed i.critWarn i.duw

/-- What was read of the drives' slots, numbered over the ring: the slots of a drive known from before that is not read now, a
FAILED one, keep their numbers (R305). -/
def scansOf (known : Table DriveInfo) (l : List (Option DriveInfo)) : Table SegScan :=
  ((known.flatMap (fun e =>
    (((l.getD e.1 none).map (·.segs)).getD [] ++ List.replicate (driveSlots e.2) segBlank).take (driveSlots e.2))).zipIdx.take
    262144).map (fun p => (p.2, p.1))

/-- A drive whose slots carry only another ring's identity is FOREIGN (R317). -/
def Dev.foreignCheck (d : Dev) (k : Nat) : Dev :=
  let xs := (d.recr.scans.filter (fun e => d.slotDrive e.1 == some k)).map (fun e => scanState d.recr.ringId d.rings e.2)
  if xs.contains 4 && xs.all (fun st => st == 0 || st == 4) then
    ((d.set .REC_DRV_STAT_drv_state k 3).set .REC_EVT_drive_chg 0 1).raise 0x0D09 k
  else d

/-- No drive is usable: NO_RING. -/
def Dev.noRing (d : Dev) : Bool := (List.range d.ringSlots).all (fun j => !d.slotLive j)

/-- The usable anchor and its drive: valid, of the drives present, with the highest anchor_seq (R306, R317). -/
def Dev.bestAnchor (d : Dev) : Option (Nat × Anchor) :=
  let as := d.recr.drives.filterMap (fun e => (Anchor.read e.2.anchor).map (fun a => (e.1, a)))
  match as.find? (fun a => as.all (fun b => decide (b.2.seq ≤ a.2.seq))) with
  | some a => if a.2.mapCrc == d.mapCrc then some a else none
  | none => none

/-- The ring that a full rebuild without an anchor takes: that of the header with the highest seg_seq (log entry 20). -/
def Dev.guessRing (d : Dev) : BitVec 64 :=
  let xs := (d.recr.scans.map (·.2)).filter segHdrOk
  ((xs.find? (fun x => xs.all (fun y => decide (segSeq y ≤ segSeq x)))).map segRing).getD 0

/-- No slot of any ring on any drive (R317): no valid header, but those of rings that the anchors no longer name. -/
def Dev.noSlots (d : Dev) : Bool :=
  d.recr.scans.all (fun e => !segHdrOk e.2 || (!d.anchorRings.isEmpty && !d.anchorRings.contains (segRing e.2)))

/-- The links that rp_bif gives the root port (R302). -/
def Dev.rpLinks (d : Dev) : Nat :=
  if d.get .REC_CTL_rp_bif 0 = 0 then 1 else if d.get .REC_CTL_rp_bif 0 = 1 then 2 else 4

/-- Discovery begins: the drive on each link that has not failed is brought up with the commands of R303 (R317 step 1). -/
def Dev.discover (d : Dev) : Dev :=
  let d := d.recState 1
  if !d.pdOn domRecPort || !d.pdOn domRecEng then d
  else
    ((List.range d.rpLinks).filter (fun k => d.drvState k != 1)).foldl (fun d k =>
      [.identify 1, .identify 2, .identify 0, .setFeatures, .createCq, .createSq, .smart, .startRead].foldl
        (fun d w => d.nvmeIssue k w) d) d

/-- RECORDER_DISCOVERY (R317). -/
def Dev.recDiscover (d : Dev) (found : List (Option DriveInfo)) : Dev :=
  if d.get .REC_STAT_rec_state 0 ≠ 1 || !d.pdOn domRecPort || !d.pdOn domRecEng then d
  else
    let use := (found.zipIdx).map (fun p => if p.2 < d.rpLinks && d.drvState p.2 != 1 then p.1.map usedDrive else none)
    let d := (d.onRec (fun s => { s with
      drives := s.drives.filter (fun e => d.drvState e.1 == 1), scans := [], index := [], nvme := s.readsOnly, seg := none
      rebuilding := none, closing := false })).set .REC_STAT_committing 0 0
    let d := (use.zipIdx).foldl (fun d p => match p.1 with
      | some i => d.driveFound p.2 i
      | none => if d.drvState p.2 = 1 then d else d.set .REC_DRV_STAT_drv_state p.2 0) d
    let d := (d.onRec (fun s => { s with scans := scansOf s.drives use })).drivesShow
    let d := d.set .REC_SLOTS_slots 0 d.ringSlots
    if d.noRing then d.recState 5
    else if d.noSlots && d.bit .REC_CTL_auto_format 0 then d.recFormat.recFinish
    else if d.noSlots && d.bestAnchor.isNone then d.recState 5
    else
      let a := d.bestAnchor
      let ring := match a with | some a => a.2.ringId | none => d.guessRing
      let d := d.onRec (fun s => { s with ringId := ring, anchorSeq := (a.map (·.2.seq)).getD 0 })
      let d := ((List.range 4).foldl (fun d k => if d.drvState k = 2 then d.foreignCheck k else d) d).drivesShow
      if d.noRing then d.recState 5
      else
        match a with
        | some (k, a) =>
          let blocks := (((found.getD k none).map (·.idx)).getD [])
          if a.state = 1 then ((d.indexLoad blocks d.ringSlots).indexFollow d.ringSlots a.newest a.newestSeq).recFinish
          else d.rebuildStart a.ckpt true blocks
        | none => d.rebuildStart 0 false []

def execRecorderDiscovery (found : List (Option DriveInfo)) (s : State) : Host.Outcome State Fault Refusal :=
  .next (s.onDev (·.recDiscover found))

/-! ### NVMe commands (R303, R304, R316, R321) -/

/-- A read service operation ends (R322): its Read, where one is out, leaves the queue; status, event 0x0D0B with rd_irq. -/
def Dev.readEnd (d : Dev) (status : Nat) : Dev :=
  let d := match d.recr.nvme.find? (fun c => c.what == .read) with
    | some c => d.onRec (·.drop c d.ticks)
    | none => d
  let d := (d.onRec (fun s => { s with rdOp := none })).set .REC_RD_CMD_busy 0 0
  let d := (d.set .REC_RD_CMD_status 0 status).set .REC_EVT_read_done 0 1
  d.raiseIf (d.bit .REC_RD_CMD_rd_irq 0) 0x0D0B status

/-- Drive k becomes FAILED (R321). The prev_b of the segment opened behind one that is lost with it, without its trailer B,
is a free value (log entry 2). -/
def Dev.driveFailed (d : Dev) (k : Nat) : Dev :=
  let own := d.recr.seg.isSome && d.segDrive == k
  let d := ((d.set .REC_DRV_STAT_drv_state k 1).set .REC_EVT_drive_chg 0 1).raise 0x0D03 k
  let reads := d.recr.nvme.any (fun c => c.drive == k && c.what == .read)
  let d := d.onRec (fun s => { s with nvme := s.nvme.filter (fun c => c.drive != k) })
  let d := (if reads then d.readEnd 2 else d).lostSlots.drivesShow.oldest
  match d.recr.rebuilding, (if own then d.recr.seg else none) with
  | some _, _ => if d.noRing then d.recState 5 else d.rebuildStart 0 false []
  | none, some g =>
    let (v, d) := if g.trB = 0 then d.draw else (g.trB, d)
    let d := d.onRec (fun s => { s with
      staged := ⟨gapRec 5 0xFFFF g.pages d.dtime, 0, 0⟩ :: s.staged, closing := false })
    (d.set .REC_STAT_committing 0 0).openSlot (g.slot + 1) g.slot (g.seq + 1) (g.alive + 1) v
  | none, none => if d.noRing && d.get .REC_STAT_rec_state 0 = 3 then d.recState 5 else d.commitStep .indexAnchor

/-- One controller reset of drive k: its commands are issued again. -/
def Dev.nvmeReset (d : Dev) (k : Nat) : Dev :=
  d.onRec (fun s => { s with
    resets := Table.ins s.resets k d.ticks, nvme := s.nvme.map (fun c => if c.drive = k then { c with tick := d.ticks } else c) })

/-- R304: an I/O command of drive k, a Read of the read service among them, fails: one controller reset; a second failure within 60 s marks the drive FAILED. -/
def Dev.nvmeFailed (d : Dev) (k : Nat) : Dev :=
  if d.drvState k < 2 then d
  else
    match Table.find d.recr.resets k with
    | some t => if d.ticks < t + msTicks 60000 then d.driveFailed k else d.nvmeReset k
    | none => d.nvmeReset k

/-- NVME_TIMEOUT: an I/O command on the queue of drive k has had no completion within 5 s. -/
def Dev.nvmeTimeout (d : Dev) (k : Nat) : Dev :=
  if (d.recr.posted k false).any (fun c => decide (c.tick + msTicks 5000 ≤ d.ticks)) then d.nvmeFailed k else d

def execNvmeTimeout (k : Drive) (s : State) : Host.Outcome State Fault Refusal :=
  .next (s.onDev (·.nvmeTimeout k.val))

/-- NVME_COMPLETION: the oldest command of the drive, but a Read of the read service, has ended. A retriable error issues it
again. -/
def Dev.nvmeDone (d : Dev) (k : Nat) (r : NvmeResult) : Dev :=
  match d.recr.nvme.find? (fun c => c.drive == k && c.what != .read) with
  | none => d
  | some c =>
    match r with
    | .error _ retriable =>
      if c.what.admin then d.onRec (·.drop c d.ticks)
      else if retriable then d else d.nvmeFailed k
    | _ =>
      let d := d.onRec (·.drop c d.ticks)
      match c.what, r with
      | .smart, .smart p w u => d.smartLog k p w u
      | .rebuildRead j, .segs l => d.rebuildBatch k j l
      | .rebuildRead j, _ => d.rebuildBatch k j []
      | .ckpt, _ => d.nvmeIssue k .flushCkpt
      | .flushCkpt, _ => d.rebuildNext
      | w, _ => d.commitStep w

def execNvmeCompletion (k : Drive) (r : NvmeResult) (s : State) : Host.Outcome State Fault Refusal :=
  .next (s.onDev (·.nvmeDone k.val r))

/-- SMART_POLL: the log of a live drive is read, 60 s after it was last (R303). -/
def Dev.smartPoll (d : Dev) (k : Nat) : Dev :=
  if d.drvState k = 2 && d.pdOn domRecEng && decide (Table.get d.recr.smartAt k 0 + msTicks 60000 ≤ d.ticks) then
    (d.nvmeIssue k .smart).smartFrom k
  else d

def execSmartPoll (k : Drive) (s : State) : Host.Outcome State Fault Refusal := .next (s.onDev (·.smartPoll k.val))

/-! ### Commands (R320) -/

/-- A refused REC_CMD operation. -/
def Dev.recRefuse (d : Dev) : Dev := d.set .REC_EVT_cmd_err 0 1

/-- Whether an operation that needs a STOPPED RECORDER is accepted. -/
def Dev.recIdle (d : Dev) : Bool := d.stopped .recorder 0 && d.pdOn domRecPort && d.pdOn domRecEng

/-- FORMAT. -/
def Dev.recFormatCmd (d : Dev) (key : Nat) : Dev :=
  if !d.recIdle || key ≠ 0x464D then d.recRefuse else let d := d.recFormat; d.recState (if d.noRing then 5 else 4)

def execFormat (key : BitVec 16) (s : State) : Host.Outcome State Fault Refusal := .next (s.onDev (·.recFormatCmd key.toNat))

/-- RESCAN: discovery begins again, FAILED drives with it. -/
def Dev.recRescan (d : Dev) : Dev :=
  if !d.recIdle then d.recRefuse
  else
    let d := (List.range 4).foldl (fun d k => if d.drvState k = 1 then d.set .REC_DRV_STAT_drv_state k 0 else d) d
    (d.onRec (fun s => { s with resets := [] })).discover

def execRescan (s : State) : Host.Outcome State Fault Refusal := .next (s.onDev (·.recRescan))

/-- REBUILD. -/
def Dev.recRebuild (d : Dev) : Dev :=
  if !d.recIdle then d.recRefuse else if d.noRing then d.recState 5 else d.rebuildStart 0 false []

def execRebuild (s : State) : Host.Outcome State Fault Refusal := .next (s.onDev (·.recRebuild))

/-- CLOSE: the open segment is due for commit, if its commit is not in progress already. -/
def Dev.recClose (d : Dev) : Dev :=
  if d.get .REC_STAT_rec_state 0 = 3 && d.running .recorder 0 then
    d.onRec (fun s => { s with closing := s.closing || !d.bit .REC_STAT_committing 0 })
  else d.recRefuse

def execClose (s : State) : Host.Outcome State Fault Refusal := .next (s.onDev (·.recClose))

/-- START of the RECORDER: discovery begins (R317), unless it is disabled. -/
def Dev.recStart (d : Dev) : Dev := if d.bit .REC_CTL_en 0 then d.discover else d.recState 0

/-- STOP of the RECORDER: the partly filled page is written (R308). -/
def Dev.recStop (d : Dev) : Dev :=
  let d := if d.bit .REC_STAT_ready 0 then d.partPage else d
  d.recState (if d.get .REC_STAT_rec_state 0 = 0 then 0 else 4)

/-- PD_RECENG is off: its commands are lost. The staging SRAM, with the early ring in it, lies in no switched domain (R384). -/
def Dev.recOff (d : Dev) : Dev :=
  (d.recState 0).onRec (fun s => { s with
    drives := [], scans := [], index := [], seg := none, nvme := []
    rebuilding := none, rdOp := none, closing := false, capBox := [], bootDue := false })

/-! ### The read service (R322) -/

/-- A command written while busy: discarded, status 3. -/
def Dev.readCmd (d : Dev) (f : Dev → Dev) : Dev := if d.bit .REC_RD_CMD_busy 0 then d.set .REC_RD_CMD_status 0 3 else f d

/-- Whether discovery has found drive k and it has not failed. -/
def Dev.driveKnown (d : Dev) (k : Nat) : Bool := (Table.find d.recr.drives k).isSome && 2 ≤ d.drvState k && d.pdOn domRecEng

/-- A read of blocks of drive k from a place on begins (op 1 READ, 2 ANCHOR): its Read goes to the drive's queue. Where there is
no such drive it ends at once with status 1. -/
def Dev.readBegin (d : Dev) (op : Nat) (k : Option Nat) (place : Option (Nat × Nat)) : Dev :=
  match k.filter d.driveKnown with
  | none => d.readEnd 1
  | some k =>
    let d := if op = 1 then (List.range 4).foldl (fun d w => d.setWord .REC_RD_BAD w 0) d else d
    ((d.onRec (fun s => { s with rdOp := some op })).nvmeIssue k .read place).set .REC_RD_CMD_busy 0 1

/-- READ. -/
def Dev.rdRead (d : Dev) : Dev :=
  d.readCmd (fun d =>
    let j := d.get .REC_RD_ARG0_arg0 0
    d.readBegin 1 (if j < d.ringSlots then d.slotDrive j else none) (d.slotBlock j (d.get .REC_RD_ARG1_arg1 0)))

def execRead (s : State) : Host.Outcome State Fault Refusal := .next (s.onDev (·.rdRead))

/-- ANCHOR. -/
def Dev.rdAnchor (d : Dev) : Dev :=
  d.readCmd (fun d =>
    let k := d.get .REC_RD_ARG0_arg0 0
    d.readBegin 2 (some k) (d.anchorBlock k (d.get .REC_RD_ARG1_arg1 0)))

def execAnchor (s : State) : Host.Outcome State Fault Refusal := .next (s.onDev (·.rdAnchor))

/-- LOOKUP: the slot whose seconds contain ARG0, from the running index. -/
def Dev.rdLookup (d : Dev) : Dev :=
  d.readCmd (fun d =>
    let t := d.get .REC_RD_ARG0_arg0 0
    let hit := d.recr.index.find? (fun e => 1 ≤ e.2.st && e.2.st ≤ 5 && e.2.st != 4 && e.2.first ≤ t && t ≤ e.2.last)
    ((d.set .REC_RD_RES_slot 0 ((hit.map (·.1)).getD 0)).setB .REC_RD_RES_found 0 hit.isSome).readEnd 0)

def execLookup (s : State) : Host.Outcome State Fault Refusal := .next (s.onDev (·.rdLookup))

/-- CANCEL: the operation in progress ends with status 4. -/
def Dev.rdCancel (d : Dev) : Dev := if d.bit .REC_RD_CMD_busy 0 then d.readEnd 4 else d

def execReadCancel (s : State) : Host.Outcome State Fault Refusal := .next (s.onDev (·.rdCancel))

/-- The Read of the read service, where its drive's queue holds it. -/
def Dev.readOut (d : Dev) : Option NvmeCmd :=
  (d.recr.nvme.find? (fun c => c.what == .read)).filter (fun c => (d.recr.posted c.drive false).contains c)

/-- READ_COMPLETE: the aperture takes the blocks; pages are checked; sc ≠ 0 is an NVMe error, which with the Do Not Retry bit
of NVMe is not retriable and counts against the drive (R304; log entry 99). -/
def Dev.readComplete (d : Dev) (blocks : List (List Byte)) (sc : BitVec 16) : Dev :=
  match d.recr.rdOp, d.readOut with
  | none, _ => d
  | _, none => d
  | some op, some c =>
    if sc ≠ 0 then
      let d := (d.set .REC_RD_CMD_sc 0 sc.toNat).readEnd 2
      if sc.getLsbD 14 then d.nvmeFailed c.drive else d
    else
      let n := d.get .REC_RD_CMD_count 0
      let bs := blocks.take (min n 128)
      let lo := d.get .REC_RD_ARG1_arg1 0
      let d := d.onRec (fun s => { s with aper := bs ++ s.aper.drop bs.length })
      let bad := (bs.zipIdx).filter (fun p => op == 1 && 1 ≤ lo + p.2 && lo + p.2 ≤ 16381 && pageBad p.1)
      let d := bad.foldl (fun d p =>
        d.setWord .REC_RD_BAD (p.2 / 32) (d.word .REC_RD_BAD (p.2 / 32) ||| BitVec.ofNat 32 (2 ^ (p.2 % 32)))) d
      d.readEnd 0

def execReadComplete (blocks : List (List Byte)) (sc : BitVec 16) (s : State) : Host.Outcome State Fault Refusal :=
  .next (s.onDev (·.readComplete blocks sc))

end Sys2Proof.Machine
end

