-- ==== Sys2Proof/Machine/Capture.lean ====
section
/-!
DEFINITION. Photo-finish capture (R323–R327): admission, the hook, triggers, copying, and the commands of a slot.
-/
namespace Sys2Proof.Machine

/-- cs_state of slot k: 0 OFF, 1 WAIT, 2 FILLING, 3 ARMED, 4 POST, 5 COPYING, 6 DONE. -/
def Dev.cs (d : Dev) (k : Nat) : Nat := d.get .REC_CS_STAT_cs_state k

/-- Bytes of a captured frame of channel c, 0 for a format without an aligner (R323). -/
def Dev.capBytes (d : Dev) (c : Nat) : Nat :=
  let m := d.mode c
  if isGfec m then 16320 else if m = 1 then 155520 else if isFlexO m then 87040 * d.groupSize c else 0

/-- The channel of slot k, and its charge in kbit/s (R324). -/
def Dev.capChan (d : Dev) (k : Nat) : Nat := d.get .REC_CS_CFG_chan k
def Dev.capCharge (d : Dev) (k : Nat) : Nat := laneKbps (d.mode (d.capChan k)) * d.groupSize (d.capChan k)

/-- Whether the channel of a slot breaks checks 0x4A or 0x4B of R327, for the values given. -/
def Dev.capChanBad (d : Dev) (c : Nat) : Bool := decide (191 < c) || d.capBytes c == 0 || d.leader c != c
def Dev.capDepthBad (d : Dev) (c pre post : Nat) : Bool := decide (2 ^ 25 < (pre + post + 1) * d.capBytes c)

/-- Cells that the quota of the queue of slot k must hold (R324). -/
def Dev.capCells (d : Dev) (k : Nat) : Nat :=
  ((d.get .REC_CS_DEPTH_pre k + d.get .REC_CS_DEPTH_post k + 2) * d.capBytes (d.capChan k) + 447) / 448 + 1

/-- The causes of R324 that fail for slot k, but the budget: bits 0, 1, 2 and 4 of the field. -/
def Dev.capFails (d : Dev) (k : Nat) : Nat :=
  let q := d.capQueue k
  lvlMask (fun b => match b with
    | 0 => !(d.bit .REC_STAT_ready 0 && d.bit .CPL_POOL_STAT_pool_ready 0)
    | 1 => !(q.any (d.running .queue))
    | 2 => !(q.any (fun i => decide (d.capCells k ≤ d.get .CPL_Q_QUOTA_quota i)))
    | 4 => d.capChanBad (d.capChan k) || d.capDepthBad (d.capChan k) (d.get .REC_CS_DEPTH_pre k) (d.get .REC_CS_DEPTH_post k)
    | _ => false)

/-- The slots that are charged, and what they charge. -/
def Dev.capCharged (d : Dev) : List Nat := (List.range 64).filter (fun k => 2 ≤ d.cs k && d.cs k ≤ 4)
def Dev.capUsed (d : Dev) : Nat := d.capCharged.foldl (fun n k => n + d.capCharge k) 0
/-- The budget in kbit/s. -/
def Dev.capBudget (d : Dev) : Nat := d.get .REC_CAP_BUDGET_budget 0 * 10 ^ 6

/-- The slots of a list that fit into the budget beyond `used`, admitted in the order of the list. -/
def Dev.capFit (d : Dev) (used : Nat) (ks : List Nat) : List Nat :=
  (ks.foldl (fun (a : Nat × List Nat) k =>
    if a.1 + d.capCharge k ≤ d.capBudget then (a.1 + d.capCharge k, a.2 ++ [k]) else a) (used, [])).2

/-- Whether the budget has room for slot k: a slot that is charged among those charged, in ascending order; one in WAIT
beside those charged, after the slots below it that wait for nothing else (R324). -/
def Dev.capRoom (d : Dev) (k : Nat) : Bool :=
  if 2 ≤ d.cs k && d.cs k ≤ 4 then (d.capFit 0 d.capCharged).contains k
  else if d.cs k = 1 then
    (d.capFit d.capUsed ((List.range (k + 1)).filter (fun j => d.cs j == 1 && d.capFails j == 0))).contains k
      || (d.capFails k != 0 && decide (d.capUsed + d.capCharge k ≤ d.capBudget))
  else true

/-- The causes of slot k as its status shows them: [3] to [7] of the register. -/
def Dev.capCauses (d : Dev) (k : Nat) : Nat := d.capFails k ||| (if d.capRoom k then 0 else 8)

/-- REC_CAP_BUDGET.used: the charge in Gbit/s, rounded up. -/
def Dev.capShow (d : Dev) : Dev := d.set .REC_CAP_BUDGET_used 0 ((d.capUsed + 999999) / 10 ^ 6)

/-- Slot k goes to a state, with its causes in WAIT and none elsewhere. -/
def Dev.capGo (d : Dev) (k st : Nat) : Dev :=
  let d := d.set .REC_CS_STAT_cs_state k st
  (d.set .REC_CS_STAT_cause k (if st = 1 then d.capCauses k else 0)).capShow

/-- Slot k begins FILLING at wr of its queue; with no frame to come before the trigger it is ARMED. -/
def Dev.capFill (d : Dev) (k : Nat) : Dev :=
  (d.setCap k { CapSt.init with size := d.capBytes (d.capChan k), w0 := ((d.capQueue k).map d.qWr).getD 0 }).capGo k
    (if d.get .REC_CS_DEPTH_pre k = 0 then 3 else 2)

/-- CAPTURE_ADMIT: slot k in WAIT is examined (R324). -/
def Dev.capAdmit (d : Dev) (k : Nat) : Dev :=
  if d.cs k ≠ 1 then d else if d.capCauses k = 0 then d.capFill k else d.capGo k 1

def execCaptureAdmit (k : CapSlot) (s : State) : Host.Outcome State Fault Refusal := .next (s.onDev (·.capAdmit k.val))

/-! ### Copying (R326) -/

/-- Cells from w0 to rel of the slot's queue. -/
def Dev.capRel (d : Dev) (k q : Nat) : Nat :=
  let off := (d.qRel q - (d.cap k).w0).toNat
  if 2 ^ 31 ≤ off then 0 else off

/-- The first whole frame at or after rel. -/
def Dev.capWhole (d : Dev) (k q b : Nat) : Nat := if b = 0 then 0 else (448 * d.capRel k q + b - 1) / b

/-- The cells the queue holds from the w-th cell after w0 on. -/
def State.capCellsFrom (s : State) (k q w : Nat) : List Nat :=
  let lo := (s.dev.qRel q - (s.dev.cap k).w0).toNat
  let cells := (s.pool.queue q).cells
  if 2 ^ 31 ≤ lo then cells.drop (w + (2 ^ 32 - lo)) else cells.drop (w - lo)

/-- The n frames of a capture of slot k from its first frame on, to be read as they are staged. -/
def Dev.capFrames (d : Dev) (k n : Nat) : List Frag :=
  let c := d.cap k
  (List.range n).map (fun j =>
    let f := c.first + j
    { isRead := false, slot := k, num := d.get .REC_CS_STAT_cap_num k, frame := (f : Int) - c.trig, off := 0, data := []
      poison := false, at_ := c.times.getD (c.frames - 1 - f) 0 })

/-- Whether a cell that holds n frames of a capture from its first frame on is poisoned when the copy begins. -/
def State.capPoison (s : State) (k q b n : Nat) : Bool :=
  let f := (s.dev.cap k).first
  ((s.capCellsFrom k q (f * b / 448)).take (((f + n) * b + 447) / 448 - f * b / 448)).any (fun x => (s.pool.hdr x).poison)

/-- The bytes that a record of capture copy which waits for staging will use of a page, and whether it is cut. -/
def Dev.copySize (d : Dev) : CopyItem → Nat × Bool
  | .header _ r => (r.size, false)
  | .frame f => (if f.isRead then f.data.length else (d.cap f.slot).size, true)

/-- The fragments that n frames of b bytes are cut into (R326), as the page ends fall behind what waits for staging and the
CAPT_HDR record, with nothing between (DEDUCED, log entry 100). -/
def Dev.capFrags (d : Dev) (n b : Nat) : Nat :=
  let used := match d.pageAhead.recr.seg with | some g => g.used | none => 24
  let step (u : Nat) (x : Nat × Bool) : Nat :=
    if x.2 then (cutFrame (x.1 + 1) u 0 x.1).1 else if 4096 < u + x.1 then 24 + x.1 else u + x.1
  let used := step ((d.recr.capBox.map d.copySize).foldl step used) (48, false)
  ((List.range n).foldl (fun (a : Nat × Nat) _ => cutFrame (b + 1) a.1 a.2 b) (used, 0)).2

/-- The CAPT_HDR record (R311). -/
def Dev.capHeader (d : Dev) (k pre flags : Nat) (frags : Word) : Rec :=
  let c := d.cap k
  ⟨c.trigAt, 0x09, false, [BitVec.ofNat 8 k, BitVec.ofNat 8 (d.get .REC_CS_CFG_trig_kind k)]
    ++ leBytes 2 (d.get .REC_CS_STAT_cap_num k) ++ leBytes 2 (d.capChan k)
    ++ [BitVec.ofNat 8 (d.mode (d.capChan k)), BitVec.ofNat 8 flags] ++ leBytes 4 c.size ++ leBytes 2 pre
    ++ leBytes 2 (d.get .REC_CS_DEPTH_post k) ++ leBytes 8 c.trigAt.toNat ++ leBytes 4 (d.get .REC_CS_TRIG_trig k)
    ++ leBytes 4 frags.toNat ++ List.replicate 8 0⟩

/-- POST ends: the hook stops, the queue is rewound to the mark (to the first whole frame from rel where the mark was lost,
with its flag), and the header and the frames await staging. -/
def State.capCopy (s : State) (k : Nat) (cut : Bool) (after : Option Nat) : State :=
  let d := s.dev
  let c := d.cap k
  let b := c.size
  match d.capQueue k with
  | none => s.onDev (fun d => (d.setCap k { c with cut := cut, after := after }).capGo k 5)
  | some q =>
    let lost := !d.bit .CPL_Q_STAT_mark_valid q
    let first := if lost then max c.first (d.capWhole k q b) else c.first
    let d := if lost then d.setWord .CPL_Q_RD q (c.w0 + BitVec.ofNat 32 (first * b / 448)) else d.qRewind q
    let d := d.setCap k { c with first := first, cut := cut, after := after, skip := first * b % 448, rbuf := [], rPoison := false }
    let n := if b = 0 then 0 else min (c.trig + d.get .REC_CS_DEPTH_post k + 1) c.frames - first
    let fs := d.capFrames k n
    let poison := ({ s with dev := d } : State).capPoison k q b n
    let h := d.capHeader k (d.get .REC_CS_LAST_pre_got k) (bitNat cut + 2 * bitNat lost + 4 * bitNat poison)
      (BitVec.ofNat 32 (d.capFrags n b))
    let d := d.onRec (fun x => { x with capBox := x.capBox ++ [.header k h] ++ fs.map .frame })
    let d := (d.setB .REC_CS_LAST_truncated k cut).setB .REC_CS_LAST_poison k poison
    { s with dev := d.capGo k 5 }

/-- CAPTURE_POST_DONE: frame trigger + post is written. -/
def State.capPostDone (s : State) (k : Nat) : State :=
  let c := s.dev.cap k
  if s.dev.cs k = 4 && c.trig + s.dev.get .REC_CS_DEPTH_post k < c.frames then s.capCopy k false none else s

def execCapturePostDone (k : CapSlot) (s : State) : Host.Outcome State Fault Refusal := .next (s.capPostDone k.val)

/-- The state of slot k follows its unit and R324: OFF when the unit is not RUN or the slot is disabled, WAIT when R324
fails; a capture in POST is then copied as far as written, and a copy in progress ends first. -/
def State.capFollow (s : State) (k : Nat) : State :=
  let d := s.dev
  let st := d.cs k
  if st = 0 then s
  else if !d.running .cslot k || !d.bit .REC_CS_CFG_en k then
    if st = 4 then s.capCopy k true (some 0)
    else if st = 5 then s.onDev (fun d => d.setCap k { d.cap k with after := some 0 })
    else s.onDev (·.capGo k 0)
  else if st = 5 then s
  else if d.capCauses k = 0 then (if st = 1 then s.onDev (·.capGo k 1) else s)
  else if st = 4 then s.capCopy k true (some 1)
  else s.onDev (·.capGo k 1)

/-- Every slot that is not OFF. -/
def State.capEval (s : State) : State := (s.dev.listed .REC_CS_STAT).foldl (fun s k => s.capFollow k) s

/-- CAPTURE_COPY_DONE: the last fragment is staged. The queue is released to wr; the slot goes on to FILLING when it
re-arms, to DONE otherwise, or to what a STOP, a DISARM or a failing condition asked for. -/
def State.capCopyDone (s : State) (k : Nat) : State :=
  let d := s.dev
  let waits := d.recr.capBox.any (fun i => match i with | .header j _ => j == k | .frame f => f.slot == k)
  if d.cs k ≠ 5 || waits then s
  else
    let p := d.bit .REC_CS_LAST_poison k
    let s := match d.capQueue k with
      | some q => s.qReleaseTo q (d.qWr q)
      | none => s
    let c := s.dev.cap k
    let s := s.onDev (fun d =>
      let d := (d.bump .REC_CS_CNT_captures k 1).set .REC_EVT_capture 0 1
      let d := d.raise 0x0D0D (k + 64 * bitNat (d.bit .REC_CS_LAST_truncated k) + 128 * bitNat p)
      match c.after with
      | some st => (d.setCap k .init).capGo k st
      | none => if d.bit .REC_CS_CFG_rearm k then d.capFill k else (d.setCap k .init).capGo k 6)
    s.capFollow k

def execCaptureCopyDone (k : CapSlot) (s : State) : Host.Outcome State Fault Refusal := .next (s.capCopyDone k.val)

/-! ### The hook (R323) -/

/-- Boundaries kept: those of as many frames as the queue can hold, and two more. -/
def Dev.capKept (d : Dev) (q b : Nat) : Nat := if b = 0 then 0 else d.get .CPL_Q_QUOTA_quota q * 448 / b + 2

/-- CAPTURE_FRAME: one frame, at its boundary, goes into the queue. -/
def State.capFrame (s : State) (k : Nat) (data : List Byte) : State :=
  let s := s.capFollow k
  let d := s.dev
  match d.capQueue k with
  | none => s
  | some q =>
    if !(2 ≤ d.cs k && d.cs k ≤ 4) || !d.pdOn domCapt then s
    else
      let c := d.cap k
      let b := c.size
      let (s, left) := s.pushCells q (c.wbuf ++ (data ++ List.replicate b 0).take b)
      s.onDev (fun d =>
        let d := d.setCap k { c with frames := c.frames + 1, wbuf := left, times := (d.dtime :: c.times).take (d.capKept q b) }
        if d.cs k = 2 && d.get .REC_CS_DEPTH_pre k ≤ c.frames + 1 then d.capGo k 3 else d)

def execCaptureFrame (k : CapSlot) (data : List Byte) (s : State) : Host.Outcome State Fault Refusal :=
  .next (s.capFrame k.val data)

/-! ### Triggers and slot commands (R325, R326) -/

/-- The latest frame whose boundary is not after a trigger; the oldest kept where there is none. -/
def CapSt.frameAt (c : CapSt) (at_ : DTime) : Nat :=
  let j := (c.times.findIdx (fun t => decide (t ≤ at_)))
  c.frames - 1 - min j (c.times.length - 1)

/-- A trigger of slot k at a DTIME. -/
def State.capTrigger (s : State) (k : Nat) (at_ : DTime) : State :=
  let s := s.capFollow k
  let d := s.dev
  let st := d.cs k
  if st = 4 || st = 5 then s.onDev (·.bump .REC_CS_CNT_missed_trig k 1)
  else if st = 2 || st = 3 then
    match d.capQueue k with
    | none => s
    | some q =>
      let c := d.cap k
      let b := c.size
      let t := c.frameAt at_
      let first := max (t - d.get .REC_CS_DEPTH_pre k) (d.capWhole k q b)
      s.onDev (fun d =>
        let d := d.setCap k { c with trig := t, trigAt := at_, first := first, cut := false, after := none }
        let d := d.qMarkAt q (c.w0 + BitVec.ofNat 32 (first * b / 448))
        let d := (d.set .REC_CS_LAST_pre_got k (t - first)).wrap .REC_CS_STAT_cap_num k 1
        ((d.capGo k 4).set .REC_EVT_capture 0 1).raise 0x0D0C k)
  else s

/-- TRIGGER: only of a slot whose trig_kind is COMMAND (R325). -/
def execTrigger (k : CapSlot) (s : State) : Host.Outcome State Fault Refusal :=
  .next (if s.dev.get .REC_CS_CFG_trig_kind k.val = 0 then s.capTrigger k.val s.dev.dtime else s)

/-- Whether there is, at a DTIME, what triggers slot k (R325): the frame boundary at which its defect was set, an event of its
ID and argument under their masks, a trigger of its slot. -/
def Dev.capTriggers (d : Dev) (k : Nat) (at_ : DTime) : Bool :=
  let w := d.get .REC_CS_TRIG_trig k
  let a := d.get .REC_CS_TARG_targ k
  match d.get .REC_CS_CFG_trig_kind k with
  | 1 =>
    let src := if (w / 2 ^ 12) % 2 = 0 then w % 2 ^ 12 else 192 + w % 2 ^ 12
    let l := w / 2 ^ 13 % 8
    let code := w / 2 ^ 16 % 32
    d.defBit src l code && Table.find (d.oh src).setAt (32 * l + code) == some at_
  | 2 => d.host.ring.any (fun e => e.2.at_ == at_
      && (e.2.id.toNat ^^^ w % 2 ^ 16) &&& (w / 2 ^ 16) == 0 && (e.2.arg.toNat ^^^ a % 2 ^ 16) &&& (a / 2 ^ 16) == 0)
  | 3 => let j := w % 64; 4 ≤ d.cs j && d.cs j ≤ 5 && (d.cap j).trigAt == at_
  | _ => false

/-- CAPTURE_TRIGGER: a defect, event or slot trigger. -/
def execCaptureTrigger (k : CapSlot) (at_ : DTime) (s : State) : Host.Outcome State Fault Refusal :=
  .next (if s.dev.capTriggers k.val at_ then s.capTrigger k.val at_ else s)

/-- ARM, or START of the slot's unit: OFF and DONE go to WAIT. -/
def Dev.capArm (d : Dev) (k : Nat) : Dev :=
  if (d.cs k = 0 || d.cs k = 6) && d.running .cslot k && d.bit .REC_CS_CFG_en k && d.pdOn domCapt then d.capGo k 1 else d

def execArm (k : CapSlot) (s : State) : Host.Outcome State Fault Refusal := .next (s.onDev (·.capArm k.val))

/-- What a capture in progress ends in: cut short in POST, copied to its end in COPYING; any other state at once. -/
def State.capEnd (s : State) (k st : Nat) : State :=
  if s.dev.cs k = 4 then s.capCopy k true (some st)
  else if s.dev.cs k = 5 then s.onDev (fun d => d.setCap k { d.cap k with after := some st })
  else s.onDev (·.capGo k st)

/-- DISARM: DONE, after a copy; a slot that its unit or en holds OFF stays OFF. -/
def State.capDisarm (s : State) (k : Nat) : State :=
  if s.dev.running .cslot k && s.dev.bit .REC_CS_CFG_en k && s.dev.pdOn domCapt then s.capEnd k 6 else s

def execDisarm (k : CapSlot) (s : State) : Host.Outcome State Fault Refusal := .next (s.capDisarm k.val)

/-- STOP of the slot's unit: OFF, after a copy (R326). -/
def State.capStop (s : State) (k : Nat) : State := s.capEnd k 0

/-- Whether the unit of slot k may become STOPPED. -/
def Dev.capStopped (d : Dev) (k : Nat) : Bool := d.cs k != 5

end Sys2Proof.Machine
end

