-- ==== Sys2Proof/Machine/Egress.lean ====
section
/-!
DEFINITION. Egress frames (chapters 04, 06 and 09): what each egress point is given to send, the priorities of R87, the
overhead that the source generates, and the frame that goes out.
-/
namespace Sys2Proof.Machine

/-! ### What an egress point is given (R87, R130–R132) -/

/-- What an egress point sends: whether it has a connection whose source carries a stream, the overhead source of that
stream if it has one, whether it sends the demapped client of that source, whether an Ethernet client of it is in local
fault, and the source port that writes a lap byte (R87, R130–R132, R223); and, where a hitless group delivers its delayed
member, whether the frame delivered is ODU-AIS (R201, R221). -/
structure Feed where
  conn : Bool
  src : Option Nat
  client : Bool
  fault : Bool
  port : Option Nat
  delayed : Option Bool
deriving DecidableEq, Repr

/-- No stream (R132). -/
def Feed.none : Feed := ⟨false, .none, false, false, .none, .none⟩

/-- The overhead source of port p: a tributary, or a framed channel. -/
def Dev.portSrc (d : Dev) (p : Nat) : Option Nat :=
  if p < 3072 then some (192 + p) else if isFramed (d.mode (p - 3072)) then some (p - 3072) else none

/-- The port of source k. -/
def srcPort (k : Nat) : Nat := if isTribSrc k then srcIdx k else 3072 + k

/-- The unit state of source k's own unit. -/
def Dev.srcUst (d : Dev) (k : Nat) : Nat := if isTribSrc k then d.ust .trib (srcIdx k) else d.lineUst k

/-- Whether source k's unit is STOPPING or STOPPED, so that its stream is its maintenance signal (R132, R341). -/
def Dev.srcOut (d : Dev) (k : Nat) : Bool := d.srcUst k == 1 || d.srcUst k == 2

/-- Whether the Ethernet stream received at channel n is local fault: its PCS has failed, or its unit is STOPPED (R36,
R341). -/
def Dev.etherFault (d : Dev) (n : Nat) : Bool := isEther (d.mode n) && (d.localFault n || d.srcOut n)

/-- Whether FlexE client x delivers local fault: its group has lof, lom, gnm, pnm or calm, or a member lacks lane_lock
(R146). -/
def Dev.flexeFault (d : Dev) (x : Nat) : Bool :=
  let k := x / 32 * 8 + d.get .SL_FLXE_CLI0_grp x
  d.get ⟨.SL_FLXE_GRP_STAT, 1, 5⟩ k != 0 || (d.flexePhys k).any (fun n => !d.bit .CH_PCS_STAT_lane_lock n)

/-- The stream of port p, which carries one. -/
def Dev.portFeed (d : Dev) (p : Nat) : Feed :=
  ⟨true, (d.portSrc p).map d.carried, false, decide (3072 ≤ p) && d.etherFault (p - 3072), some p, none⟩

/-- The stream delivered at destination port p (R131): the source port's, or the selected member's of an enabled group. -/
def Dev.connFeed (d : Dev) (p : Nat) : Feed :=
  if !d.bit .SSW_CONN_conn_en p then .none
  else
    let v := d.get .SSW_CONN_src p
    if d.bit .SSW_CONN_src_kind p then
      let k := d.selectedSrc v (d.get .PRT_GRP_STAT_sel_sig v)
      if d.bit .PRT_GRP_CFG_en v && d.portLive (srcPort k) then
        { d.portFeed (srcPort k) with src := some k, delayed := d.delayedAis v }
      else .none
    else if d.portLive v then d.portFeed v else .none

/-- The stream of client channel c, which a mapper takes (R130). -/
def Dev.clientFeed (d : Dev) (c : Nat) : Feed :=
  ⟨true, if d.mode c == 0x01 then some (d.carried c) else none, false, d.etherFault c, none, none⟩

/-- What an egress point is: an ODU that passes whole, a mapper of an STM-64 or of an Ethernet client, a multiplexer, a
client's own egress, or a FlexE PHY, which carries the egress of its group's clients. -/
inductive PointKind where
  | odu | mapStm | mapEth | mux | stm | ether | phy
deriving DecidableEq, Repr

/-- The mapper of client channel c. -/
def Dev.mapKind (d : Dev) (c : Nat) : PointKind := if d.mode c == 0x01 then .mapStm else .mapEth

/-- The kind of source k's egress point. -/
def Dev.pointKind (d : Dev) (k : Nat) : PointKind :=
  if isTribSrc k then
    if !d.tribMap (srcIdx k) then .odu
    else if d.bit .ODU_MAP_client_kind (srcIdx k) then .mapEth else d.mapKind (d.get .ODU_MAP_client (srcIdx k))
  else if d.mode k == 0x01 then .stm
  else if d.mode k == 0x18 then .phy
  else if !isFramed (d.mode k) then .ether
  else match d.get .SL_SRV_CTL_pay_mode (slIdx k) with
    | 1 => d.mapKind (d.get .SL_SRV_CTL_client (slIdx k))
    | 2 => .mux
    | _ => .odu

/-- Whether the client demapped at source j is replaced by its maintenance signal: aSSF (R87), a tributary that is not LIVE
(R136), or a slice without power (R23). -/
def Dev.clientAis (d : Dev) (j : Nat) : Bool :=
  d.og j .CH_OH_ACT_assf != 0 || (if isTribSrc j then d.trState (srcIdx j) != 3 else !d.pdOn (domSlice (sliceOf j)))

/-- The enabled FlexE groups that PHY n is a member of, at most one (R145, R149). -/
def Dev.phyGroups (d : Dev) (n : Nat) : List Nat :=
  ((List.range 8).map (fun j => n / 24 * 8 + j)).filter (fun k =>
    d.bit .SL_FLXE_GRP0_grp_en k && (d.flexePhys k).contains n)

/-- What the egress of FlexE client x sends (R87, R130): the demapped client of the tributary that binds it, else local
fault: without one, with its unit STOPPED, under aSSF, or while it is not LIVE (R136). -/
def Dev.flexeOut (d : Dev) (x : Nat) : EgressSignal :=
  match d.flexeBinder x with
  | some t =>
    if d.srcOut (192 + t) || d.clientAis (192 + t) then .localFault else .traffic
  | none => .localFault

/-- The calendar slots of PHY n in transmit order, with their clients and what those send (R145, R147). -/
def Dev.phyCal (d : Dev) (n : Nat) : Table (Nat × EgressSignal) :=
  (d.phyGroups n).flatMap (fun k =>
    let b := 20 * (d.flexePhys k).idxOf n
    (List.range 20).filterMap (fun j => (Table.find (d.fx k).txSlots (b + j)).map (fun x => (j, x, d.flexeOut x))))

/-- What the egress point at source k's place is given to send. -/
def Dev.ownFeed (d : Dev) (k : Nat) : Feed :=
  match d.pointKind k with
  | .odu => d.connFeed (srcPort k)
  | .mux => ⟨true, none, false, false, none, none⟩
  | .phy => if (d.phyGroups k).isEmpty then .none else ⟨true, none, false, false, none, none⟩
  | .stm | .ether =>
    match d.binder k with
    | some b => ⟨true, some (d.carried b), true, false, none, none⟩
    | none => d.connFeed (srcPort k)
  | .mapStm | .mapEth =>
    if isTribSrc k then
      let c := d.get .ODU_MAP_client (srcIdx k)
      if d.bit .ODU_MAP_client_kind (srcIdx k) then ⟨true, none, false, d.flexeFault c, none, none⟩ else d.clientFeed c
    else d.clientFeed (d.get .SL_SRV_CTL_client (slIdx k))

/-- What source k's egress point sends: its own, or on a protection member what is bridged to it (R219). -/
def Dev.feed (d : Dev) (k : Nat) : Feed := d.ownFeed ((d.bridgedTo k).getD k)

/-! ### The priority and the signal (R87, R132, R212) -/

/-- Whether source k is the protection member of a RUN 1:1 or 1:N group that bridges nothing (R212). -/
def Dev.nullSignal (d : Dev) (k : Nat) : Bool :=
  (d.groupsOf k).any (fun e =>
    e.2 == 0 && d.running .pgroup e.1 && !d.onePlusOne e.1 && d.get .PRT_GRP_STAT_br_sig e.1 == 0)

/-- Whether the source of a feed has aAIS, or the client taken from it its maintenance signal; a source whose unit is STOPPED
sends its own maintenance signal, which passes unchanged (R87, R132). -/
def Dev.feedAis (d : Dev) (f : Feed) : Bool :=
  match f.src with
  | none => false
  | some j => !d.srcOut j && (if f.client then d.clientAis j else d.aAis j)

/-- The priority of R87 at source k's egress point. -/
def Dev.egressPrio (d : Dev) (k : Nat) : Nat :=
  let f := d.feed k
  if d.srcOut k then 1
  else if d.og k .CH_OH_CTL_ins_force != 0 && d.pointKind k != .ether && d.pointKind k != .phy then 2
  else if d.nullSignal k then 5
  else if d.feedAis f then 3
  else if !f.conn then 4 else 5

/-- The maintenance signal of an egress point whose unit is STOPPED, and of a stream of a STOPPED source there (R341). -/
def PointKind.maint : PointKind → EgressSignal
  | .stm => .msAis
  | .ether => .localFault
  | .phy => .localFault
  | _ => .oduLck

/-- The forced signal of ins_force (R87, R96). -/
def PointKind.forced (p : PointKind) (v : Nat) : EgressSignal :=
  if p == .stm then .msAis else match v with | 1 => .oduAis | 2 => .oduLck | _ => .oduOci

/-- The signal under aAIS or aSSF: ODU-AIS on an ODU, generic AIS in the OPU of a CBR client, MS-AIS on an STM-64, local fault
on an Ethernet client (R87). -/
def PointKind.ais : PointKind → EgressSignal
  | .stm => .msAis
  | .ether => .localFault
  | .phy => .localFault
  | .mapStm => .genericAis
  | .mapEth => .localFault
  | _ => .oduAis

/-- The signal without a connection (R132). -/
def PointKind.unfed : PointKind → EgressSignal
  | .stm => .msAis
  | .ether => .localFault
  | .phy => .localFault
  | _ => .oduOci

/-- The payload at priority 5: the null signal; the maintenance signal of a STOPPED source; ODU-AIS in place of a frame
whose tick at its source is out of frame, or of a delayed frame that is ODU-AIS or was read with a poisoned cell; a client
in local fault; else traffic (R36, R132, R146, R212). -/
def Dev.passed (d : Dev) (k : Nat) (p : PointKind) (f : Feed) : EgressSignal :=
  if d.nullSignal k then .null
  else match f.src with
    | some j =>
      if d.srcOut j then (match p with | .mapStm => .msAis | _ => p.maint)
      else if p == .odu && f.delayed.getD (!(d.oh j).inFrame) then .oduAis
      else if f.fault then .localFault else .traffic
    | none => if f.fault then .localFault else .traffic

/-- What source k's egress point sends at priority p. -/
def Dev.egressSignal (d : Dev) (k p : Nat) : EgressSignal :=
  let pt := d.pointKind k
  match p with
  | 1 => pt.maint
  | 2 => pt.forced (d.og k .CH_OH_CTL_ins_force)
  | 3 => pt.ais
  | 4 => pt.unfed
  | _ => d.passed k pt (d.feed k)

/-- Whether a frame of priority p overwrites the overhead of level l: ODU and MS replacements of priorities 1 to 4 do from
level 1 up; the OTU and RS levels are still generated, and generic AIS in an OPU overwrites none (R87). -/
def Dev.overwritten (d : Dev) (k l p : Nat) : Bool :=
  p != 5 && l != 0 && [.oduAis, .oduLck, .oduOci, .msAis].contains (d.egressSignal k p)

/-! ### Generated overhead (R75, R79, R86, R88, R96) -/

/-- The levels that source k has: SM to TCM6, RS and MS on STM-64, none at level 0 of a tributary (R71). -/
def Dev.levelsOf (d : Dev) (k : Nat) : List Nat :=
  if isTribSrc k then (List.range 8).drop 1 else if d.isStm k then [0, 1] else if isFramed (d.mode k) then List.range 8 else []

/-- BEI of one egress frame: min(accumulator, 8) of each OPERATIONAL level, subtracted (R88). -/
def Dev.beiSplit (d : Dev) (k p : Nat) : Table Nat × Table Nat :=
  (List.range 8).foldl (fun (a : Table Nat × Table Nat) l =>
    if d.lvlMode k l == 2 && !d.overwritten k l p then
      let v := Table.get a.1 l 0
      (Table.put a.1 l (v - min v 8) 0, Table.put a.2 l (min v 8) 0)
    else a) ((d.oh k).bei, [])

/-- The levels whose egress carries BDI: every OPERATIONAL one with aBDI that the frame does not overwrite (R88). -/
def Dev.bdiSent (d : Dev) (k p : Nat) : Nat :=
  lvlMask (fun l => (d.og k .CH_OH_ACT_abdi).testBit l && d.lvlMode k l == 2 && !d.overwritten k l p)

/-- The field generated at an OPERATIONAL level. Whether IAE is sent follows G.709 from the incoming frame phase and is free
(log entry 60): bit l of `iae`. -/
def Dev.lvlGen (d : Dev) (k l bei : Nat) (bdi iae : Bool) : LvlGen :=
  let stat := if d.isStm k || l == 0 then 0 else if 2 ≤ l && iae then 2 else 1
  { tti := ((List.range 16).flatMap (fun w => leBytes 4 (d.og k .CH_OH_TTI_TX_tx 128 (l * 16 + w)))).take
      (if d.isStm k then 16 else 64)
    bipInv := d.og k .CH_OH_LVL_CTL_bip_inv 8 l != 0, bei := bei, bdi := bdi, iae := l == 0 && !d.isStm k && iae, stat := stat
    dm := 0 }

/-- Whether the source of a feed removes its TCM field of level l (R75). -/
def Dev.tcmRemoved (d : Dev) (f : Feed) (l : Nat) : Bool :=
  match f.src with
  | none => false
  | some j => !f.client && 2 ≤ l && d.lvlMode j l == 2 && d.og j .CH_OH_LVL_CTL_tcm_remove 8 l != 0

/-- The field of each level in a frame of priority p. -/
def Dev.lvlsOut (d : Dev) (k p : Nat) (bei : Table Nat) (bdi : Nat) (iae : Word) : Table LvlOut :=
  (d.levelsOf k).map (fun l =>
    (l, if d.overwritten k l p then .replaced
        else if d.lvlMode k l == 2 then .generated (d.lvlGen k l (Table.get bei l 0) (bdi.testBit l) (iae.getLsbD l))
        else if d.tcmRemoved (d.feed k) l then .zeros else .passed))

/-- The payload type that source k's own mapper or multiplexer inserts (R122, R127). -/
def Dev.ptOut (d : Dev) (k : Nat) : Option Byte :=
  let odu := if isTribSrc k then d.kind (srcIdx k) else oduOf (d.mode k)
  let bmp := if isTribSrc k then d.bit .ODU_MAP_map_meth (srcIdx k) else d.bit .SL_SRV_CTL_map_meth (slIdx k)
  match d.pointKind k with
  | .mapStm | .mapEth =>
    match odu with
    | 2 => some (if bmp then 0x03 else 0x02)
    | 3 => some 0x03
    | 4 => some 0x07
    | _ => some Config.impPt
  | .mux => some (if d.isCn k then 0x22 else 0x21)
  | _ => none

/-- The MSI of MUX server k (G.709), slot after slot: occupied and TPN of the tributary that holds the slot, zeros where none
does. An ODUCn has two bytes a slot; its slots are all available, the first byte's top bit. -/
def Dev.msiOut (d : Dev) (k : Nat) : List Byte :=
  let held := (d.srvTribs k).map (fun t => (d.get .ODU_CFG_tpn t, d.tribSlots t))
  (List.range (d.srvSlots k)).flatMap (fun b =>
    let tpn := (held.find? (fun e => e.2.contains b)).map (·.1)
    if d.isCn k then
      match tpn with
      | some v => [BitVec.ofNat 8 (128 + (v - 1) / 128), BitVec.ofNat 8 (128 + (v - 1) % 128)]
      | none => [0x80, 0]
    else
      match tpn with
      | some v => [BitVec.ofNat 8 (128 + (v - 1) % 128)]
      | none => [0])

/-- The slots of MUX server k that no tributary holds, which carry all-zeros (R127). -/
def Dev.slotsFree (d : Dev) (k : Nat) : List Nat :=
  let used := (d.srvTribs k).flatMap d.tribSlots
  (List.range (d.srvSlots k)).filter (fun b => !used.contains b)

/-- APS/PCC, or K1 and K2, that the groups of protection member k transmit, by level (R217). -/
def Dev.apsOut (d : Dev) (k : Nat) : Table (List Byte) :=
  (d.groupsOf k).filterMap (fun e =>
    if e.2 == 0 && d.bit .PRT_GRP_CFG_aps_en e.1 then
      some (if d.isStm k then (1, leBytes 2 (d.get .PRT_GRP_APS_TX_aps_tx e.1))
        else (d.groupApsLevel e.1, leBytes 4 (d.get .PRT_GRP_APS_TX_aps_tx e.1)))
    else none)

/-- The lap byte that the source port of a feed has written, with its place (R223). -/
def Dev.lapOut (d : Dev) (f : Feed) : Option (Nat × Byte) :=
  match f.port with
  | none => none
  | some p =>
    if d.bit .PRT_LAP_TX_lap_en p then (Table.find d.laps p).map (fun x => (d.get .PRT_LAP_TX_lap_pos p, x.high)) else none

/-- The frequency word that times an egress point: of the context that a channel's transmitter names (R31), or of the context
that the demapping of a re-mapped stream feeds, from which the mapper derives its Cn (R165). -/
def Dev.clkOf (d : Dev) (k : Nat) : Option Int :=
  if !isTribSrc k then (if d.bit .CH_MODE_tx_clk_src k then some (d.outWord (d.get .CH_MODE_tx_fctx k)) else none)
  else match (d.feed k).src with
    | some j =>
      if d.hasCn j && d.bit .ODU_MAP_fctx_en (srcIdx j) then some (d.outWord (d.get .ODU_MAP_fctx (srcIdx j))) else none
    | none => none

/-! ### The frame (R88, R419) -/

/-- The FEC field of source k's transmitter (R37): all-zeros under OFF, encoded under CORRECT and under MONITOR. -/
def Dev.fecOut (d : Dev) (k : Nat) : FecOut :=
  if isTribSrc k || d.mode k == 0x01 || d.mode k == 0x04 then .none
  else if d.get .CH_FEC_CTL_fec_mode k == 0 then .zeros else .encoded

/-- What an egress frame of priority p of source k carries; whether IAE is sent is drawn. FTFL is not sent in a frame that
replaces the ODU, whose FTFL bytes G.709 gives to the replacement, where R79 says all-zeros without naming such frames
(DEDUCED, log entry 88). -/
def Dev.egressBuild (d : Dev) (k p : Nat) : EgressOut × Dev :=
  let (iae, e) := d.draw
  let (_, bei) := d.beiSplit k p
  let bdi := d.bdiSent k p
  let sig := d.egressSignal k p
  let f := d.feed k
  let opu := [.traffic, .genericAis, .localFault].contains sig
  ({ bdi := bdi, bei := bei, null := sig == .null, signal := sig, lvls := d.lvlsOut k p bei bdi iae
     ftfl := if (d.lvlMode k 0 == 2 || d.lvlMode k 1 == 2) && !d.isStm k && !d.overwritten k 1 p then some 0 else none
     pt := if sig == .null then some 0xFD else if opu then d.ptOut k else none
     msi := if opu && d.pointKind k == .mux then d.msiOut k else []
     zeros := if opu && d.pointKind k == .mux then d.slotsFree k else []
     aps := d.apsOut k, lap := if sig == .traffic then d.lapOut f else none, clk := d.clkOf k, fec := d.fecOut k
     cal := if d.pointKind k == .phy then d.phyCal k else [] }, e)

/-- An egress frame takes the BEI accumulators and goes out (R88). -/
def Dev.egressSend (d : Dev) (k p : Nat) : Dev :=
  let (out, e) := d.egressBuild k p
  e.setOh k { d.oh k with bei := (d.beiSplit k p).1, egress := out }

/-- An egress frame boundary of source k. -/
def Dev.egressFrame (d : Dev) (k : Nat) : Dev :=
  let p := d.egressPrio k
  let d := (d.oset k .CH_OH_ACT_egress_prio p).egressSend k p
  if isTribSrc k then
    let t := d.trib (srcIdx k)
    d.setTrib (srcIdx k) { t with egressFrames := t.egressFrames + 1 }
  else d.setChan k { d.chan k with egressFrames := (d.chan k).egressFrames + 1 }

/-- R419: a boundary of an egress point whose clock runs; a tributary that is not mapped takes its frames from its
stream, and one whose slice has no power has no frames. -/
def Dev.egressAt (d : Dev) (pt : EgressPt) : Dev :=
  match pt with
  | .chan n =>
    let l := d.leader n.val
    if (d.chan l).egressOn then d.egressFrame l else d
  | .trib t =>
    if d.kind t.val != 0 && d.pdOn (domSlice (sliceOf (d.carrier t.val))) && (!d.tribMap t.val || (d.trib t.val).egressOn) then d.egressFrame (192 + t.val) else d

def execEgressFrame (pt : EgressPt) (s : State) : Host.Outcome State Fault Refusal := .next (s.onDev (·.egressAt pt))

end Sys2Proof.Machine
end

