-- ==== Sys2Proof/Machine/Frames.lean ====
section
/-!
DEFINITION. Frame ticks of line channels and of tributaries (chapters 03, 04 and 06).
-/
namespace Sys2Proof.Machine


/-- An OMFI meets the multiframe machine of R138 at tick `now`: held, the count runs on and the fifth mismatch loses the
multiframe; lost, the count follows what arrives and the second correct increment regains it. -/
def ServerSt.omfiStep (x : ServerSt) (now : Nat) (v : Byte) : ServerSt :=
  match x.omfi with
  | none => { x with omfi := some v, omfiMiss := 0, omfiGood := 0, omfiOut := true, omfiSince := now }
  | some p =>
    let due := BitVec.ofNat 8 ((p.toNat + 1) % 80)
    let ok := v == due
    if x.omfiOut then
      let good := if ok then x.omfiGood + 1 else 0
      if 2 ≤ good then { x with omfi := some v, omfiMiss := 0, omfiGood := good, omfiOut := false, omfiSince := now }
      else { x with omfi := some v, omfiGood := good }
    else
      let miss := if ok then 0 else x.omfiMiss + 1
      if 5 ≤ miss then { x with omfi := some v, omfiMiss := miss, omfiGood := 0, omfiOut := true, omfiSince := now }
      else { x with omfi := some due, omfiMiss := miss, omfiGood := if ok then x.omfiGood + 1 else 0 }

/-- A server's OMFI in a frame (R138). -/
def Dev.omfiTick (d : Dev) (n : Nat) (v : Byte) : Dev := d.setServer n ((d.server n).omfiStep d.ticks v)

/-- A server's PSI bytes in a frame, by the flywheel (R139). -/
def Dev.psiCollect (d : Dev) (n fly : Nat) (bs : List Byte) : Dev :=
  let x := d.server n
  let buf := if fly = 0 then bs else if x.psiBuf.length = fly * bs.length then x.psiBuf ++ bs else []
  d.setServer n (if fly = 255 && buf.length = 256 * bs.length then { x with psiBuf := [], psiDone := buf }
    else { x with psiBuf := buf })

/-- The bytes of a frame as received that the mapper takes: OMFI and PSI of a MUX server (R73, R138, R139). -/
def Dev.muxTick (d : Dev) (n fly : Nat) (rx : FrameRx) : Dev :=
  if !d.isMux n then d
  else
    let cn := isFlexO (d.mode n)
    let d := if cn then d else d.omfiTick n (byteAt rx.bytes 47)
    d.psiCollect n fly (if cn then (List.range (d.groupSize n)).map (byteAt rx.psi) else [byteAt rx.bytes 36])

/-- The multiframe count handed on with a frame: the flywheel, or with mf_mode 0 the received byte raw (R62). -/
def Dev.handedFly (d : Dev) (l : Nat) (rx : FrameRx) : Nat :=
  if d.bit .CH_ALN_CTL_mf_mode l then d.get .CH_ALN_STAT_flywheel l else rx.mf.toNat

/-- The PSI multiframes that the frame has ended are with its task, if any examines them (R139). -/
def Dev.psiTaken (d : Dev) (n : Nat) : Dev :=
  if (d.server n).psiDone.isEmpty then d else d.setServer n { d.server n with psiDone := [] }

/-- R52: the frame clock of the aligner of channel n ticks. The tick that ends the period shortened or lengthened by the entry
to INFRAME hands on in_frame = 0 (R60); one out of frame sends the server's LIVE tributaries back to ACQUIRING (R136). -/
def Dev.frameTick (d : Dev) (n : Nat) (rx : FrameRx) : Dev :=
  let l := d.leader n
  if d.alnState l == 0 then d
  else
    let entered := (d.aln l).entered
    let d := d.alnTick l rx
    let fly := d.handedFly l rx
    let inF := d.alnState l == 3 && !entered
    let at_ := d.carriedBy l
    let d := at_.foldl (fun d n =>
      let d := if inF then d.muxTick n fly rx else d.serverDown n
      if d.lineRun l && d.portLive (3072 + n) then d.lapTick (3072 + n) (BitVec.ofNat 8 fly) else d) d
    let d := d.extract l ⟨inF, d.get .CH_ALN_STAT_mf_state l == 2, fly, false, d.noData l⟩ rx
    at_.foldl Dev.psiTaken d

def execFrameTick (n : Chan) (rx : FrameRx) (s : State) : Host.Outcome State Fault Refusal :=
  .next (s.onDev (·.frameTick n.val rx))

/-- The LO aligner of a tributary (R137): conf 2, lose 5, tolerance 2, MFAS verified, multiframe confirm 2, lose 5. A
candidate whose MFAS does not follow is given up, and another opens at the next match (R55). -/
def TribSt.align (x : TribSt) (gone : Bool) (err : Nat) (mf : Byte) : TribSt :=
  let next := match x.prevMf with | some p => mf == p + 1 | none => false
  let x := { x with flywheel := x.flywheel + 1 }
  if x.inFrame then
    let bad := gone || decide (2 < err)
    let x := { x with errRun := if bad then x.errRun + 1 else 0 }
    if 5 ≤ x.errRun then
      { x with inFrame := false, goodRun := 0, errRun := 0, mfState := 0, mfRun := 0, mfMiss := 0, prevMf := none }
    else if x.mfState = 2 then
      let miss := if mf == x.flywheel then 0 else x.mfMiss + 1
      if 5 ≤ miss then { x with mfState := 1, mfRun := 0, mfMiss := 0, prevMf := some mf }
      else { x with mfMiss := miss, prevMf := some mf }
    else
      let run := if next then x.mfRun + 1 else 0
      if 2 ≤ run then { x with mfState := 2, mfRun := run, mfMiss := 0, flywheel := mf, prevMf := some mf }
      else { x with mfRun := run, prevMf := some mf }
  else if gone || err != 0 then { x with goodRun := 0, prevMf := none }
  else if x.goodRun = 0 then { x with goodRun := 1, prevMf := some mf }
  else if !next then { x with goodRun := 0, prevMf := none }
  else { x with inFrame := true, goodRun := 2, errRun := 0, mfState := 1, mfRun := 1, mfMiss := 0, prevMf := some mf }

/-- The LO ODU's integrator of dLOFLOM runs or rests, and the time of its clear condition (R137). -/
def TribSt.integrate (x : TribSt) (now : Nat) : TribSt :=
  let bad := !x.inFrame || x.mfState != 2
  let x := match x.loSince, bad with
    | none, true => { x with loSince := some now }
    | some t, false => { x with loSince := none, loAcc := x.loAcc + (now - t) }
    | _, _ => x
  { x with okSince := if bad then none else match x.okSince with | some t => some t | none => some now }

/-- R137: a frame of the LO ODU of tributary t starts. Its tick has in_frame = 1 once its frame is aligned and it is LIVE
(R132), and the no_data and ssf_in of its server as last published (R73, R90). -/
def State.tribFrameTick (s : State) (t : Nat) (rx : FrameRx) : State :=
  let d := s.dev
  if !d.running .trib t || d.kind t == 0 || d.trState t < 2 then s
  else
    let gone := !d.bit .ODU_CFG_srv_none t && (d.oh (d.srvSignal t)).noData
    let x := ((d.trib t).align gone (patDiff rx.pat 0 6) rx.mf).integrate d.ticks
    let d := ((d.setTrib t x).setB .ODU_STAT_lo_oof t (!x.inFrame)).setB .ODU_STAT_lo_oom t (x.mfState != 2)
    let live := x.inFrame && d.trState t == 3
    let d := (d.carriedBy (192 + t)).foldl (fun d k =>
      if d.portLive (srcIdx k) then d.lapTick (srcIdx k) x.flywheel else d) d
    let d := d.extract (192 + t) ⟨live, x.mfState == 2, x.flywheel.toNat, d.ssfIn t, gone⟩ rx
    ({ s with dev := d } : State).hlTick (192 + t) live x.flywheel.toNat rx

def execTribFrameTick (t : Trib) (rx : FrameRx) (s : State) : Host.Outcome State Fault Refusal :=
  .next (s.tribFrameTick t.val rx)

end Sys2Proof.Machine
end

