-- ==== Sys2Proof/Machine/Switch.lean ====
section
/-!
DEFINITION. The slot switch (R129–R133): connections, the slots they use, and the registers that show them.
-/
namespace Sys2Proof.Machine

/-- The slice of port p. -/
def Dev.portSlice (d : Dev) (p : Nat) : Nat := sliceOf (if p < 3072 then d.carrier p else p - 3072)

/-- The member ports of group g. -/
def Dev.groupPorts (d : Dev) (g : Nat) : List Nat := (d.memberPlaces g).map (fun j => srcPort (d.memberSrc g j))

/-- Enabled connections: destination, whether the source is a group, source. -/
def Dev.conns (d : Dev) : List (Nat × Bool × Nat) :=
  ((d.listed .SSW_CONN).filter (d.bit .SSW_CONN_conn_en)).map (fun p => (p, d.bit .SSW_CONN_src_kind p, d.get .SSW_CONN_src p))

/-- The kind of a source: a port's stream, or that of an enabled group's members. -/
def Dev.sourceKind (d : Dev) (grp : Bool) (v : Nat) : Kind :=
  if grp then (if d.bit .PRT_GRP_CFG_en v then d.portKind (srcPort (d.memberSrc v 1)) else ⟨0, 0⟩) else d.portKind v

/-- The ports whose streams a source puts into the ingress stages (R211). -/
def Dev.sourcePorts (d : Dev) (grp : Bool) (v : Nat) : List Nat := if grp then d.groupPorts v else [v]

/-- The implicit connections of R130, as (slice of the source, slice of the destination, slots): a client's ingress to
its adaptation, and the demapped stream to the client's egress. -/
def Dev.implicit (d : Dev) : List (Nat × Nat × Nat) :=
  (d.tribList.filter d.tribMap).flatMap (fun t =>
      let a := sliceOf (d.carrier t)
      let (c, n) := if d.bit .ODU_MAP_client_kind t then
          (d.get .ODU_MAP_client t / 32, (Kind.mk 6 (d.get .ODU_CFG_flex_s t)).slots)
        else (sliceOf (d.get .ODU_MAP_client t), (clientKind (d.mode (d.get .ODU_MAP_client t))).slots)
      [(c, a, n), (a, c, n)])
    ++ (d.chanList.filter d.chanMap).flatMap (fun n =>
      let c := d.get .SL_SRV_CTL_client (slIdx n)
      let k := (clientKind (d.mode c)).slots
      [(sliceOf c, sliceOf n, k), (sliceOf n, sliceOf c, k)])

/-- The sources named, each once. -/
def Dev.sources (d : Dev) : List (Bool × Nat) := (d.conns.map (·.2)).eraseDups

/-- The ports whose streams lie in an ingress stage, each once. -/
def Dev.ingressPorts (d : Dev) : List Nat := (d.sources.flatMap (fun x => d.sourcePorts x.1 x.2)).eraseDups

/-- Slots used in the ingress stage of slice s (R133). -/
def Dev.inUsed (d : Dev) (s : Nat) : Nat :=
  ((d.ingressPorts.filter (fun p => d.portSlice p == s)).map (fun p => (d.portKind p).slots)).foldl (· + ·) 0
    + ((d.implicit.filter (fun x => x.1 == s)).map (·.2.2)).foldl (· + ·) 0

/-- Slots used in the egress stage of slice s. -/
def Dev.outUsed (d : Dev) (s : Nat) : Nat :=
  ((d.conns.filter (fun x => d.portSlice x.1 == s)).map (fun x => (d.sourceKind x.2.1 x.2.2).slots)).foldl (· + ·) 0
    + ((d.implicit.filter (fun x => x.2.1 == s)).map (·.2.2)).foldl (· + ·) 0

/-- The slots of group g's largest member, which a 1:1 or 1:N group reserves in its slice (R219). -/
def Dev.reserve (d : Dev) (g : Nat) : Nat := (d.groupPorts g).foldl (fun n p => max n (d.portKind p).slots) 0

/-- Bridged ingress slots of slice s: second branches, and the reservations of 1:1 and 1:N groups (R133, R219). -/
def Dev.bridged (d : Dev) (s : Nat) : Nat :=
  (d.sources.filter (fun x => 2 ≤ (d.conns.filter (fun c => c.2 == x)).length)).foldl (fun n x =>
    n + (((d.sourcePorts x.1 x.2).filter (fun p => d.portSlice p == s)).map (fun p => (d.portKind p).slots)).foldl (· + ·) 0) 0
  + ((d.listed .PRT_GRP_CFG).filter (fun g =>
      d.bit .PRT_GRP_CFG_en g && !d.onePlusOne g && d.portSlice (srcPort (d.memberSrc g 0)) == s)).foldl (fun n g => n + d.reserve g) 0

/-- Whether a budget of R133 is exceeded in some slice. -/
def Dev.switchOver (d : Dev) : Bool :=
  (List.range 8).any (fun s => decide (2240 < d.inUsed s) || decide (2240 < d.outUsed s) || decide (1120 < d.bridged s))

/-- SSW_PORT of port p, SSW_SLICE and SSW_BRIDGE of slice s, as they read (R150). -/
def Dev.sswPort (d : Dev) (p : Nat) : Word :=
  Fld.SSW_PORT_live.into (Fld.SSW_PORT_ndest.into (Fld.SSW_PORT_slots.into 0 (d.portKind p).slots)
    (d.conns.filter (fun c => c.2 == (false, p))).length) (if d.portLive p then 1 else 0)
def Dev.sswSlice (d : Dev) (s : Nat) : Word := Fld.SSW_SLICE_out_used.into (Fld.SSW_SLICE_in_used.into 0 (d.inUsed s)) (d.outUsed s)
def Dev.sswBridge (d : Dev) (s : Nat) : Word := Fld.SSW_BRIDGE_br_used.into 0 (d.bridged s)

end Sys2Proof.Machine
end

