-- ==== Sys2Proof/Machine/Commit.lean ====
section
/-!
DEFINITION. The commit checks of every unit class (R47, R68, R95, R149, R182, R198, R234, R264, R327): which words a
COMMIT makes active, and the lowest reason for which it is rejected.
-/
namespace Sys2Proof.Machine

/-- The lowest failing reason of checks listed with reasons rising. -/
def firstFail (l : List (Nat × Bool)) : Option Nat := (l.find? (·.2)).map (·.1)

/-! ### What a COMMIT makes active (R33, R338) -/

/-- The leader of channel n by its shadow values (R32). -/
def Dev.shLeader (d : Dev) (n : Nat) : Nat :=
  if isBonded (d.shGet .CH_MODE_mode n) then n / 2 ^ d.shGet .CH_MODE_bond_size n * 2 ^ d.shGet .CH_MODE_bond_size n else n

/-- Whether channel l leads a bond group by its active values, or by its shadow values. -/
def Dev.leads (d : Dev) (l : Nat) : Bool := isBonded (d.mode l) && d.leader l == l
def Dev.shLeads (d : Dev) (l : Nat) : Bool := isBonded (d.shGet .CH_MODE_mode l)

/-- The channels whose registers a COMMIT of a line unit makes active: of a CHANNEL its own; of a BOND those that its
leader leads by active or by shadow values, so that one COMMIT forms, resizes or dissolves the group (R33). -/
def Dev.lineSet (d : Dev) (u : UnitId) : List Nat :=
  match u.cls with
  | .channel => [u.idx]
  | .bond => ((List.range 8).map (u.idx + ·)).filter (fun n =>
      decide (n < 192) && (n == u.idx || (isBonded (d.mode n) && d.leader n == u.idx) || d.shLeader n == u.idx))
  | _ => []

/-- The channel whose unit owns FlexE group k: its lowest-numbered PHY, by the shadow values (R146). -/
def Dev.flexeOwner (d : Dev) (k : Nat) : Option Nat :=
  let m := if d.shGet .SL_FLXE_GRP0_phys k = 0 then d.get .SL_FLXE_GRP0_phys k else d.shGet .SL_FLXE_GRP0_phys k
  if m = 0 then none else some (24 * (k / 8) + lowBit m)

/-- Whether unit u, with the channels set of a line unit, owns word i of register r. -/
def Dev.ownsWord (d : Dev) (u : UnitId) (set : List Nat) (r : Reg) (i : Nat) : Bool :=
  match r.info.own, u.cls with
  | .ch, .channel => set.contains (i / r.per 1)
  | .ch, .bond => set.contains (i / r.per 1)
  | .sp, .channel => set.contains i
  | .sp, .bond => set.contains i
  | .port, .channel => decide (3072 ≤ i) && set.contains (i - 3072)
  | .port, .bond => decide (3072 ≤ i) && set.contains (i - 3072)
  | .fg, .channel => (d.flexeOwner i).any set.contains
  | .fg, .bond => (d.flexeOwner i).any set.contains
  | .tr, .trib => i / r.per 1 == u.idx
  | .port, .trib => i == u.idx
  | .fc, .trib => d.shGet .ODU_CFG_pay_mode u.idx == 1 && d.shGet .ODU_MAP_client_kind u.idx == 1
      && d.shGet .ODU_MAP_client u.idx == i / r.per 2
  | .pg, .pgroup => i / r.per 1 == u.idx
  | .fx, .fctx => i / r.per 1 == u.idx
  | .qu, .queue => i / r.per 1 == u.idx
  | .cs, .cslot => i / r.per 1 == u.idx
  | .re, .recorder => true
  | .pa, .pairagent => true
  | _, _ => false

/-- The keys of the words of unit u that differ from reset, active or shadow. -/
def Dev.unitKeys (d : Dev) (u : UnitId) : List Nat :=
  let set := d.lineSet u
  ((d.shadow.map (·.1) ++ d.regs.map (·.1)).eraseDups).filter (fun k =>
    match Reg.ofIdx (k / 2 ^ 20) with
    | some r => r.info.dom == .unit && d.ownsWord u set r (k % 2 ^ 20)
    | none => false)

/-- A device whose active words of unit u are its shadow words. -/
def Dev.candidate (d : Dev) (u : UnitId) : Dev :=
  (d.unitKeys u).foldl (fun e k =>
    match Reg.ofIdx (k / 2 ^ 20) with
    | some r => e.setWord r (k % 2 ^ 20) (d.shWord r (k % 2 ^ 20))
    | none => e) d

/-- The checked blocks in which the active values of unit u lie, whatever they are (R274, R275): a line unit's channels, with
their server, port, FlexE and lap settings; a tributary with its port, its lap settings and the FlexE client it names. -/
def Dev.unitBlocks (d : Dev) (u : UnitId) : List Nat :=
  let line := (d.lineSet u).flatMap (fun n => [512 + n, 816 + (3072 + n) / 51] ++ sliceBlocks (sliceOf n))
  (match u.cls with
    | .channel => line
    | .bond => line
    | .trib =>
      let t := u.idx
      let client := d.shGet .ODU_MAP_client t
      [704 + t / 64, 816 + t / 51] ++ sliceBlocks (t / 384)
        ++ (if d.shGet .ODU_CFG_pay_mode t == 1 && d.shGet .ODU_MAP_client_kind t == 1 then sliceBlocks (client / 32) else [])
    | .pgroup => [816 + u.idx / 32]
    | .fctx => [880 + u.idx / 64]
    | .queue => [894 + u.idx / 256]
    | .pairagent => [910]
    | .recorder => [911]
    | .cslot => [911]).eraseDups

/-! ### Line units (R47, R68) -/

/-- Group sizes of a bonded mode (R32). -/
def bondSizes (m : Nat) : List Nat :=
  if m = 0x0A then [1, 2, 3] else if m = 0x11 then [2] else if m = 0x12 then [3] else [0]

/-- Whether fec_mode v fits format m (R37); a channel that is OFF has no format it could break. -/
def fecFits (m v : Nat) : Bool :=
  v != 3 && (if m = 0 then true else if m = 0x01 || m = 0x04 then v == 0 else if isGfec m then true else v != 0)

/-- Whether a pattern code fits format m (R46). -/
def prbsFits (m v : Nat) : Bool :=
  decide (v < 8) && !((v == 6 || v == 7) && isNrz m) && !((v == 1 || v == 2) && isPam4 m)

/-- The magnitude of a signed tap. -/
def tapMag (v : Nat) : Nat := (sx 8 v).natAbs

/-- The checks 0x01 to 0x09 of channel n, but 0x04, on a device that holds the candidate values. -/
def Dev.chanCheck (d : Dev) (n : Nat) : Option Nat :=
  let m := d.mode n
  let quad := (List.range 4).map (fun i => d.mode (n / 4 * 4 + i))
  let ctl (f : Fld) := d.get f n
  firstFail [
    (0x01, !modeListed m),
    (0x02, m != 0 && quad.any isNrz && quad.any isPam4),
    (0x03, !(bondSizes m).contains (ctl .CH_MODE_bond_size)),
    (0x05, !fecFits m (ctl .CH_FEC_CTL_fec_mode)),
    (0x06, decide (ctl .CH_FEC_DEGTHR_set_m * 10 ^ ctl .CH_FEC_DEGTHR_clr_e
              ≤ ctl .CH_FEC_DEGTHR_clr_m * 10 ^ ctl .CH_FEC_DEGTHR_set_e)
        || ctl .CH_FEC_CTL_deg_win == 0 || ctl .CH_FEC_CTL_deg_set_n == 0 || ctl .CH_FEC_CTL_deg_clr_n == 0
        || decide (100 < ctl .CH_FEC_CTL_deg_win)),
    (0x07, ctl .CH_SDS_CTL_loopback == 3 || !prbsFits m (ctl .CH_SDS_CTL_prbs_gen) || !prbsFits m (ctl .CH_SDS_CTL_prbs_chk)),
    (0x08, decide (64 < tapMag (ctl .CH_SDS_TXFFE_pre2) + tapMag (ctl .CH_SDS_TXFFE_pre1) + ctl .CH_SDS_TXFFE_main
              + tapMag (ctl .CH_SDS_TXFFE_post1))
        || (isNrz m && ctl .CH_SDS_TXFFE_pre2 != 0)),
    (0x09, decide (767 < ctl .CH_MODE_tx_fctx))]

/-- Check 0x04 for the group of channel n: the unit of a BOND has its leader at a multiple of the size, and the members
agree. -/
def Dev.bondBad (d : Dev) (u : UnitId) (n : Nat) : Bool :=
  isBonded (d.mode n) &&
    ((u.cls == .bond && n == u.idx && n % d.groupSize n != 0)
      || (d.members n).any (fun k =>
        decide (191 < k) || d.mode k != d.mode n || d.get .CH_MODE_bond_size k != d.get .CH_MODE_bond_size n))

/-- The checks 0x0B and 0x0C of leader n (R68). -/
def Dev.alnCheck (d : Dev) (n : Nat) : Option Nat :=
  firstFail [
    (0x0B, d.mode n == 0x01 && d.bit .CH_ALN_CTL_mf_mode n),
    (0x0C, (decide (2 < d.get .CH_ALN_CTL_loss_tol n) && d.bit .CH_ALN_CTL_cmp_width n)
        || d.get .CH_ALN_CTL_tie_ext n == 0 || d.get .CH_ALN_CTL_mf_confirm n == 0 || d.get .CH_ALN_CTL_mf_lose n == 0
        || d.get .CH_ALN_TIME_lof_set n == 0 || d.get .CH_ALN_TIME_lof_clr n == 0 || d.get .CH_ALN_TIME_lom_set n == 0
        || d.get .CH_ALN_TIME_lom_clr n == 0)]

/-! ### Overhead (R95) -/

/-- Whether source k's level l accepts only MONITOR and OPERATIONAL (R75). -/
def Dev.noTransparent (d : Dev) (k l : Nat) : Bool :=
  if isTribSrc k then l == 1 && d.kind (srcIdx k) != 0 && d.tribMap (srcIdx k) else isFramed (d.mode k) && decide (l < 2)

/-- Frames of source k in a dDEG window, rounded down; none where it has no frame (R83, R95). -/
def Dev.degFrames (d : Dev) (k int : Nat) : Option Nat :=
  let f := d.srcFrame k
  if (if isTribSrc k then d.kind (srcIdx k) == 0 || decide (5 < d.kind (srcIdx k)) else !isFramed (d.mode k)) || f.1 = 0 then none
  else some (f.2 / (f.1 * (if int = 0 then 1 else if int = 1 then 10 else 100)))

/-- The checks 0x0D to 0x0F of source k; on STM-64 deg_thr is ignored and level 1 has deg_exp and exc_exp (R96). -/
def Dev.ohCheck (d : Dev) (k : Nat) : Option Nat :=
  let stm := d.isStm k
  let lvls := if isTribSrc k then [1, 2, 3, 4, 5, 6, 7] else List.range 8
  let ctl (f : Fld) (l : Nat) := d.og k f 8 l
  firstFail [
    (0x0D, lvls.any (fun l => ctl .CH_OH_LVL_CTL_lvl_mode l == 3 || (ctl .CH_OH_LVL_CTL_lvl_mode l == 0 && d.noTransparent k l)
        || (stm && decide (2 ≤ l) && ctl .CH_OH_LVL_CTL_lvl_mode l != 0))
        || (stm && ctl .CH_OH_LVL_CTL_tim_mode 0 == 3)),
    (0x0E, lvls.any (fun l => ctl .CH_OH_LVL_CTL_deg_int l == 3 || decide (ctl .CH_OH_LVL_CTL_deg_m l < 2)
        || decide (10 < ctl .CH_OH_LVL_CTL_deg_m l)
        || (!stm && (ctl .CH_OH_DEGTHR_deg_thr l == 0
            || (d.degFrames k (ctl .CH_OH_LVL_CTL_deg_int l)).any (fun n => decide (n < ctl .CH_OH_DEGTHR_deg_thr l))))
        || (stm && l == 1 && (decide (ctl .CH_OH_DEGTHR_deg_exp l < 5) || decide (9 < ctl .CH_OH_DEGTHR_deg_exp l)
              || decide (ctl .CH_OH_DEGTHR_exc_exp l < 3) || decide (5 < ctl .CH_OH_DEGTHR_exc_exp l))))),
    (0x0F, d.og k .CH_OH_FAIL_TIME_fail_set == 0 || d.og k .CH_OH_FAIL_TIME_fail_clr == 0 || d.og k .CH_PM_CTL_ses_pct == 0
        || decide (100 < d.og k .CH_PM_CTL_ses_pct) || (stm && decide (2 ≤ d.og k .CH_OH_CTL_ins_force)))]

/-! ### Mapping and connections (R149) -/

/-- Whether channel c is a client that something other than source k binds, or that a connection names (R130). -/
def Dev.clientTaken (d : Dev) (k c : Nat) : Bool :=
  d.tribList.any (fun t => 192 + t != k && d.tribMap t && !d.bit .ODU_MAP_client_kind t && d.get .ODU_MAP_client t == c)
    || d.chanList.any (fun n => n != k && d.chanMap n && d.get .SL_SRV_CTL_client (slIdx n) == c)
    || d.conns.any (fun x => x.1 == 3072 + c || x.2 == (false, 3072 + c))

/-- Whether channel c may not be the client of a server or tributary that takes the given kind of stream; one that takes none
has no client. -/
def Dev.clientBad (d : Dev) (k c : Nat) (want : Kind) : Bool :=
  decide (191 < c) || want.cls == 0 || d.leader c != c || clientKind (d.mode c) != want || d.clientTaken k c

/-- The client stream that tributary t adapts (R122). -/
def Dev.tribClient (d : Dev) (t : Nat) : Kind :=
  match d.kind t with
  | 2 => ⟨7, 0⟩ | 3 => ⟨6, 2⟩ | 4 => ⟨6, 20⟩ | 5 => ⟨6, d.get .ODU_CFG_flex_s t⟩ | _ => ⟨0, 0⟩

/-- Whether the connection of destination port p breaks R131: a source of a different kind, without a stream, or that
already feeds two destinations. -/
def Dev.connBad (d : Dev) (p : Nat) : Bool :=
  d.bit .SSW_CONN_conn_en p &&
    (let g := d.bit .SSW_CONN_src_kind p
     let v := d.get .SSW_CONN_src p
     let k := d.sourceKind g v
     decide ((if g then 2048 else 3264) ≤ v) || k.cls == 0 || k != d.portKind p
       || decide (2 < (d.conns.filter (fun x => x.2 == (g, v))).length))

/-- Whether port p sends a lap byte at a place outside R223 (0x3B). -/
def lapPlaces : List Nat := [16, 17, 18, 44, 45, 56, 57, 58, 59, 60, 61]
def Dev.lapBad (d : Dev) (p : Nat) : Bool := d.bit .PRT_LAP_TX_lap_en p && !lapPlaces.contains (d.get .PRT_LAP_TX_lap_pos p)

/-- FlexE clients enabled on group k but x. -/
def Dev.flexeOthers (d : Dev) (k x : Nat) : List Nat :=
  ((List.range 32).map (k / 8 * 32 + ·)).filter (fun y =>
    y != x && d.bit .SL_FLXE_CLI0_cli_en y && k / 8 * 8 + d.get .SL_FLXE_CLI0_grp y == k)

/-- Check 0x18 of FlexE client x with s calendar slots. -/
def Dev.flexeClientBad (d : Dev) (x s : Nat) : Bool :=
  let k := x / 32 * 8 + d.get .SL_FLXE_CLI0_grp x
  let mine := d.flexeSlots x
  mine.length != s || mine.any (fun b => decide (20 * (d.flexePhys k).length ≤ b)) || !d.bit .SL_FLXE_GRP0_grp_en k
    || (d.flexeOthers k x).any (fun y => (d.flexeSlots y).any mine.contains)

/-- The checks of tributary t (R95, R149, R234). -/
def Dev.tribCheck (d : Dev) (t : Nat) : Option Nat :=
  let kind := d.kind t
  let s := d.get .ODU_CFG_flex_s t
  let n := d.get .ODU_CFG_srv_ch t
  let srv := !d.bit .ODU_CFG_srv_none t
  let pay := d.get .ODU_CFG_pay_mode t
  let cn := d.isCn n
  let server := isFlexO (d.mode n) || d.mode n == 0x08
  let fits := server && decide (n < 192) && (kindSlots (d.tribKind t) cn != 0 || (kind == 5 && !flexOk s))
  let others := (d.srvTribs n).filter (· != t)
  let x := d.get .ODU_MAP_client t
  let flexe := d.bit .ODU_MAP_client_kind t
  if kind = 0 then (d.ohCheck (192 + t)).or (if d.lapBad t then some 0x3B else none)
  else
    let oh := d.ohCheck (192 + t)
    firstFail [
      (0x0D, oh == some 0x0D), (0x0E, oh == some 0x0E), (0x0F, oh == some 0x0F),
      (0x10, decide (5 < kind) || (srv && !fits)),
      (0x11, if srv then d.leader n != n || d.get .SL_SRV_CTL_pay_mode (slIdx n) != 2 || !d.bit .CH_ALN_CTL_mf_mode n
        else pay == 0),
      (0x12, srv && ((d.tribSlots t).length != kindSlots (d.tribKind t) cn
        || (d.tribSlots t).any (fun b => decide (d.srvSlots n ≤ b) || others.any (fun u => (d.tribSlots u).contains b)))),
      (0x13, srv && (d.get .ODU_CFG_tpn t == 0 || decide (d.srvTpns n < d.get .ODU_CFG_tpn t)
        || others.any (fun u => d.get .ODU_CFG_tpn u == d.get .ODU_CFG_tpn t))),
      (0x14, decide (2 ≤ pay) || (kind == 5 && !flexOk s)
        || (pay == 1 && (if flexe then kind != 5 || d.tribList.any (fun u =>
                u != t && d.tribMap u && d.bit .ODU_MAP_client_kind u && d.get .ODU_MAP_client u == x)
              else d.clientBad (192 + t) x (d.tribClient t)))),
      (0x15, d.connBad t), (0x16, d.switchOver),
      (0x17, decide (767 < d.get .ODU_MAP_fctx t) || (d.bit .ODU_MAP_fctx_en t && kind == 5 && pay == 1)),
      (0x18, pay == 1 && flexe && kind == 5 && d.flexeClientBad x s),
      (0x3B, d.lapBad t)]

/-- The enabled FlexE groups whose lowest PHY is channel n. -/
def Dev.flexeGroupsAt (d : Dev) (n : Nat) : List Nat :=
  ((List.range 8).map (sliceOf n * 8 + ·)).filter (fun k => d.bit .SL_FLXE_GRP0_grp_en k && (d.flexePhys k).head? == some n)

/-- The PHY number of member j of FlexE group k. -/
def Dev.flexePhyNum (d : Dev) (k j : Nat) : Nat :=
  (if j < 4 then d.get .SL_FLXE_GRP2_phy_num_lo k >>> (8 * j) else d.get .SL_FLXE_GRP3_phy_num_hi k >>> (8 * (j - 4))) % 256

/-- Check 0x1A of FlexE group k. -/
def Dev.flexeGroupBad (d : Dev) (k : Nat) : Bool :=
  let ps := d.flexePhys k
  let nums := (List.range ps.length).map (d.flexePhyNum k)
  ps.any (fun n => d.mode n != 0x18) || decide (8 < ps.length) || nums.eraseDups.length != nums.length
    || ((List.range 8).map (k / 8 * 8 + ·)).any (fun j =>
      j != k && d.bit .SL_FLXE_GRP0_grp_en j && (d.flexePhys j).any ps.contains)

/-- Whether the learn range of server n leaves T3071 or overlaps another's (0x19). -/
def Dev.learnBad (d : Dev) (n : Nat) : Bool :=
  let base (k : Nat) := d.get .SL_LEARN_learn_base (slIdx k)
  let cnt (k : Nat) := d.get .SL_LEARN_learn_cnt (slIdx k)
  cnt n != 0 && (decide (3072 < base n + cnt n)
    || (List.range 192).any (fun k => k != n && cnt k != 0 && decide (base k < base n + cnt n) && decide (base n < base k + cnt k)))

/-- Check 0x1B of channel n: tributaries name it as their server, and the COMMIT changes its pay_mode or format, or makes it a
member of another's group; `old` is the device before the COMMIT. -/
def Dev.serverMoved (old d : Dev) (n : Nat) : Bool :=
  !(old.srvTribs n).isEmpty && (old.get .SL_SRV_CTL_pay_mode (slIdx n) != d.get .SL_SRV_CTL_pay_mode (slIdx n)
    || old.mode n != d.mode n || old.groupSize n != d.groupSize n || d.leader n != n)

/-- The checks 0x11 to 0x1A and 0x3B of channel n, a leader. pay_mode is judged on a channel that carries a server only, the
spec listing payload modes for no other format (DESIGN CHOICE, log entry 64). A WHOLE or MUX server has no adaptation of its
own that gives a timing stream, so that fctx_en fits a MAP server alone (R122). -/
def Dev.serverCheck (d : Dev) (n : Nat) : Option Nat :=
  let m := d.mode n
  let pay := d.get .SL_SRV_CTL_pay_mode (slIdx n)
  let server := isGfec m || isFlexO m
  let want : Kind := if m = 0x02 then ⟨7, 0⟩ else if m = 0x03 then ⟨6, 2⟩ else ⟨6, 20⟩
  firstFail [
    (0x11, server && pay == 2 && (!(m == 0x08 || isFlexO m) || !d.bit .CH_ALN_CTL_mf_mode n)),
    (0x14, server && (pay == 3 || (isFlexO m && pay != 2) || (pay == 1 && d.clientBad n (d.get .SL_SRV_CTL_client (slIdx n)) want))),
    (0x15, d.connBad (3072 + n)), (0x16, d.switchOver),
    (0x17, decide (767 < d.get .SL_SRV_CTL_fctx (slIdx n)) || (server && d.bit .SL_SRV_CTL_fctx_en (slIdx n) && pay != 1)),
    (0x19, d.learnBad n),
    (0x1A, (d.flexeGroupsAt n).any d.flexeGroupBad),
    (0x3B, d.lapBad (3072 + n))]

/-- The lowest of several reasons. -/
def lowest (l : List (Option Nat)) : Option Nat :=
  l.foldl (fun a r => match a, r with | some x, some y => some (min x y) | none, r => r | a, none => a) none

/-- The checks of a CHANNEL or BOND unit. -/
def Dev.lineCheck (old d : Dev) (u : UnitId) : Option Nat :=
  let set := old.lineSet u
  lowest (set.map d.chanCheck ++ set.map (fun n => if d.bondBad u n then some 0x04 else none)
    ++ set.map (fun n => if old.serverMoved d n then some 0x1B else none)
    ++ (set.filter (fun n => d.leader n == n)).flatMap (fun n => [d.alnCheck n, d.ohCheck n, d.serverCheck n]))

/-! ### Groups, queues, pair, recorder, slots (R198, R234, R264, R327) -/

/-- Check 0x31 of group g: every member in range, met once, free, and all of one kind or format. -/
def Dev.membersBad (d : Dev) (g : Nat) : Bool :=
  let chan := d.bit .PRT_GRP_CFG_level g
  let ks := (d.memberPlaces g).map (d.get .PRT_GRP_MEM_member <| g * 16 + ·)
  let srcs := (d.memberPlaces g).map (d.memberSrc g)
  ks.any (fun v => decide ((if chan then 192 else 3072) ≤ v)) || ks.eraseDups.length != ks.length
    || srcs.any (fun k => (d.groupsOf k).any (fun e => e.1 != g))
    || (if chan then ks.any (fun n => d.leader n != n || d.mode n != d.mode (ks.headD 0)
            || d.groupSize n != d.groupSize (ks.headD 0))
        else ks.any (fun t => d.kind t == 0 || d.tribKind t != d.tribKind (ks.headD 0)))

/-- The checks of group g (R234). The budget of R233 is judged once pool_ready is set: until then no site is live, and
groups are committed to be admitted when it is. -/
def Dev.groupCheck (d : Dev) (g : Nat) : Option Nat :=
  let en := d.bit .PRT_GRP_CFG_en g
  let ty := d.get .PRT_GRP_CFG_type g
  let n := d.get .PRT_GRP_CFG_n g
  let chan := d.bit .PRT_GRP_CFG_level g
  let slices := ((d.groupPorts g).map d.portSlice).eraseDups
  let mon := d.get .PRT_GRP_CFG_mon_lvl g
  let al := d.get .PRT_GRP_CFG_align_mode g
  let delay (path : Nat) := (d.listed .CPL_Q_CFG).any (fun i => d.bit .CPL_Q_CFG_en i && d.get .CPL_Q_CFG_owner_kind i == 1
    && d.get .CPL_Q_CFG_owner_idx i == g && d.get .CPL_Q_CFG_owner_path i == path)
  let charge := (d.hlGroups.filter (· != g)).foldl (fun v k => v + d.hlRate k) 0
  firstFail [
    (0x30, n == 0 || (ty != 3 && n != 1) || (ty == 3 && decide (2 ≤ n) && !d.bit .PRT_GRP_CFG_revertive g)),
    (0x31, en && d.membersBad g),
    (0x32, en && (chan || decide (2 ≤ ty)) && slices.length != 1),
    (0x33, en && d.bit .PRT_GRP_CFG_snc g && (mon == 0 || (d.memberPlaces g).any (fun j => d.lvlMode (d.memberSrc g j) mon == 0))),
    (0x34, en && d.bit .PRT_GRP_CFG_hitless g && (chan || decide (2 ≤ ty))),
    (0x35, en && delay 0 && delay 1),
    (0x36, decide (100 < d.get .PRT_GRP_TMR_holdoff g) || d.get .PRT_GRP_TMR_wtr g == 0 || decide (720 < d.get .PRT_GRP_TMR_wtr g)
        || d.get .PRT_GRP_ALN_dmax g == 0 || decide (640 < d.get .PRT_GRP_ALN_dmax g)),
    (0x37, en && (List.range 8).any (fun s => decide (1120 < d.bridged s))),
    (0x38, ty != 0 && !d.bit .PRT_GRP_CFG_aps_en g),
    (0x39, d.hlCfg g && d.bit .CPL_POOL_STAT_pool_ready 0 && decide (d.hlBudget * 10 ^ 9 < charge + d.hlRate g)),
    (0x3A, al == 3 || ((al == 1 || al == 2) && !lapPlaces.contains (d.get .PRT_GRP_ALN_lap_pos g)))]

/-- The sum over enabled queues of quota + 1 (R198). -/
def Dev.quotaSum (d : Dev) : Nat :=
  ((d.listed .CPL_Q_CFG).filter (d.bit .CPL_Q_CFG_en)).foldl (fun n i => n + d.get .CPL_Q_QUOTA_quota i + 1) 0

/-- The checks of queue i (R198); usable cells are judged once they are known, from S7 on. All four owner kinds are defined, so
none is reserved. Queues for both paths of one enabled group are rejected with 0x2B (R220, log entry 72). -/
def Dev.queueCheck (d : Dev) (i : Nat) : Option Nat :=
  let en := d.bit .CPL_Q_CFG_en i
  let quota := d.get .CPL_Q_QUOTA_quota i
  let kind := d.get .CPL_Q_CFG_owner_kind i
  let idx := d.get .CPL_Q_CFG_owner_idx i
  let same := (d.listed .CPL_Q_CFG).filter (fun j => j != i && d.bit .CPL_Q_CFG_en j && d.get .CPL_Q_CFG_owner_kind j == kind)
  let group := d.bit .PRT_GRP_CFG_en idx
  firstFail [
    (0x29, en && (quota == 0 || decide (536870911 < quota)
        || (d.poolKnown && decide (d.get .CPL_POOL_CELLS_usable 0 < d.quotaSum)))),
    (0x2A, decide (quota < d.get .CPL_Q_HURDLE_hurdle i)
        || (d.bit .CPL_Q_CFG_release_mode i && decide (quota ≤ d.get .CPL_Q_LAG_lag i))),
    (0x2B, (kind == 2 && decide (63 < idx)) || (en && match kind with
        | 1 => same.any (fun j => d.get .CPL_Q_CFG_owner_idx j == idx
            && (group || d.get .CPL_Q_CFG_owner_path j == d.get .CPL_Q_CFG_owner_path i))
        | 2 => same.any (fun j => d.get .CPL_Q_CFG_owner_idx j == idx)
        | 3 => !same.isEmpty
        | _ => false))]

/-- Whether a partner is currently heard: one of the paths is up (R253). -/
def Dev.partnerUp (d : Dev) : Bool := d.bit .PAIR_STAT_baton_up 0 || d.bit .PAIR_STAT_pacer_up 0

/-- The checks of the PAIRAGENT (R264). -/
def Dev.pairCheck (d : Dev) : Option Nat :=
  firstFail [
    (0x40, d.get .PAIR_CTL_to_epochs 0 == 0 || d.get .PAIR_CTL_disc_epochs 0 == 0 || d.get .PAIR_CTL_yield_to 0 == 0),
    (0x41, decide (63 < d.get .PAIR_HEALTH_CTL_health_mask 0)),
    (0x42, d.partnerUp && d.pair.partnerPairId == some (d.bit .PAIR_CTL_pair_id 0))]

/-- The checks of the RECORDER (R327). -/
def Dev.recorderCheck (d : Dev) : Option Nat :=
  let fl := d.get .REC_CTL_rec_flush 0
  let w := d.get .REC_CTL_wear_thr 0
  if d.get .REC_CTL_rp_bif 0 = 3 || fl = 0 || 60 < fl || d.get .REC_CTL_bulk_rate 0 = 0 || w = 0 || 100 < w then some 0x48 else none

/-- The checks of capture slot k (R327). -/
def Dev.slotCheck (d : Dev) (k : Nat) : Option Nat :=
  let v := d.get .REC_CS_TRIG_trig k
  let bad := match d.get .REC_CS_CFG_trig_kind k with
    | 1 => decide (20 < v / 2 ^ 16 % 32) || decide ((if v / 2 ^ 12 % 2 = 0 then 192 else 3072) ≤ v % 4096)
    | 2 => v / 2 ^ 16 == 0
    | 3 => v % 64 == k
    | _ => false
  let c := d.capChan k
  firstFail [
    (0x49, bad), (0x4A, d.capChanBad c),
    (0x4B, d.capDepthBad c (d.get .REC_CS_DEPTH_pre k) (d.get .REC_CS_DEPTH_post k))]

/-- The lowest reason for which a COMMIT of unit u is rejected; `old` is the device before, `d` holds the candidate
values. -/
def Dev.unitCheck (old d : Dev) (u : UnitId) : Option Nat :=
  match u.cls with
  | .channel => old.lineCheck d u
  | .bond => old.lineCheck d u
  | .trib => d.tribCheck u.idx
  | .pgroup => d.groupCheck u.idx
  | .fctx => d.fctxCheck u.idx
  | .queue => d.queueCheck u.idx
  | .cslot => d.slotCheck u.idx
  | .recorder => d.recorderCheck
  | .pairagent => d.pairCheck

/-- The event of a rejected COMMIT of a class (R47, R149, R182, R198, R234, R264, R327). -/
def Dev.rejectEvent (d : Dev) (u : UnitId) (reason : Nat) : Dev :=
  match u.cls with
  | .channel => d.raise 0x020F (u.idx + reason * 256)
  | .bond => d.raise 0x020F (u.idx + reason * 256)
  | .trib => d.raise 0x0606 u.idx
  | .pgroup => d.raise 0x090B (u.idx + (reason - 0x30) * 2048)
  | .fctx => d.raise 0x070B (u.idx + (reason - 0x20) * 1024)
  | .queue => d.raise 0x080A (u.idx + (reason - 0x28) * 4096)
  | .cslot => d.raise 0x0D0E (u.idx + (reason - 0x48) * 256)
  | .recorder => d.raise 0x0D0E (0x3F + (reason - 0x48) * 256)
  | .pairagent => d.raise 0x0A0F ((reason - 0x40) * 256)

end Sys2Proof.Machine
end

