-- ==== Sys2Proof/Machine/Units.lean ====
section
/-!
DEFINITION. Unit control (R338–R342): STOP, COMMIT and START of every unit class, and the ends of STOPPING and STARTING.
-/
namespace Sys2Proof.Machine

/-- The last operation as GLB_UC_STAT shows it; a refusal raises event 0x0E03 (R342). -/
def Dev.ucShow (d : Dev) (cls idx result reason : Nat) : Dev :=
  let d := ((d.set .GLB_UC_STAT_result 0 result).set .GLB_UC_STAT_reason 0 reason).set .GLB_UC_STAT_class 0 cls
  (d.set .GLB_UC_STAT_index 0 idx).raiseIf (result != 0) 0x0E03 (cls * 4096 + idx)

/-- The last operation on unit u. -/
def Dev.ucEnd (d : Dev) (u : UnitId) (result reason : Nat) : Dev := d.ucShow (uclassCode u.cls) u.idx result reason

/-- Whether a unit exists (R339): a BOND while a group is led there, for a COMMIT also one that the shadow values lead. -/
def Dev.unitExists (d : Dev) (u : UnitId) (commit : Bool) : Bool :=
  decide (u.idx < uclassCount u.cls) && (u.cls != .bond || d.leads u.idx || (commit && d.shLeads u.idx))

/-- Whether a CHANNEL operation addresses an active bond member (R33). -/
def Dev.memberOp (d : Dev) (u : UnitId) : Bool := u.cls == .channel && isBonded (d.mode u.idx)

/-- The state of a unit, and for a line unit the worst of the units of its channels: a group is formed of STOPPED units. -/
def Dev.unitStopped (d : Dev) (u : UnitId) : Bool :=
  d.stopped u.cls u.idx && (d.lineSet u).all (fun n => d.lineUst n == 2)

/-- An operation by software on a learned entry pins it (R144). -/
def Dev.pin (d : Dev) (u : UnitId) : Dev := if u.cls == .trib then d.set .ODU_STAT_learned u.idx 0 else d

/-- Whether an operation of the device's own on the unit is in progress: one by software is refused with busy (R340, R144). -/
def Dev.devBusy (d : Dev) (u : UnitId) : Bool := u.cls == .trib && d.freeing u.idx

/-- An operation of software as the unit-control engine takes it (R342): the one that GLB_UC_CMD has put to it, or one put to
it now; another is discarded while the engine is busy. The engine is free when the operation is done. -/
def State.software (s : State) (op : Nat) (u : UnitId) (f : State → State) : State :=
  if s.dev.ucBusy && s.dev.host.ucOp != some (op, u) then s.onDev (·.set .GLB_UC_STAT_uc_overrun 0 1)
  else
    let s := if s.dev.devBusy u then s.onDev (·.ucEnd u 2 0) else f s
    s.onDev (fun d => ({ d with host := { d.host with ucOp := none } } : Dev).set .GLB_UC_STAT_uc_busy 0 0)

/-! ### STOP (R340, R341) -/

/-- A line unit leaves RUN: its defects clear, the aligner goes to OFF, its tributaries reacquire (R48, R60, R82, R136). -/
def Dev.lineStop (d : Dev) (l : Nat) : Dev :=
  let d := d.setChan l { d.chan l with domReady := false }
  let d := if isFramed (d.mode l) then (d.srcStopped l).alnOff l else d
  ((d.srvTribs l).foldl Dev.reacquire d).refreshGroups l

/-- A group leaves RUN: selection and APS are frozen; a 1+1 group reports no bridge (R218, R220). -/
def Dev.groupStop (d : Dev) (g : Nat) : Dev :=
  (if d.onePlusOne g then d.set .PRT_GRP_STAT_br_sig g 0 else d).hitlessEval

/-- No page write of the recorder is in flight (R341). -/
def Dev.pagesDone (d : Dev) : Bool := d.recr.nvme.all (fun c => match c.what with | .page _ => false | _ => true)

/-- Whether the stopping effect that the device itself holds is in place. -/
def Dev.stopDone (d : Dev) (u : UnitId) : Bool :=
  match u.cls with
  | .cslot => d.capStopped u.idx
  | .recorder => d.pagesDone
  | _ => true

/-- A unit enters STOPPED. -/
def State.toStopped (s : State) (u : UnitId) : State :=
  let s := s.onDev (fun d =>
    let d := d.reach u.cls u.idx 2
    match u.cls with
    | .queue => d.hitlessEval
    | .pairagent => d.readyFn 9 false
    | _ => d)
  s.capEval

/-- The effect of leaving RUN or STARTING. -/
def State.stopEffect (s : State) (u : UnitId) : State :=
  match u.cls with
  | .channel => s.onDev (·.lineStop u.idx)
  | .bond => s.onDev (·.lineStop u.idx)
  | .trib => s.onDev (·.tribStop u.idx)
  | .pgroup => s.onDev (·.groupStop u.idx)
  | .fctx => s
  | .queue => s.onDev (·.hitlessEval)
  | .cslot => s.capStop u.idx
  | .recorder => s.onDev (·.recStop)
  | .pairagent => s.onDev (·.pairStop)

/-- Classes whose stopping effect is in place without a boundary of the outside: FCTX always, a slot without a copy, the
recorder without a page write (R341). -/
def Dev.stopsAtOnce (d : Dev) (u : UnitId) : Bool :=
  (u.cls == .fctx || u.cls == .cslot || u.cls == .recorder) && d.stopDone u

/-- STOP of a unit. -/
def State.ucStop (s : State) (u : UnitId) : State :=
  let s := s.onDev (·.pin u)
  if !s.dev.unitExists u false then s.onDev (·.ucEnd u 3 0)
  else if s.dev.memberOp u then s.onDev (·.ucEnd u 4 0x0A)
  else
    let st := s.dev.ust u.cls u.idx
    let s := s.onDev (·.ucEnd u 0 0)
    if st = 0 || st = 3 then
      let s := (s.onDev (·.setUst u.cls u.idx 1)).stopEffect u
      (if s.dev.stopsAtOnce u then s.toStopped u else s).capEval
    else s

def execStop (u : UnitId) (s : State) : Host.Outcome State Fault Refusal := .next (s.software 1 u (·.ucStop u))

/-- UNIT_STOPPED: the stopping effect of a STOPPING unit is in place; a tributary that the device stops is freed. -/
def State.unitStoppedNow (s : State) (u : UnitId) : State :=
  if s.dev.ust u.cls u.idx = 1 && s.dev.stopDone u then
    (s.toStopped u).onDev (fun d => if d.devBusy u then d.learnedFreed u.idx else d)
  else s

/-! ### COMMIT (R338, R340) -/

/-- The aligner counters of channel n (R68). -/
def alnCounters : List Reg :=
  [.CH_ALN_OOF_CNT, .CH_ALN_ACQ_CNT, .CH_ALN_CAND_CNT, .CH_ALN_VFAIL_CNT, .CH_ALN_TIE_CNT, .CH_ALN_EVICT_CNT, .CH_ALN_ERRFRM_CNT,
   .CH_ALN_MFERR_CNT, .CH_ALN_MIMIC_CNT]

/-- What a COMMIT of a line unit does to channel n beyond its active values: recalibration at START, FEC counts (of the whole
group where its leader's fec_mode changes), the locks of the PCS, the aligner, whose registers read 0 where the new mode has
none, pinning by a change to FIXED, counts of the server (R34, R40, R42, R51, R68, R144); a channel in mode 0x00 is OFF at
once, and transmitter and taps follow their settings (R42, R43, R45). The accepted MSI and the run of identical PSI
multiframes of a server stay, the spec not naming a COMMIT or START that drops them (DESIGN CHOICE, log entry 55). -/
def Dev.chanCommitted (old d : Dev) (n : Nat) : Dev :=
  let ne (f : Fld) : Bool := old.get f n != d.get f n
  let form := ne .CH_MODE_mode || ne .CH_MODE_bond_size
  let d := if form || ne .CH_SDS_CTL_rx_pol_inv || ne .CH_SDS_CTL_loopback then d.setChan n { d.chan n with recal := true } else d
  let d := if form || ne .CH_FEC_CTL_fec_mode then
      (if d.leader n = n then d.members n else [n]).foldl Dev.fecDiscard d
    else d
  let d := if form then alnCounters.foldl (fun d r => d.setWord r n 0) ((d.pcsRenew n (old.leader n)).alnOff n) else d
  let d := if d.noAligner n then (d.setWord .CH_ALN_MIMIC n 0).setWord .CH_ALN_EVT n 0 else d
  let d := if old.bit .SL_SRV_CTL_psi_mode (slIdx n) && !d.bit .SL_SRV_CTL_psi_mode (slIdx n) then
      (d.srvTribs n).foldl (fun d t => d.set .ODU_STAT_learned t 0) d
    else d
  let d := (if d.mode n = 0 then d.rxToOff n else d.rxFreeze n).txEval n
  let d := d.srvRecount n
  match d.binder n with
  | some k => if isTribSrc k then d.tribRecount (srcIdx k) else d
  | none => d

/-- A server judges its accepted MSI again, where it has one. -/
def Dev.serverAgain (d : Dev) (n : Nat) : Dev :=
  let d := d.srvRecount n
  if d.bit .SL_SRV_STAT_msi_acc (slIdx n) then d.msimJudge n else d

/-- The server channel that tributary t names. -/
def Dev.serverOf (d : Dev) (t : Nat) : List Nat :=
  if d.kind t != 0 && !d.bit .ODU_CFG_srv_none t then [d.get .ODU_CFG_srv_ch t] else []

/-- What a COMMIT of tributary t does: HELD, or FREE with its slots, TPN and connection released (R136); the servers it named
before and names now count their slots and judge their MSI again (R139, R150). -/
def Dev.tribCommitted (old d : Dev) (t : Nat) : Dev :=
  let ne (f : Fld) : Bool := old.get f t != d.get f t
  let new := ne .ODU_CFG_kind || ne .ODU_CFG_flex_s || ne .ODU_CFG_pay_mode || ne .ODU_MAP_client_kind || ne .ODU_MAP_client
  let d := if new then d.setTrib t { d.trib t with remap := true } else d
  let d :=
    if d.kind t != 0 then (if d.trState t = 0 then d.set .ODU_STAT_tr_state t 1 else d)
    else
      let d := (List.range 5).foldl (fun d w => d.setBoth .ODU_TS_ts (t * 5 + w) 0) (d.set .ODU_STAT_tr_state t 0)
      (d.setBoth .ODU_CFG_tpn t 0).setBoth .SSW_CONN_conn_en t 0
  let d := d.tribRecount t
  ((old.serverOf t ++ d.serverOf t).eraseDups).foldl Dev.serverAgain d

/-- Whether a COMMIT of group g changed type, level, members or snc (R218). -/
def groupAnew (old d : Dev) (g : Nat) : Bool :=
  let ne (f : Fld) : Bool := old.get f g != d.get f g
  ne .PRT_GRP_CFG_type || ne .PRT_GRP_CFG_level || ne .PRT_GRP_CFG_snc || ne .PRT_GRP_CFG_n
    || (List.range 16).any (fun k => old.word .PRT_GRP_MEM (g * 16 + k) != d.word .PRT_GRP_MEM (g * 16 + k))

/-- Whether a COMMIT of queue i flushes: flush = 1, or another owner, by the fields that its kind uses (R190, R197). -/
def queueFlushes (old d : Dev) (i : Nat) : Bool :=
  let ne (f : Fld) : Bool := old.get f i != d.get f i
  let kind := d.get .CPL_Q_CFG_owner_kind i
  d.bit .CPL_Q_CFG_flush i || ne .CPL_Q_CFG_owner_kind || ((kind == 1 || kind == 2) && ne .CPL_Q_CFG_owner_idx)
    || (kind == 1 && ne .CPL_Q_CFG_owner_path)

/-- What a COMMIT of queue i does: a flush, the spare cell of an enabled queue, the sum of quotas (R188, R197). -/
def State.queueCommitted (old : Dev) (s : State) (i : Nat) : State :=
  let s := if queueFlushes old s.dev i then s.qFlush i else s
  let s := if s.dev.bit .CPL_Q_CFG_en i then s.ensureSpare i else s.dropSpare i
  s.onDev (fun d =>
    let d := (d.setBoth .CPL_Q_CFG_flush i 0).set .CPL_POOL_QSUM_qsum 0 d.quotaSum
    if d.poolKnown then d.poolShort else d)

/-- What a COMMIT of unit u does beyond its active values, which s holds already; `old` is the device before. -/
def State.commitEffect (old : Dev) (s : State) (u : UnitId) : State :=
  match u.cls with
  | .channel => s.onDev (fun d => old.chanCommitted d u.idx)
  | .bond => s.onDev (fun d => (old.lineSet u).foldl (fun d n => old.chanCommitted d n) d)
  | .trib => s.onDev (fun d => old.tribCommitted d u.idx)
  | .pgroup => s.onDev (fun d =>
      (if groupAnew old d u.idx then d.setGroup u.idx { d.group u.idx with anew := true } else d).hitlessEval)
  | .fctx => s.onDev (fun d =>
      let d := if ctxChanged old d u.idx then d.setCtx u.idx { d.ctx u.idx with swapDue := true } else d
      d.showCharge (ctxArray u.idx))
  | .queue => State.queueCommitted old s u.idx
  | .cslot => s
  | .recorder => s
  | .pairagent => s

/-- COMMIT of a unit. -/
def State.ucCommit (s : State) (u : UnitId) : State :=
  let s := s.onDev (·.pin u)
  if !s.dev.unitExists u true then s.onDev (·.ucEnd u 3 0)
  else if s.dev.memberOp u then s.onDev (fun d => (d.rejectEvent u 0x0A).ucEnd u 4 0x0A)
  else if !s.dev.unitStopped u then s.onDev (·.ucEnd u 1 0)
  else
    let old := s.dev
    let cand := old.candidate u
    match old.unitCheck cand u with
    | some r => s.onDev (fun d => (d.rejectEvent u r).ucEnd u 4 r)
    | none =>
      let blocks := old.unitBlocks u
      let s := State.commitEffect old { s with dev := cand } u
      (s.onDev (fun d => ((d.refWriteAll blocks).ucEnd u 0 0).raise 0x0E02 (unitArg u.cls u.idx))).capEval

def execCommit (u : UnitId) (s : State) : Host.Outcome State Fault Refusal := .next (s.software 2 u (·.ucCommit u))

/-! ### START (R340, R341) -/

/-- START of a line unit: its source begins afresh, its port's lap count too (R48, R83, R223). -/
def Dev.lineBegin (d : Dev) (l : Nat) : Dev :=
  let d := if isFramed (d.mode l) then d.srcStarted l else d
  ((d.lapStart (3072 + l)).lineStart l).refreshGroups l

/-- A HELD tributary whose unit is RUN: ACQUIRING, its source starts afresh, and a mapper starts its frame clock where kind or
client changed or its slice has lost it (R136, R419). -/
def Dev.tribGo (d : Dev) (t : Nat) : Dev :=
  if d.trState t = 1 then
    let d := (d.acquire t).srcStarted (192 + t)
    let x := d.trib t
    d.setTrib t { x with egressOn := if x.remap then d.tribMap t else x.egressOn, remap := false }
  else d

/-- START of tributary t: ACQUIRING, once its slice has power (R24, R136); a changed FlexE slot mask is asked for (R147). -/
def Dev.tribBegin (d : Dev) (t : Nat) : Dev :=
  let d := (d.lapStart t).tribGo t
  let d := (d.reach .trib t 0).refreshGroups (192 + t)
  let c := d.get .ODU_MAP_client t
  if d.kind t != 0 && d.tribMap t && d.bit .ODU_MAP_client_kind t then
    let k := c / 32 * 8 + d.get .SL_FLXE_CLI0_grp c
    let now := ((d.fx k).want.filter (fun e => e.2 == c)).map (·.1)
    if now == (if d.bit .SL_FLXE_CLI0_cli_en c then d.flexeSlots c else []) then d else d.flexeClientStart c
  else d

/-- The APS/PCC bytes, or K1 and K2, that are accepted on the members of group g reach it with its START (R78, R217). -/
def Dev.apsTake (d : Dev) (g : Nat) : Dev :=
  if !d.bit .PRT_GRP_CFG_aps_en g then d
  else (d.memberPlaces g).foldl (fun d j =>
    let k := d.memberSrc g j
    match Table.find (d.oh k).apsAcc (if d.isStm k then 1 else d.groupApsLevel g) with
    | some v => d.apsDeliver g j (leVal v)
    | none => d) d

/-- START of group g: from NR, with nothing received, after a COMMIT that calls for it; else the selection stands and requests
are evaluated again (R218). A group begins to send APS with its START (R217). -/
def Dev.groupBegin (d : Dev) (g : Nat) : Dev :=
  let d := d.reach .pgroup g 0
  let x := d.group g
  let d := if x.anew then
      let d := ((d.set .PRT_GRP_STAT_sel_sig g 0).set .PRT_GRP_STAT_br_sig g 0).set .PRT_GRP_STAT_req_local g 0
      let d := ((d.set .PRT_GRP_STAT_req_far g 0).setB .PRT_GRP_STAT_wtr_run g false).setB .PRT_GRP_STAT_holdoff_run g false
      let d := (d.set .PRT_GRP_APS_RX_aps_rx g 0).setFop g 0
      d.setGroup g { x with
        anew := false, cmd := 0, cmdSig := 0, rawSf := 0, rawSd := 0, effSf := 0, effSd := 0, holdAt := none, wtrAt := none
        want := 0, reqSig := 0, changed := false, decided := none }
    else d
  if d.bit .PRT_GRP_CFG_en g then
    let d := if d.onePlusOne g then d.set .PRT_GRP_STAT_br_sig g 1 else d
    let d := if d.bit .PRT_GRP_CFG_aps_en g && (x.anew || d.get .PRT_GRP_APS_TX_aps_tx g == 0) then
        d.set .PRT_GRP_APS_TX_aps_tx g (d.apsTx g)
      else d
    let d := (d.setGroup g { d.group g with apsAt := d.now, nrAt := none }).apsTake g
    (d.groupConditions g).hitlessEval
  else d

/-- A STARTING queue enters RUN once the pool is ready, with its spare cell (R188, R197). -/
def State.queueGo (s : State) (i : Nat) : State :=
  if s.dev.ust .queue i = 3 && s.dev.bit .CPL_POOL_STAT_pool_ready 0 then
    let s := s.onDev (·.reach .queue i 0)
    let s := if s.dev.bit .CPL_Q_CFG_en i then s.ensureSpare i else s
    (s.onDev (·.hitlessEval)).capEval
  else s

/-- The effect of START on a STOPPED unit. -/
def State.startEffect (s : State) (u : UnitId) : State :=
  match u.cls with
  | .channel => s.onDev (·.lineBegin u.idx)
  | .bond => s.onDev (·.lineBegin u.idx)
  | .trib => s.onDev (·.tribBegin u.idx)
  | .pgroup => s.onDev (·.groupBegin u.idx)
  | .fctx => s.onDev (fun d => (d.reach .fctx u.idx 0).ctxStart u.idx)
  | .queue => (s.onDev (·.setUst .queue u.idx 3)).queueGo u.idx
  | .cslot => s.onDev (fun d => (d.reach .cslot u.idx 0).capArm u.idx)
  | .recorder => s.onDev (fun d => (d.reach .recorder 0 0).recStart)
  | .pairagent => s.onDev (fun d => (d.reach .pairagent 0 0).pairStart)

/-- START of a unit. -/
def State.ucStart (s : State) (u : UnitId) : State :=
  let s := s.onDev (·.pin u)
  if !s.dev.unitExists u false then s.onDev (·.ucEnd u 3 0)
  else if s.dev.memberOp u then s.onDev (·.ucEnd u 4 0x0A)
  else if s.dev.ust u.cls u.idx = 1 then s.onDev (·.ucEnd u 1 0)
  else
    let st := s.dev.ust u.cls u.idx
    let s := s.onDev (·.ucEnd u 0 0)
    if st = 2 then (s.startEffect u).capEval else s

def execStart (u : UnitId) (s : State) : Host.Outcome State Fault Refusal := .next (s.software 3 u (·.ucStart u))

/-- UNIT_RUN: the start condition of a STARTING unit is met: its domains and PLLs, or pool_ready. -/
def State.unitRunNow (s : State) (u : UnitId) : State :=
  match u.cls with
  | .channel => s.onDev (fun d => if d.lineUnit u.idx == u then d.lineGo u.idx else d)
  | .bond => s.onDev (fun d => if d.lineUnit u.idx == u then d.lineGo u.idx else d)
  | .queue => s.queueGo u.idx
  | _ => s

def execUnitRun (u : UnitId) (s : State) : Host.Outcome State Fault Refusal := .next (s.unitRunNow u)

end Sys2Proof.Machine
end

