-- ==== Sys2Proof/Machine/Power.lean ====
section
/-!
DEFINITION. Power domains (R384–R386), domain and unit resets (R383), adaptive voltage (R387), temperature (R389–R391).
-/
namespace Sys2Proof.Machine

/-! ### What a domain holds (R384, R385) -/

/-- The tributaries whose registers differ from reset: the only ones that can be configured. -/
def Dev.configuredTribs (d : Dev) : List Nat := ((d.listed .ODU_CFG).map (· / Reg.per .ODU_CFG 1)).eraseDups

/-- Whether tributary t's server or client lies in slice x (R385). -/
def Dev.tribInSlice (d : Dev) (x t : Nat) : Bool :=
  (d.kind t != 0 && !d.bit .ODU_CFG_srv_none t && sliceOf (d.get .ODU_CFG_srv_ch t) == x)
    || (d.kind t != 0 && d.tribMap t
        && sliceOf (if d.bit .ODU_MAP_client_kind t then d.flexeCarrier (d.get .ODU_MAP_client t) else d.get .ODU_MAP_client t) == x)

/-- The condition of R385 under which a request to switch domain x off, or to reset it, is refused. -/
def Dev.pdRefused (d : Dev) (x : Nat) : Bool :=
  if x < 48 then (List.range 4).any (fun k => d.mode (4 * x + k) != 0 && d.lineUst (4 * x + k) != 2)
  else if x < 64 then false
  else if x < 80 then d.get .CPL_SITE_STAT_site_state (x - 64) == 2
  else if x < 88 then
    (List.range 6).any (fun k => d.pdOn (domQuad (6 * (x - 80) + k)))
      || d.configuredTribs.any (fun t => d.tribInSlice (x - 80) t && !d.stopped .trib t)
  else if x = domRecPort || x = domRecEng then !d.stopped .recorder 0
  else if x = domCapt then (List.range 64).any (fun k => !d.stopped .cslot k)
  else false

/-- The registers of domain x return to their reset values (R15). -/
def Dev.dropPd (d : Dev) (x : Nat) : Dev :=
  { d with regs := d.regs.filter (fun e =>
      match Reg.ofIdx (e.1 / 2 ^ 20) with
      | some r => !(d.wordDom r (e.1 % 2 ^ 20) == some x)
      | none => true) }

/-- The sources that slice x processes: its channels, and the tributaries that one of them carries (R98). -/
def Dev.inSlice (d : Dev) (x k : Nat) : Bool := sliceOf (if isTribSrc k then d.carrier (srcIdx k) else k) == x

/-- The state of slice x's FEC, aligners, overhead, mappers, FlexE shims and task fabric is lost. A mapper whose frame clock
ran restarts it at the next START (R419), and tasks of before stay those of an earlier start (R101). -/
def Dev.sliceLost (d : Dev) (x : Nat) : Dev :=
  let mine (n : Nat) : Bool := sliceOf n == x
  let d := [2 * x, 2 * x + 1].foldl (fun d h => d.set .STR_HEAT_STAT_q_occ h 0) d
  { d with
    chans := d.chans.map (fun e => if mine e.1 then
      (e.1, { e.2 with domReady := false, egressOn := false, fec := .init, winBits := 0, winValid := false, degSetRun := 0,
                       degClrRun := 0, aln := .init }) else e)
    servers := Table.dropWhere mine d.servers
    tribs := d.tribs.filterMap (fun e => if d.inSlice x (192 + e.1) then
      (if e.2.remap || e.2.egressOn then some (e.1, { TribSt.init with remap := true }) else none) else some e)
    flexe := Table.dropWhere (fun k => k / 8 == x) d.flexe
    ohs := d.ohs.map (fun e => if d.inSlice x e.1 then (e.1, { OhSt.init with gen := e.2.gen }) else e)
    heats := d.heats.map (fun e => if e.1 / 2 == x then (e.1, { e.2 with queue := [] }) else e)
    laps := Table.dropWhere (fun p => if p < 3072 then d.inSlice x (192 + p) else mine (p - 3072)) d.laps }

/-- The state of quad q's SerDes and PCS is lost: lane_lock with its group's bond_aligned (R34), the PLL's lock (event
0x020E), receivers in OFF with preset taps (R42, R361, R374). -/
def Dev.quadLost (d : Dev) (q : Nat) : Dev :=
  let d := ((List.range 4).foldl (fun d k => d.pcsLockLost (4 * q + k) .lane) d).quadUnlock q
  let d : Dev := { d with sys := { d.sys with quadNrz := Table.del d.sys.quadNrz q } }
  ((List.range 4).foldl (fun d k => (d.presetTaps (4 * q + k)).rxToOff (4 * q + k)) d).readyQuad q false

/-- The master of the matrix that lies in domain x (R284). -/
def domMaster (x : Nat) : Option Nat :=
  if x = domScan then some 2 else if x = domRecEng then some 3 else if x = domBaton then some 4
  else if x = domCapt then some 7 else if x = domTrace then some 8 else none

/-- The lock bit of the PHY PLL in domain x follows its power (R374). -/
def Dev.phyPll (d : Dev) (x : Nat) (on : Bool) : Dev :=
  if 64 ≤ x && x < 80 then
    let w := d.get .GLB_GDDR_PLL_g_lock 0
    d.set .GLB_GDDR_PLL_g_lock 0 (if on then w ||| 2 ^ (x - 64) else w &&& (2 ^ 16 - 1 - 2 ^ (x - 64)))
  else if x = domRecPort then d.setB .GLB_CLK_STAT_rec_lock 0 on
  else if x = domBaton then d.setB .GLB_CLK_STAT_baton_lock 0 on
  else d

/-- What the functions of domain x lose when its reset is asserted. -/
def Dev.funcLost (d : Dev) (x : Nat) : Dev :=
  if x < 48 then d.quadLost x
  else if x < 64 then d
  else if x < 80 then d.readySite (x - 64) false
  else if x < 88 then d.sliceLost (x - 80)
  else if x = domRecPort then
    (if d.bit .REC_RD_CMD_busy 0 then d.readEnd 2 else d).onRec (fun s => { s with nvme := [], rebuilding := none })
  else if x = domRecEng then (if d.bit .REC_RD_CMD_busy 0 then d.readEnd 2 else d).recOff
  else if x = domBaton then d.batonDown
  else if x = 91 || x = 92 then (d.filtOff (x - 91)).readyFn (11 + (x - 91)) false
  else if x = domScan then
    let d : Dev := { d with check := { d.check with bad := [] } }
    d.scanOff
  else if x = domCapt then { d with caps := [] }
  else d

/-- Transmitters follow R45 and groups their members' state after a change of domain x. -/
def Dev.afterDomain (d : Dev) (x : Nat) : Dev :=
  let ns := if x < 48 then (List.range 4).map (4 * x + ·) else if 80 ≤ x && x < 88 then (List.range 24).map (24 * (x - 80) + ·)
    else []
  let d := ns.foldl Dev.txEval d
  if ns.isEmpty then d
  else (d.listed .PRT_GRP_CFG).foldl (fun d g => if d.running .pgroup g then d.groupConditions g else d) d

/-- The reset of domain x is asserted: functions, transactions in flight, masters, registers (R15, R284, R297, R381). -/
def Dev.domainLost (d : Dev) (x : Nat) : Dev :=
  let d := (d.funcLost x).mxDomainReset x
  let d := match domMaster x with | some m => d.masterReset m | none => d
  d.dropPd x

/-- The functions of domain x start as at power-up (R386 step 4): filter contexts whose unit is RUN (R180); tributaries that
hold a configuration, in HELD, or ACQUIRING where their unit is RUN (R24, R136), with the counts that follow from it (R150);
member_lock of leaders in a quad, from lane_lock of their members elsewhere (R49). -/
def Dev.domainStart (d : Dev) (x : Nat) : Dev :=
  if x = 91 || x = 92 then (d.filtOn (x - 91)).readyFn (11 + (x - 91)) true
  else if x < 48 then (List.range 4).foldl (fun d k => d.memberLock (4 * x + k)) d
  else if 80 ≤ x && x < 88 then
    let d := (d.configuredTribs.filter (fun t => d.kind t != 0 && d.inSlice (x - 80) (192 + t))).foldl (fun d t =>
      let d := if d.trState t = 0 then d.set .ODU_STAT_tr_state t 1 else d
      (if d.running .trib t then d.tribGo t else d).tribRecount t) d
    (List.range 24).foldl (fun d i => d.srvRecount (24 * (x - 80) + i)) d
  else d

/-! ### The power controller (R386) -/

/-- pd_busy follows the request in service. -/
def Dev.pdShow (d : Dev) : Dev := d.setB .GLB_PD_CMD_pd_busy 0 d.sys.pdServing.isSome

/-- Domain x is refused: event 0x0F0B with x; R385 says that it carries the first unmet condition, R393 gives its argument
no place for one (DEDUCED, log entry 80). -/
def Dev.pdRefuse (d : Dev) (x : Nat) : Dev := (d.set .GLB_PD_CMD_pd_refused 0 1).raise 0x0F0B x

/-- A request to switch heat h off, or to reset it, while it is in service acts as a write of heat_en = 0 (R117, R385). -/
def Dev.heatOut (d : Dev) (h : Nat) : Dev := if 2 ≤ d.heatState h then d.set .STR_HEAT_CTL_heat_en h 0 else d

/-- The controller, when free, takes requests in order of arrival: one that matches its domain's state is complete, one
that R385 forbids is refused, any other is served. -/
def Dev.pdServe (d : Dev) : Nat → Dev
  | 0 => d
  | n + 1 =>
    if d.sys.pdServing.isSome then d
    else match d.sys.pdQueue with
      | [] => d
      | (x, on) :: rest =>
        let d : Dev := { d with sys := { d.sys with pdQueue := rest } }
        if d.pdOn x == on then d.pdServe n
        else if !on && d.pdRefused x then (d.pdRefuse x).pdServe n
        else
          let d : Dev := { d with sys := { d.sys with pdServing := some (x, on) } }
          if !on && 48 ≤ x && x < 64 then (d.heatOut (x - 48)).setHeat (x - 48) { d.heat (x - 48) with offReq := true } else d

/-- A request for domain x: it replaces one of the same domain that still waits. -/
def Dev.pdRequest (d : Dev) (x : Nat) (on : Bool) : Dev :=
  let q := d.sys.pdQueue
  let q := if q.any (fun e => e.1 == x) then q.map (fun e => if e.1 == x then (x, on) else e) else q ++ [(x, on)]
  (({ d with sys := { d.sys with pdQueue := q } } : Dev).pdServe q.length).pdShow

def execPdSwitchOn (x : Dom) (s : State) : Host.Outcome State Fault Refusal := .next (s.onDev (·.pdRequest x.val true))

def execPdSwitchOff (x : Dom) (s : State) : Host.Outcome State Fault Refusal := .next (s.onDev (·.pdRequest x.val false))

/-- What power-up of domain x starts beside its functions: the 2 ms that a quad PLL has in S5 to lock (R358); a site
switched on outside S6 is EXCLUDED until the next start (R386). -/
def Dev.poweredUp (d : Dev) (x : Nat) : Dev :=
  if x < 48 then { d with boot := { d.boot with quadAt := Table.ins d.boot.quadAt x d.ticks } }
  else if 64 ≤ x && x < 80 && !(d.boot.open_ && d.get .BOOT_STAT_stage 0 == 6) then d.set .CPL_SITE_STAT_site_state (x - 64) 1
  else d

/-- The sequence of domain x ends: its state changes, event 0x0F0A; at power-up its PD registers are at reset (R15); PD_SCAN
off raises event 0x0B09 (R280). A heat's domain switches at IDLE (R117); OFF to IDLE raises event 0x0501 as every transition
of R116 does under R121, though its row names no event (DESIGN CHOICE, log entry 65). -/
def State.pdChanged (s : State) (x : Nat) (on : Bool) : State :=
  let s := s.onDev (fun d => { d with sys := { d.sys with pdServing := none } })
  let s :=
    if on then s.onDev (fun d =>
      let d := ((((d.dropPd x).setPd x true).phyPll x true).domainStart x).poweredUp x
      if 48 ≤ x && x < 64 then d.heatGo (x - 48) 1 else d)
    else
      let s := if 64 ≤ x && x < 80 then s.siteLost (x - 64) else s
      s.onDev (fun d =>
        let d := ((d.domainLost x).setPd x false).phyPll x false
        let d := if x = domScan then d.raise 0x0B09 0 else d
        if 48 ≤ x && x < 64 then (d.heatGo (x - 48) 0).setHeat (x - 48) { (d.heatGo (x - 48) 0).heat (x - 48) with offReq := false }
        else d)
  (s.onDev (fun d =>
    let d := (d.afterDomain x).raise 0x0F0A (x + if on then 128 else 0)
    (d.pdServe (d.sys.pdQueue.length)).pdShow)).capEval

/-- Whether the sequence in service may end: a heat that is to be switched off has reached IDLE. -/
def Dev.pdMayEnd (d : Dev) (x : Nat) (on : Bool) : Bool := on || x < 48 || 64 ≤ x || d.heatState (x - 48) == 1

/-- PD_SWITCH_DONE: the sequence in service ends. -/
def State.pdDone (s : State) (x : Nat) : State :=
  match s.dev.sys.pdServing with
  | some (y, on) => if y = x && s.dev.pdMayEnd x on then s.pdChanged x on else s
  | none => s

/-! ### Domain and unit reset (R383) -/

/-- GLB_PD_RST: accepted with its key when R385 allows; a heat is reset at IDLE, a domain that is off has nothing to
reset. -/
def State.domainReset (s : State) (x key : Nat) : State :=
  if key ≠ 0x5253 || 96 ≤ x then s
  else if s.dev.pdRefused x then s.onDev (·.pdRefuse x)
  else if !s.dev.pdOn x then s
  else if 48 ≤ x && x < 64 then
    s.onDev (fun d =>
      if d.heatState (x - 48) = 1 then d else (d.heatOut (x - 48)).setHeat (x - 48) { d.heat (x - 48) with rstReq := true })
  else
    let s := if 64 ≤ x && x < 80 then s.siteLost (x - 64) else s
    (s.onDev (fun d => ((d.domainLost x).domainStart x).afterDomain x)).capEval

def execDomainReset (x : BitVec 7) (key : BitVec 16) (s : State) : Host.Outcome State Fault Refusal :=
  .next (s.domainReset x.toNat key.toNat)

/-- The words of unit u back at reset, active and shadow. -/
def Dev.unitCleared (d : Dev) (u : UnitId) : Dev :=
  let ks := d.unitKeys u
  { d with regs := Table.dropWhere ks.contains d.regs, shadow := Table.dropWhere ks.contains d.shadow }

/-- GLB_URST: accepted with its key while the unit is STOPPED; the unit's fields return to reset with the consequences a
COMMIT of those values has, its references are rewritten, event 0x0F0F. -/
def State.unitReset (s : State) (cls idx key : Nat) : State :=
  if key ≠ 0x5253 then s
  else match uclassOfCode cls with
    | none => s.onDev (·.ucShow cls idx 3 0)
    | some c =>
      let u : UnitId := ⟨c, idx⟩
      if s.dev.devBusy u then s.onDev (·.ucEnd u 2 0)
      else
      let s := s.onDev (·.pin u)
      if !s.dev.unitExists u false then s.onDev (·.ucEnd u 3 0)
      else if s.dev.memberOp u then s.onDev (·.ucEnd u 4 0x0A)
      else if !s.dev.unitStopped u then s.onDev (·.ucEnd u 1 0)
      else
        let old := s.dev
        let blocks := old.unitBlocks u
        let s := State.commitEffect old { s with dev := old.unitCleared u } u
        (s.onDev (fun d =>
          let d := d.refWriteAll blocks
          (d.ucEnd u 0 0).raise 0x0F0F (cls * 4096 + idx))).capEval

def execUnitReset (cls : BitVec 4) (idx : BitVec 12) (key : BitVec 16) (s : State) : Host.Outcome State Fault Refusal :=
  .next (s.unitReset cls.toNat idx.toNat key.toNat)

/-! ### Adaptive voltage (R387) -/

/-- The voltage one step up or down, within 680–800 mV, avs_min and avs_max. -/
def Dev.avsNext (d : Dev) : Option Bool → Nat
  | some true =>
    let v := d.get .GLB_AVS_STAT_vdd_cmd 0 + 5
    if v ≤ min 800 (d.get .GLB_AVS_CTL_avs_max 0) then v else d.get .GLB_AVS_STAT_vdd_cmd 0
  | some false =>
    let v := d.get .GLB_AVS_STAT_vdd_cmd 0
    if max 680 (d.get .GLB_AVS_CTL_avs_min 0) + 5 ≤ v then v - 5 else v
  | none => d.get .GLB_AVS_STAT_vdd_cmd 0

/-- Whether a ms has passed since the last adjustment. -/
def Dev.avsDue (d : Dev) : Bool := match d.sys.avsAt with | some t => d.ticksPast t 1000000 | none => true

/-- AVS_ADJUST: a command to the regulator, where one is due, at most once per ms; without a response, after three more tries,
the last commanded value is kept, and event 0x0F0E reports the fault. -/
def Dev.avsAdjust (d : Dev) (up : Option Bool) (answered : Bool) : Dev :=
  let v := d.avsNext up
  if !d.bit .GLB_AVS_CTL_avs_en 0 || !d.avsDue || v = d.get .GLB_AVS_STAT_vdd_cmd 0 then d
  else
    let d : Dev := { d with sys := { d.sys with avsAt := some d.ticks } }
    if answered then (d.set .GLB_AVS_STAT_vdd_cmd 0 v).set .GLB_AVS_STAT_avs_fault 0 0
    else (d.set .GLB_AVS_STAT_avs_fault 0 1).raise 0x0F0E 0

def execAvsAdjust (up : Option Bool) (answered : Bool) (s : State) : Host.Outcome State Fault Refusal :=
  .next (s.onDev (·.avsAdjust up answered))

/-! ### Temperature (R389–R391) -/

/-- The readings as signed quarter degrees, sensor by sensor. -/
def readings (temps : List (BitVec 16)) : List Int := (List.range 16).map (fun k => (temps.getD k 0).toInt)

/-- The sensor with the highest reading, the lowest of several. -/
def hottest (l : List Int) : Nat :=
  ((List.range l.length).find? (fun k => l.all (fun v => decide (v ≤ l.getD k 0)))).getD 0

/-- One sensor's reading and peak. -/
def Dev.sense (d : Dev) (k : Nat) (t : Int) : Dev :=
  let p := sx 16 (d.get .GLB_THERM_T_peak k)
  (d.set .GLB_THERM_T_temp k (un 16 t)).set .GLB_THERM_T_peak k (un 16 (max p t))

/-- THERM_L goes to b: event 0x0F0C; asserted, every queue sheds at once (R110, R390). -/
def Dev.thermGo (d : Dev) (b : Bool) (k : Nat) : Dev :=
  if d.bit .GLB_THERM_STAT_therm 0 == b then d
  else
    let d := ((d.setB .GLB_THERM_STAT_therm 0 b).setB .GLB_STAT_therm_warn 0 b).raise 0x0F0C (bitNat b + k * 16)
    if b then d.shedAll else d

/-- THERMAL_SAMPLE: readings, peaks, the hottest sensor; THERM_L with its hysteresis (R389, R390). A device held in reset
reads no sensor, and its THERM_L stays released (R397). -/
def Dev.thermSample (d : Dev) (temps : List (BitVec 16)) : Dev :=
  if d.sys.held then d else
  let l := readings temps
  let k := hottest l
  let top := l.getD k 0
  let lim : Int := (4 * d.get .GLB_THERM_CTL_therm_lim 0 : Nat)
  let low : Int := lim - (4 * d.get .GLB_THERM_CTL_therm_hyst 0 : Nat)
  let d := l.zipIdx.foldl (fun d p => d.sense p.2 p.1) d
  let d := (d.set .GLB_THERM_STAT_hottest 0 k).set .GLB_THERM_STAT_t_max 0 (un 16 top)
  if lim ≤ top then d.thermGo true k else if top < low then d.thermGo false k else d

def execThermalSample (temps : List (BitVec 16)) (s : State) : Host.Outcome State Fault Refusal :=
  .next (s.onDev (·.thermSample temps))

/-- THERMAL_TRIP: THERMTRIP_L latches, every transmitter turns off, OWN_L goes high-impedance, event 0x0F0D (R391). -/
def Dev.thermTrip (d : Dev) (k : Nat) : Dev :=
  if d.sys.thermTripPin then d
  else
    let d : Dev := { d with sys := { d.sys with thermTripPin := true } }
    let d := (List.range 192).foldl Dev.txEval (d.set .GLB_THERM_STAT_trip 0 1)
    d.raise 0x0F0D k

def execThermalTrip (k : Fin 16) (s : State) : Host.Outcome State Fault Refusal := .next (s.onDev (·.thermTrip k.val))

end Sys2Proof.Machine
end

