-- ==== Sys2Proof/Machine/RegWrite.lean ====
section
/-!
DEFINITION. A write and a read of one register word (R13, R14): the field types, and the operation that a write of each
register with an effect of its own starts. Every writer of a register reaches it through these: the host port, and the
boot sequencer with the records of an image (R353).
-/
namespace Sys2Proof.Machine

/-! ### Field types (R13) -/

/-- The bits of register r with fields of type t. -/
def Reg.bitsOf (r : Reg) (t : FType) : Word :=
  r.info.fields.foldl (fun m f => if f.ty == t then m ||| BitVec.ofNat 32 ((2 ^ f.w - 1) <<< f.lo) else m) 0

/-- A write of word w: RW fields take it, W1C fields are cleared by ones, RWS fields take it in the shadow; RO, RC, WO and
reserved bits ignore it. -/
def Dev.fieldWrite (d : Dev) (r : Reg) (i : Nat) (w : Word) : Dev :=
  let rw := r.bitsOf .rw
  let cur := d.word r i
  let d := d.setWord r i (((cur &&& ~~~rw) ||| (w &&& rw)) &&& ~~~(w &&& r.bitsOf .w1c))
  let rws := r.bitsOf .rws
  if rws = 0 then d else d.setShWord r i ((d.shWord r i &&& ~~~rws) ||| (w &&& rws))

/-- The registers of a tributary's overhead that exist once per level: its level 0 has none (R71, R96). -/
def Reg.levelled (r : Reg) : Bool :=
  [Reg.ODU_OH_LVL_CTL, .ODU_OH_DEGTHR, .ODU_OH_DEF, .ODU_OH_FAIL, .ODU_OH_TTI_EXP, .ODU_OH_TTI_ACC, .ODU_OH_TTI_TX,
    .ODU_PM_SEC].contains r

/-- Whether word i of register r belongs to level 0 of a tributary. -/
def Reg.absent (r : Reg) (i : Nat) : Bool := r.levelled && i / r.per 2 % 8 == 0

/-! ### Registers that start something -/

/-- GLB_PD_BOOT: only the bits of PD_H0–PD_H15 and of PD_RECPORT to PD_TRACE have effect (R392). -/
def pdBootMask (i : Nat) : Word := if i = 1 then 0xFFFF0000 else if i = 2 then 0xFF000000 else 0

/-- GLB_UC_CMD: an operation put to the unit-control engine, which is busy until STOP, COMMIT or START carries it out; a write
while it is busy is discarded (R342). A class that does not exist is refused at once. -/
def Dev.ucCmd (d : Dev) (w : Word) : Dev :=
  let op := Fld.GLB_UC_CMD_op.of w
  let cls := Fld.GLB_UC_CMD_class.of w
  let idx := Fld.GLB_UC_CMD_index.of w
  if op = 0 then d
  else if d.ucBusy then d.set .GLB_UC_STAT_uc_overrun 0 1
  else match uclassOfCode cls with
    | none => d.ucShow cls idx 3 0
    | some c => ({ d with host := { d.host with ucOp := some (op, ⟨c, idx⟩) } } : Dev).set .GLB_UC_STAT_uc_busy 0 1

/-- CPL_Q_CMD: host queues only (R196). -/
def State.queueCmd (s : State) (i op : Nat) : State :=
  if op = 0 || 5 ≤ op then s
  else if s.dev.get .CPL_Q_CFG_owner_kind i ≠ 0 then s.onDev (·.qCmdErr i)
  else
    let p := s.dev.word .CPL_Q_ARG i
    if op = 1 then s.onDev (·.qMarkNow i) else if op = 2 then s.onDev (·.qMarkAt i p)
    else if op = 3 then s.onDev (·.qRewind i) else s.qReleaseTo i p

/-- CPL_HOST_OP: an operation; its queue field is taken whatever op is, but for a PUSH or POP written while one is in
progress, which is discarded (R13, R206). -/
def State.hostOp (s : State) (w : Word) : State :=
  let q := Fld.CPL_HOST_OP_queue.of w
  match Fld.CPL_HOST_OP_op.of w with
  | 1 => s.hostPush q
  | 2 => s.hostPop q ⟨0, [], false⟩
  | 3 => (s.onDev (·.set .CPL_HOST_OP_queue 0 q)).hostCancel
  | _ => s.onDev (·.set .CPL_HOST_OP_queue 0 q)

/-- PRT_GRP_CMD (R215). -/
def Dev.groupCmd (d : Dev) (g op sig : Nat) : Dev :=
  d.commanded (fun d =>
    if op = 1 then d.groupClear g
    else if 2 ≤ op && op ≤ 5 then d.groupCommand g op (if op = 2 then 0 else sig)
    else if op = 6 then d.groupFreeze g
    else if op = 7 then d.groupUnfreeze g
    else d)

/-- CHK_CK_CMD (R268, R270): other operations do nothing, but for their refusal while a scan job owns the engine (R269). -/
def Dev.ckCmd (d : Dev) (k : Nat) (w : Word) : Dev :=
  match Fld.CHK_CK_CMD_op.of w with
  | 1 => d.ckDo k (·.ckInit k)
  | 2 => d.ckDo k (·.ckPreset k (Fld.CHK_CK_CMD_preset.of w))
  | _ => d.ckDo k id

/-- A parameter of engine k; CHK_CK_RES follows it (R269, R270). -/
def Dev.ckParam (d : Dev) (k : Nat) (r : Reg) (w : Word) : Dev := d.ckDo k (fun d => (d.fieldWrite r k w).ckShow k)

/-- CHK_SCAN_CMD; a STOP that comes through this register comes before the job has read an element (R272). -/
def State.scanCmd (s : State) (op : Nat) : State :=
  if op = 1 then s.onDev (·.scanGo) else if op = 2 then s.scanStop 0 [] 0 [] [] else s

/-- MTX_MRST: the domain resets of M5, M6 and M9 (R284). -/
def Dev.mrst (d : Dev) (w : Word) : Dev :=
  [5, 6, 9].foldl (fun d m => if w.getLsbD m then d.masterReset m else d) d

/-- MTX_MODE: a change of mode_req (R289). -/
def Dev.modeWrite (d : Dev) (w : Word) : Dev :=
  let req := Fld.MTX_MODE_mode_req.of w != 0
  if req == d.bit .MTX_MODE_mode_req 0 then d else if req then d.mxToLayered else d.mxToNormal

/-- REC_CMD (R320). -/
def Dev.recCmd (d : Dev) (w : Word) : Dev :=
  match Fld.REC_CMD_op.of w with
  | 1 => d.recFormatCmd (Fld.REC_CMD_key.of w)
  | 2 => d.recRescan
  | 3 => d.recRebuild
  | 4 => d.recClose
  | _ => d

/-- REC_RD_CMD: its settings, and an operation; one written while busy is discarded whole, but for CANCEL (R322). -/
def Dev.recRdCmd (d : Dev) (w : Word) : Dev :=
  let op := Fld.REC_RD_CMD_op.of w
  if 1 ≤ op && op ≤ 3 && d.bit .REC_RD_CMD_busy 0 then d.set .REC_RD_CMD_status 0 3
  else
    let d := d.fieldWrite .REC_RD_CMD 0 w
    if op = 1 then d.rdRead else if op = 2 then d.rdAnchor else if op = 3 then d.rdLookup else if op = 4 then d.rdCancel else d

/-- REC_CS_CMD (R325, R326): TRIGGER acts where the slot's trigger is COMMAND. -/
def State.slotCmd (s : State) (k op : Nat) : State :=
  if op = 1 then s.onDev (·.capArm k)
  else if op = 2 then (if s.dev.get .REC_CS_CFG_trig_kind k = 0 then s.capTrigger k s.dev.dtime else s)
  else if op = 3 then s.capDisarm k
  else s

/-- Messages pending on unmasked vectors are sent, or wait for the end of a moderation time (R334). -/
def Dev.msixFlush (d : Dev) : Dev :=
  (List.range 64).foldl (fun d v => if (d.word .GLB_MSIX_PBA (v / 32)).getLsbD (v % 32) then d.msixDue v else d) d

/-- GLB_PD_CMD: a request for a domain (R386). -/
def Dev.pdCmd (d : Dev) (w : Word) : Dev :=
  let x := Fld.GLB_PD_CMD_d.of w
  if x < 96 then d.pdRequest x (Fld.GLB_PD_CMD_on.of w != 0) else d

/-- A write of word w to word i of register r: the fields take it, and what the register starts is started. The BOOT block's
commands are the boot sequencer's and stand with it. -/
def State.regWrite (s : State) (r : Reg) (i : Nat) (w : Word) : State :=
  let plain (s : State) : State := s.onDev (·.fieldWrite r i w)
  if r.absent i then s
  else match r with
  | .CH_FEC_SNAP => if w.getLsbD 0 then s.onDev (·.fecSnap i) else s
  | .STR_CTL => (plain s).onDev (·.shedForceWrite (Fld.STR_CTL_shed_force.of w))
  | .FLT_SYNC_CMD => s.onDev (·.syncCommand (w.setWidth 8))
  | .FLT_BANK_FLIP => s.onDev (·.bankFlips (w.toNat % 2 ^ 16))
  | .FLT_COEF => s.onDev (·.coefWrite i (w.toNat % 2 ^ 18))
  | .CPL_Q_CMD => s.queueCmd i (Fld.CPL_Q_CMD_op.of w)
  | .CPL_POOL_CMD => if w.getLsbD 0 then s.onDev (·.poolRebuild) else s
  | .CPL_HOST_OP =>
    (s.onDev (fun d => d.setWord .CPL_HOST_OP 0 (d.word .CPL_HOST_OP 0 &&& ~~~(w &&& r.bitsOf .w1c)))).hostOp w
  | .PRT_GRP_CMD => s.onDev (·.groupCmd i (Fld.PRT_GRP_CMD_op.of w) (Fld.PRT_GRP_CMD_sig.of w))
  | .PAIR_CMD => if w.getLsbD 0 then s.onDev (·.pairResync) else s
  | .CHK_CK_CFG => s.onDev (·.ckParam i r w)
  | .CHK_CK_POLY_LO => s.onDev (·.ckParam i r w)
  | .CHK_CK_POLY_HI => s.onDev (·.ckParam i r w)
  | .CHK_CK_INIT_LO => s.onDev (·.ckParam i r w)
  | .CHK_CK_INIT_HI => s.onDev (·.ckParam i r w)
  | .CHK_CK_XOR_LO => s.onDev (·.ckParam i r w)
  | .CHK_CK_XOR_HI => s.onDev (·.ckParam i r w)
  | .CHK_CK_RUN_LO => s.onDev (fun d => d.ckDo i (fun d => { d with check := { d.check with runLo := Table.ins d.check.runLo i w } }))
  | .CHK_CK_RUN_HI => s.onDev (fun d => d.ckDo i (·.ckRunLoad i w))
  | .CHK_CK_DIN => s.onDev (fun d => d.ckDo i (·.ckFeed i (leBytes 4 w.toNat)))
  | .CHK_CK_DIN8 => s.onDev (fun d => d.ckDo i (·.ckFeed i [w.setWidth 8]))
  | .CHK_CK_CMD => s.onDev (·.ckCmd i w)
  | .CHK_CK_RES_LO => s.onDev (·.ckDo i id)
  | .CHK_CK_RES_HI => s.onDev (·.ckDo i id)
  | .CHK_CK_BYTES => s.onDev (·.ckDo i id)
  | .CHK_SCAN_CMD => s.scanCmd (Fld.CHK_SCAN_CMD_op.of w)
  | .CHK_TBL_INJ => s.onDev (·.refInject (Fld.CHK_TBL_INJ_inj_b.of w) (w.getLsbD 10) (w.getLsbD 11))
  | .MTX_MODE => s.onDev (·.modeWrite w)
  | .MTX_MRST => s.onDev (·.mrst w)
  | .MTX_HANG_REC => if w.getLsbD 0 then s.onDev (·.mxHangRelease) else s
  | .REC_CMD => s.onDev (·.recCmd w)
  | .REC_RD_CMD => s.onDev (·.recRdCmd w)
  | .REC_CS_CMD => s.slotCmd i (Fld.REC_CS_CMD_op.of w)
  | .GLB_UC_CMD => s.onDev (·.ucCmd w)
  | .GLB_EVT_RD => (plain s).onDev (·.ringOverrun)
  | .GLB_MSIX_TABLE => (plain s).onDev (·.msixFlush)
  | .GLB_TIME_CTL => (plain s).onDev (·.timeShow)
  | .GLB_CLK_CTL => (plain s).onDev (·.clkCtl)
  | .GLB_DTIME_LOAD_HI => s.onDev (·.dtimeLoad w)
  | .GLB_PD_RST => s.domainReset (Fld.GLB_PD_RST_d.of w) (Fld.GLB_PD_RST_key.of w)
  | .GLB_URST => s.unitReset (Fld.GLB_URST_class.of w) (Fld.GLB_URST_index.of w) (Fld.GLB_URST_key.of w)
  | .GLB_PD_CMD => (plain s).onDev (·.pdCmd w)
  | .GLB_PD_BOOT => s.onDev (·.setWord .GLB_PD_BOOT i (w &&& pdBootMask i))
  | _ => plain s

/-! ### Reads (R13, R337) -/

/-- The word of a record of four-byte words at place j. -/
def wordAt (bs : List Byte) (j : Nat) : Word := BitVec.ofNat 32 (leField bs (4 * j) 4)

/-- What word i of register r holds: of the registers that show the state of a function, that state. -/
def Dev.shown (d : Dev) (r : Reg) (i : Nat) : Word :=
  match r with
  | .PAIR_STAT => d.pairStat
  | .PAIR_HEALTH => d.pairHealth
  | .SSW_PORT => d.sswPort i
  | .SSW_SLICE => d.sswSlice i
  | .SSW_BRIDGE => d.sswBridge i
  | .SL_SRV_STAT => Fld.SL_SRV_STAT_learn_full.into (d.word r i) (bitNat (d.learnFull i))
  | .STR_EPOCH => BitVec.ofNat 32 (d.now / 250000)
  | .REC_STAT => Fld.REC_STAT_early.into (d.word r i) (bitNat d.early)
  | .REC_RD_APER => wordAt (d.recr.aper.getD (i / 1024) []) (i % 1024)
  | .GLB_STAT => Fld.GLB_STAT_owner.into (d.word r i) (bitNat d.owning)
  | .GLB_TIME_STAT =>
    Fld.GLB_TIME_STAT_using_partner.into (d.word r i) (bitNat (d.followsPartner && d.sys.partnerValid))
  | .GLB_DTIME_LO => d.dtime.setWidth 32
  | .GLB_DTIME_HI => BitVec.ofNat 32 (d.now / 2 ^ 32)
  | .GLB_EVT_RING => match Table.find d.host.ring (i / 8) with | some e => wordAt (evBytes e) (i % 8) | none => 0
  | _ => d.word r i

/-- The registers of an aligner (R69). -/
def alnRegs : List Reg :=
  [.CH_ALN_CTL, .CH_ALN_TIME, .CH_ALN_STAT, .CH_ALN_CAND, .CH_ALN_MIMIC, .CH_ALN_EVT] ++ alnCounters

/-- Whether word i of register r belongs to an aligner that its channel does not have (R51). -/
def Dev.alnAbsent (d : Dev) (r : Reg) (i : Nat) : Bool := alnRegs.contains r && d.noAligner (i / r.per 1)

/-- What a read of word i of register r returns: RWS fields their shadow, WO fields 0. -/
def Dev.readWord (d : Dev) (r : Reg) (i : Nat) : Word :=
  if r.absent i || d.alnAbsent r i then 0
  else
    let rws := r.bitsOf .rws
    (((d.shown r i &&& ~~~rws) ||| (d.shWord r i &&& rws))) &&& ~~~r.bitsOf .wo

/-- A read returns the RC fields of word i of register r to their reset value. -/
def Dev.readClear (d : Dev) (r : Reg) (i : Nat) : Dev :=
  let rc := r.bitsOf .rc
  if rc = 0 then d else d.setWord r i ((d.word r i &&& ~~~rc) ||| (r.resetWord i &&& rc))

/-- The _HI half of a register that is split in two (R337). The words w0 and w1 of MTX_PRIO (R300) are no such pair. -/
def Reg.hiOf : Reg → Option Reg
  | .CH_FEC_CW_LO => some .CH_FEC_CW_HI
  | .CH_FEC_CSYM_LO => some .CH_FEC_CSYM_HI
  | .CH_FEC_CBIT_LO => some .CH_FEC_CBIT_HI
  | .CHK_CK_POLY_LO => some .CHK_CK_POLY_HI
  | .CHK_CK_INIT_LO => some .CHK_CK_INIT_HI
  | .CHK_CK_XOR_LO => some .CHK_CK_XOR_HI
  | .CHK_CK_RUN_LO => some .CHK_CK_RUN_HI
  | .CHK_CK_RES_LO => some .CHK_CK_RES_HI
  | .CHK_SCAN_START_LO => some .CHK_SCAN_START_HI
  | .MTX_HANG_ADDR_LO => some .MTX_HANG_ADDR_HI
  | .REC_RING_ID_LO => some .REC_RING_ID_HI
  | .REC_SEG_SEQ_LO => some .REC_SEG_SEQ_HI
  | .REC_DRV_DUW_LO => some .REC_DRV_DUW_HI
  | .GLB_READY_Q_LO => some .GLB_READY_Q_HI
  | .GLB_DTIME_LO => some .GLB_DTIME_HI
  | .GLB_DTIME_LOAD_LO => some .GLB_DTIME_LOAD_HI
  | .BOOT_HIST_QSKIP_LO => some .BOOT_HIST_QSKIP_HI
  | .BOOT_HIST_QALT_LO => some .BOOT_HIST_QALT_HI
  | _ => none

/-- A read of a _LO half latches its _HI half, which the next read of that half returns. -/
def Dev.latchHi (d : Dev) (r : Reg) (i : Nat) : Dev :=
  match r.hiOf with
  | some h => { d with host := { d.host with latched := Table.ins d.host.latched (h.key i) (d.readWord h i) } }
  | none => d

/-- One 4-byte read by the host: the value, and the device after it. -/
def Dev.busRead (d : Dev) (r : Reg) (i : Nat) : Word × Dev :=
  match Table.find d.host.latched (r.key i) with
  | some v =>
    (v, ({ d with host := { d.host with latched := Table.del d.host.latched (r.key i) } } : Dev).readClear r i)
  | none => (d.readWord r i, (d.latchHi r i).readClear r i)

end Sys2Proof.Machine
end

