-- ==== Sys2Proof/Machine/Image.lean ====
section
/-!
DEFINITION. The flash and what start-up reads from it (R348–R355, R362, R367): bytes, the image header and records with
their checks, the signature, the policy, and the entries of the boot journal.
-/
namespace Sys2Proof.Machine

/-! ### Flash bytes (R348, R349) -/

/-- n flash bytes from address a: an unlisted byte is erased. -/
def flashBytes : List Host.Cell → Nat → Nat → List Byte
  | _, _, 0 => []
  | [], _, n + 1 => List.replicate (n + 1) 0xFF
  | (i, b) :: r, a, n + 1 =>
    if i = a then b :: flashBytes r (a + 1) n else 0xFF :: flashBytes ((i, b) :: r) (a + 1) n

/-- n flash bytes from address a. -/
def flashAt (m : List Host.Cell) (a n : Nat) : List Byte := flashBytes (m.dropWhile (fun c => decide (c.1 < a))) a n

/-- The byte b at address a, not listed where it is erased. -/
def flashPut : List Host.Cell → Nat → Byte → List Host.Cell
  | [], a, b => if b = 0xFF then [] else [(a, b)]
  | (i, c) :: r, a, b =>
    if a < i then (if b = 0xFF then (i, c) :: r else (a, b) :: (i, c) :: r)
    else if i = a then (if b = 0xFF then r else (a, b) :: r)
    else (i, c) :: flashPut r a b

/-- The canonical form of the flash: addresses strictly rising, no erased byte listed. -/
def flashWf : List Host.Cell → Bool
  | [] => true
  | [(_, b)] => b != 0xFF
  | (i, b) :: (j, c) :: r => b != 0xFF && decide (i < j) && flashWf ((j, c) :: r)

/-- The flash with given bytes. -/
def flashOf (l : List Host.Cell) : List Host.Cell := l.foldl (fun m c => flashPut m c.1 c.2) []

/-- Sizes that start-up accepts: 128 Mbit to 2 Gbit in whole sectors. -/
def flashSizeOk (f : Nat) : Bool := 2 ^ 24 ≤ f && f ≤ 2 ^ 28 && f % 8192 == 0

/-- Where a slot begins, and its length. -/
def slotBase (f slot : Nat) : Nat := if slot = 0 then 0 else f / 2
def slotLen (f slot : Nat) : Nat := if slot = 0 then f / 2 else f / 2 - 2 ^ 20
/-- Where the journal begins. -/
def journalBase (f : Nat) : Nat := f - 2 ^ 20

/-- Whether two byte ranges share a byte. -/
def overlaps (a n b m : Nat) : Bool := decide (a < b + m) && decide (b < a + n)

/-! ### The image header (R350, R356) -/

/-- The header of a slot. -/
def Dev.slotHeader (d : Dev) (slot : Nat) : List Byte := flashAt d.boot.flash (slotBase d.boot.flashSize slot) 256

/-- The header CRC of a slot. -/
def hdrCrcOf (h : List Byte) : Word := wordAt h 63

/-- Why a slot is no candidate (R356 item 2), by the codes of event 0x0105: header, part or stepping, length, marked bad. -/
def Dev.slotRefusal (d : Dev) (slot : Nat) : Option Nat :=
  let h := d.slotHeader slot
  let len := leField h 8 4
  let at_ := slotBase d.boot.flashSize slot
  if leField h 0 4 ≠ 0x4D495846 || hdrCrcOf h != crc32c (h.take 252) || d.boot.torn.any (fun t => overlaps t.1 t.2 at_ 256)
  then some 1
  else if leField h 12 2 ≠ 0x9192 || d.get .GLB_ID_stepping 0 < leField h 14 1 then some 2
  else if len < 256 || 2 ^ 23 < len || slotLen d.boot.flashSize slot < len then some 4
  else if Table.find d.boot.imgBad slot == some (hdrCrcOf h) then some 8
  else none

/-! ### Records (R351–R354) -/

/-- The size of a configuration table (R275). -/
def tableSize : Nat → Nat
  | 1 => 192 * 4096 | 2 => 3072 * 64 | 3 => 256 * 1024 | 4 => 2048 * 128 | 5 => 768 * 64 | 6 => 8192
  | 7 => 4096 * 16 | 8 => 4096 | 9 => 4096 | _ => 0

/-- Whether an offset of an ADDR_VALUE pair is allowed (R353): aligned, in an occupied block of R337, not BOOT or MTX. -/
def pairOffsetOk (off : Nat) : Bool := off % 4 == 0 && (busTarget off).isSome && !(0x900000 ≤ off && off < 0xA00000)

/-- The pairs of an ADDR_VALUE body. -/
def pairsOf (body : List Byte) : List (Nat × Word) :=
  (List.range (body.length / 8)).map (fun i => (leField body (8 * i) 4, wordAt body (2 * i + 1)))

/-- The bytes of a POLICY body that are 0. -/
def policyZero (b : List Byte) : Bool := (b.take 20 ++ (b.drop 42).take 6).all (· == 0)

/-- Whether a pin rate is one of R367. -/
def pinRateOk (v : Nat) : Bool := v == 28 || v == 32 || v == 36 || v == 40

/-- Whether a POLICY body keeps the rules of R367. -/
def policyOk (b : List Byte) : Bool :=
  b.length == 48 && policyZero b && (List.range 20).all (fun i => (byteAt b (20 + i)).toNat ≤ 3)
    && (List.range 5).all (fun s => byteAt b (20 + 4 * s + 1) != 0 && byteAt b (20 + 4 * s + 3) != 0)
    && pinRateOk (byteAt b 40).toNat && pinRateOk (byteAt b 41).toNat && (byteAt b 41).toNat ≤ (byteAt b 40).toNat

/-- Whether a record keeps the rules of its type (R352–R354, R367). -/
def imgRecOk (r : ImgRec) : Bool :=
  if r.ty = 1 then r.arg1 == 0 && r.body.length == 8 * r.arg0 && (pairsOf r.body).all (fun p => pairOffsetOk p.1)
  else if r.ty = 2 then 1 ≤ r.arg0 && r.arg0 ≤ 9 && r.arg1 % 4 == 0 && decide (r.arg1 + r.body.length ≤ tableSize r.arg0)
  else if r.ty = 3 then decide (r.arg1 ≤ 2 ^ 21) && decide (r.arg1 ≤ r.body.length) && decide (r.body.length < r.arg1 + 4)
  else if r.ty = 4 then r.arg0 == 0 && r.arg1 == 0 && policyOk r.body
  else r.ty == 0xFF && r.arg0 == 0 && r.arg1 == 0 && r.body.length == 96

/-- One record at the head of the bytes, with the bytes behind it; none where its header or its CRC is wrong. -/
def takeRec (b : List Byte) : Option (ImgRec × List Byte) :=
  let len := leField b 4 4
  if b.length < 16 || len < 20 || len % 4 ≠ 0 || b.length < len || leField b 2 2 ≠ 0
      || BitVec.ofNat 32 (leField b (len - 4) 4) != crc32c (b.take (len - 4)) then none
  else some (⟨leField b 0 2, leField b 8 4, leField b 12 4, (b.take (len - 4)).drop 16⟩, b.drop len)

/-- n records that fill the bytes exactly. -/
def takeRecs : Nat → List Byte → Option (List ImgRec)
  | 0, [] => some []
  | 0, _ :: _ => none
  | n + 1, b =>
    match takeRec b with
    | some (r, rest) => (takeRecs n rest).map (r :: ·)
    | none => none

/-- The order and counts of R351 and R352: FIRMWARE first and once, POLICY second if at all, END last and once. -/
def recordOrderOk (l : List ImgRec) : Bool :=
  let tys := l.map (·.ty)
  let mid := ((tys.drop 1).dropLast)
  let mid := if mid.head? == some 4 then mid.drop 1 else mid
  tys.head? == some 3 && tys.getLast? == some 0xFF && decide (2 ≤ tys.length) && mid.all (fun t => t == 1 || t == 2)

/-- The header rules that are not candidate rules: version, lengths, reserved bytes, keys of an unsigned image (R350). -/
def headerFormOk (h : List Byte) : Bool :=
  leField h 4 2 == 1 && leField h 6 2 == 256 && leField h 15 1 ≤ 1 && ((h.drop 192).take 60).all (· == 0)
    && (leField h 15 1 == 1 || ((h.drop 32).take 96).all (· == 0))

/-- The image of a slot with its records, or the refusal code of R370: structure, no signature with a key fused, key
hash, signature (R355, R356 item 4). -/
def Dev.readImage (d : Dev) (slot : Nat) : Except Nat Image :=
  let at_ := slotBase d.boot.flashSize slot
  let h := d.slotHeader slot
  let len := leField h 8 4
  let b := flashAt d.boot.flash at_ len
  let signed := leField h 15 1 == 1
  let key := (h.drop 32).take 96
  let fused := d.boot.keyHash.any (· != 0)
  if !headerFormOk h || d.boot.torn.any (fun t => overlaps t.1 t.2 at_ len) then .error 3
  else match takeRecs (leField h 20 4) (b.drop 256) with
    | none => .error 3
    | some l =>
      if !recordOrderOk l || !l.all imgRecOk then .error 3
      else if fused && !signed then .error 5
      else if fused && Config.sha384 key != d.boot.keyHash then .error 6
      else if signed && !Config.ecdsaValid key ((l.getLast?.map (·.body)).getD []) (b.take (len - 100)) then .error 7
      else .ok ⟨slot, leField h 16 4, signed, hdrCrcOf h, l⟩

/-! ### Policy (R366, R367) -/

/-- The policy that holds without a POLICY record: the bytes 20–41 of its body. -/
def defaultPolicy : List Nat := [1, 2, 1, 2,  1, 2, 2, 2,  0, 2, 0, 2,  1, 1, 0, 1,  0, 2, 0, 2,  40, 28]

/-- The policy of an image. -/
def Image.policy (i : Image) : List Nat :=
  match i.recs.find? (·.ty == 4) with
  | some r => (List.range 22).map (fun k => (byteAt r.body (20 + k)).toNat)
  | none => defaultPolicy

/-- The action of stage s: 0 act_fail1, 1 act_fail2, 2 act_cut1, 3 act_cut2; coded 0 REPEAT, 1 ALT, 2 SKIP, 3 HALT. -/
def Dev.act (d : Dev) (s k : Nat) : Nat := d.boot.policy.getD (4 * (s - 5) + k) 0
def Dev.gddrRate (d : Dev) : Nat := d.boot.policy.getD 20 40
def Dev.gddrMin (d : Dev) : Nat := d.boot.policy.getD 21 28

/-! ### Journal entries as read (R362, R365) -/

/-- The two numbers of a history field. -/
def histOf (stage : Nat) (b : List Byte) : Nat × Nat :=
  match stage with
  | 2 => (leField b 32 4, leField b 36 4)
  | 5 => (leField b 32 6, leField b 38 6)
  | 6 => (leField b 32 2, leField b 34 1)
  | 8 => (leField b 32 1, 0)
  | _ => (0, 0)

/-- A progress record at slot i, where it is valid. -/
def progOf (b : List Byte) (i : Nat) : Option JProg :=
  if byteAt b 0 == 0x50 && leField b 2 2 == i && sealedOk b then
    some ⟨BitVec.ofNat 64 (leField b 4 4), leField b 8 6, leField b 14 6, leField b 20 6, leField b 26 1⟩
  else none

/-- A closing record, where it is valid. -/
def closeOf (b : List Byte) : Option JClose :=
  if byteAt b 0 == 0x43 && sealedOk b then
    some ⟨leField b 1 1, leField b 2 1, BitVec.ofNat 64 (leField b 4 8), leField b 12 6, leField b 18 6⟩
  else none

/-- The entry that the 4 KiB of a sector hold: none where the opening record fails its CRC. -/
def entryOf (b : List Byte) : Option JEntry :=
  let o := b.take 64
  if leField o 0 4 ≠ 0x4A424E4C || leField o 4 1 ≠ 1 || !sealedOk o then none
  else
    let hist := histOf (leField o 5 1) o
    some { jseq := leField o 8 4, stage := leField o 5 1, attempt := leField o 6 1, strike := leField o 7 1
           startNo := leField o 12 4, opened := BitVec.ofNat 64 (leField o 16 8), action := leField o 24 1
           cause := leField o 25 1, slot := leField o 26 1, hdrCrc := wordAt o 7, histA := hist.1, histB := hist.2
           progress := (List.range 112).filterMap (fun i => progOf ((b.drop (256 + 32 * i)).take 32) i)
           closing := closeOf ((b.drop 3840).take 32) }

/-- The entries of a flash of size f. -/
def journalOf (m : List Host.Cell) (f : Nat) : List JEntry :=
  let j := m.dropWhile (fun c => decide (c.1 < journalBase f))
  (List.range 256).filterMap (fun i =>
    let a := journalBase f + 4096 * i
    if j.any (fun c => decide (a ≤ c.1) && decide (c.1 < a + 4096)) then entryOf (flashAt j a 4096) else none)

end Sys2Proof.Machine
end

