-- ==== Sys2Proof/Machine/Start.lean ====
section
/-!
DEFINITION. Start-up (R356–R366) and the system reset it follows (R381, R382, R417): the boot journal, the ten stages, the
actions on false starts, the watchdog.
-/
namespace Sys2Proof.Machine

def Dev.onBoot (d : Dev) (f : BootSt → BootSt) : Dev := { d with boot := f d.boot }

/-- The stage open, or the last one. -/
def Dev.stage (d : Dev) : Nat := d.get .BOOT_STAT_stage 0

/-- Whether stage n is open. -/
def Dev.inStage (d : Dev) (n : Nat) : Bool := d.boot.open_ && d.stage == n

/-! ### The journal (R362–R364) -/

/-- The entry e as the journal holds it, in the place of one with the same sector. -/
def putEntry (l : List JEntry) (e : JEntry) : List JEntry := l.filter (fun x => x.jseq % 256 != e.jseq % 256) ++ [e]

/-- The open entry changes; an entry of S0 or S1 waits for S2, any other is programmed at once. -/
def Dev.setCur (d : Dev) (e : JEntry) : Dev :=
  d.onBoot (fun b => { b with cur := some e, journal := if e.stage < 2 then b.journal else putEntry b.journal e })

/-- A program or an erase of the journal failed: event 0x010B, no more entries in this start (R363). -/
def Dev.journalFail (d : Dev) (jseq : Nat) : Dev :=
  ((d.onBoot (fun b => { b with cur := none })).set .BOOT_STAT_jnl_err 0 1).raise 0x010B (jseq % 256)

/-- The cumulative item sets of the open stage go to the next progress slot. -/
def Dev.progress (d : Dev) : Dev :=
  match d.boot.cur with
  | some e =>
    if e.progress.length < 112 then
      let rate := if e.stage = 6 then d.get .BOOT_HIST_SITE_pin_rate 0 else 0
      let p : JProg := ⟨d.dtime, d.boot.itBegun, d.boot.itDone, d.boot.itFailed, rate⟩
      d.setCur { e with progress := e.progress ++ [p] }
    else d
  | none => d

/-- Bad-image marks as the history field of S2 carries them. -/
def Dev.badMark (d : Dev) (slot : Nat) : Nat := (Table.get d.boot.imgBad slot 0).toNat

/-- A 48-bit mask register. -/
def Dev.mask48 (d : Dev) (lo hi : Reg) : Nat := (d.word lo 0).toNat + (d.word hi 0).toNat % 2 ^ 16 * 2 ^ 32
def Dev.setMask48 (d : Dev) (lo hi : Reg) (v : Nat) : Dev :=
  (d.setWord lo 0 (BitVec.ofNat 32 v)).setWord hi 0 (BitVec.ofNat 32 (v / 2 ^ 32 % 2 ^ 16))
def Dev.qskip (d : Dev) : Nat := d.mask48 .BOOT_HIST_QSKIP_LO .BOOT_HIST_QSKIP_HI
def Dev.qalt (d : Dev) : Nat := d.mask48 .BOOT_HIST_QALT_LO .BOOT_HIST_QALT_HI
def Dev.siteExcl (d : Dev) : Nat := d.get .BOOT_HIST_SITE_excl 0
def Dev.drvFailed (d : Dev) : Nat := d.get .BOOT_HIST_DRV_drv 0

/-- The history field of a stage as it stands (R362). -/
def Dev.history (d : Dev) : Nat → Nat × Nat
  | 2 => (d.badMark 0, d.badMark 1)
  | 5 => (d.qskip, d.qalt)
  | 6 => (d.siteExcl, d.get .BOOT_HIST_SITE_pin_rate 0)
  | 8 => (d.drvFailed, 0)
  | _ => (0, 0)

/-- The entry that stage n opens now. -/
def Dev.newEntry (d : Dev) (n : Nat) : JEntry :=
  let a := Table.get d.boot.actions n 0
  { jseq := d.get .BOOT_JSEQ_jseq 0, stage := n, attempt := d.boot.attempt, strike := d.get .BOOT_FS_strike n
    startNo := d.get .BOOT_START_start_no 0, opened := d.dtime, action := if a = 4 then 0 else a
    cause := d.get .BOOT_AON_reset_cause 0
    slot := match d.boot.image with | some i => i.slot | none => 0xFF
    hdrCrc := match d.boot.image with | some i => i.hdrCrc | none => 0
    histA := (d.history n).1, histB := (d.history n).2, progress := [], closing := none }

/-- An entry takes the next place of the journal: at most 32 in a start, none after a failure (R363, R364). -/
def Dev.openEntry (d : Dev) (e : JEntry) : Dev :=
  let d := d.onBoot (fun b => { b with cur := none })
  if d.bit .BOOT_STAT_jnl_err 0 then d
  else if 32 ≤ d.get .BOOT_STAT_entries 0 then
    if d.bit .BOOT_STAT_capped 0 then d else (d.set .BOOT_STAT_capped 0 1).raise 0x0108 0
  else
    let e := { e with jseq := d.get .BOOT_JSEQ_jseq 0 }
    let d := d.onBoot (fun b => { b with cur := some e, journal := putEntry b.journal e, erased := b.erased - 1 })
    (d.wrap .BOOT_JSEQ_jseq 0 1).wrap .BOOT_STAT_entries 0 1

/-- Stage n opens, in its attempt: item sets empty, opening record, event 0x0101. -/
def Dev.openStage (d : Dev) (n attempt : Nat) : Dev :=
  let d := d.onBoot (fun b => { b with
    open_ := true, attempt := attempt, begun := false, itBegun := 0, itDone := 0, itFailed := 0, openedAt := d.ticks })
  let d := ((d.set .BOOT_STAT_stage 0 n).set .BOOT_AON_last_stage 0 n).set .BOOT_AON_last_done 0 0
  let d := if n < 2 then d.setCur (d.newEntry n) else d.openEntry (d.newEntry n)
  d.raise 0x0101 (n + attempt * 16)

/-- The open stage closes: closing record, event 0x0102; the entries of S0 and S1 are kept for S2. -/
def Dev.closeStage (d : Dev) (result reason : Nat) : Dev :=
  let n := d.stage
  let d := match d.boot.cur with
    | some e =>
      let e := { e with closing := some ⟨result, reason, d.dtime, d.boot.itDone, d.boot.itFailed⟩ }
      if n < 2 then d.onBoot (fun b => { b with early := b.early ++ [e] }) else d.setCur e
    | none => d
  let d := (d.onBoot (fun b => { b with cur := none, open_ := false })).set .BOOT_AON_last_done 0 1
  d.raise 0x0102 (n + result * 16)

/-- The start halts at the open stage (R356, R366). -/
def Dev.haltStart (d : Dev) (reason : Nat) : Dev :=
  let d := d.closeStage 4 reason
  (d.set .BOOT_STAT_state 0 2).raise 0x0109 d.stage

/-! ### System reset (R381, R382, R417) -/

/-- The registers that a system reset leaves: those of domain AON (R15). -/
def aonRegs (t : Table Word) : Table Word :=
  t.filter (fun e => match Reg.ofIdx (e.1 / 2 ^ 20) with | some r => r.info.dom == .aon | none => false)

/-- A host command of the flash that a reset cuts off leaves what it was to erase or program in doubt (R368). -/
def BootSt.cutOff (b : BootSt) : List (Nat × Nat) :=
  match b.flashOp with
  | some (2, a, _) => b.torn ++ [(a, 4096)]
  | some (3, a, _) => b.torn ++ [(a, 256)]
  | _ => b.torn

/-- The device in reset: everything outside the always-on registers at reset, what the always-on region and the board hold
kept: DTIME and its sources, THERMTRIP_L and its status bit, the pins, the flash with its journal, the events counted since
PWRON_L, and the alive counters sent on the baton and the pacer (R281). -/
def Dev.inReset (d : Dev) : Dev :=
  let r : Dev := { Dev.reset with
    regs := aonRegs d.regs, ticks := d.ticks, dtime := d.dtime, fresh := d.fresh
    host := { HostSt.init with evSeq := d.host.evSeq }
    boot := { BootSt.init with open_ := false, flash := d.boot.flash, torn := d.boot.cutOff, journal := d.boot.journal
                               erased := d.boot.erased }
    pair := { PairSt.init with aliveTxBaton := d.pair.aliveTxBaton, aliveTxPacer := d.pair.aliveTxPacer }
    sys := { d.sys with rootOn := false, tryOther := false, pdQueue := [], pdServing := none, quadNrz := [], held := true
                        avsAt := none
                        tasksNow := 0, tasksSecond := 0, fwRunning := false } }
  let r := ((r.set .GLB_CLK_STAT_root_state 0 0).set .GLB_CLK_STAT_host_lock 0 0).set .GLB_CLK_STAT_rec_lock 0 0
  ((r.set .GLB_CLK_STAT_baton_lock 0 0).set .GLB_GDDR_PLL_g_lock 0 0).setB .GLB_THERM_STAT_trip 0 (d.bit .GLB_THERM_STAT_trip 0)

/-- The block in reset: the pool's contents are gone with it. -/
def State.inReset (s : State) : State := { s with dev := s.dev.inReset, pool := Pool.init }

/-- Reset is released: the root PLL enters ACQUIRE, S0 opens. A start whose last one did not get through S0 and S1 tries
the other reference first (R363, R372, R382). -/
def Dev.released (d : Dev) (cause : Nat) : Dev :=
  let other := d.get .BOOT_AON_last_stage 0 ≤ 1
    && !(d.get .BOOT_AON_last_stage 0 == 1 && d.bit .BOOT_AON_last_done 0)
  let sys := { d.sys with rootOn := true, tryOther := cause != 0 && other, held := false, acquireAt := d.ticks }
  let d : Dev := { d with sys := sys }
  let d := (d.set .BOOT_AON_reset_cause 0 cause).setB .PAIR_STAT_arb_req 0 d.sys.arbPin
  (d.openStage 0 0)

/-- A system reset from inside the device (R358, R357, R369): asserted and released. -/
def State.systemReset (s : State) (cause : Nat) : State := s.inReset.onDev (·.released cause)

/-- SYS_RST_L. While the TAP holds the device, its release releases nothing. -/
def State.resetPin (s : State) : ResetPin → State
  | .assert => s.inReset.onDev (fun d => { d with sys := { d.sys with rstPin := true } })
  | .release =>
    if !s.dev.sys.rstPin then s
    else
      let s := s.onDev (fun d => { d with sys := { d.sys with rstPin := false } })
      if s.dev.sys.tap then s else s.onDev (·.released 1)

def execSystemReset (p : ResetPin) (s : State) : Host.Outcome State Fault Refusal := .next (s.resetPin p)

/-- R417: an instruction that disturbs operation holds the device as SYS_RST_L does; the next that does not lets it start. -/
def State.tapDisturb (s : State) : State := s.inReset.onDev (fun d => { d with sys := { d.sys with tap := true } })

def State.tapRelease (s : State) : State :=
  if !s.dev.sys.tap then s
  else
    let s := s.onDev (fun d => { d with sys := { d.sys with tap := false } })
    if s.dev.sys.rstPin then s else s.onDev (·.released 1)

/-- The TAP loads instruction i. -/
def State.tapLoad (s : State) (i : TapInstr) : State :=
  let s := s.onDev (fun d => { d with sys := { d.sys with tapIr := i } })
  if i.disturbs then s.tapDisturb else s.tapRelease

def execTapDisturb (i : TapInstr) (s : State) : Host.Outcome State Fault Refusal := .next (s.tapLoad i)

def execTapRelease (i : TapInstr) (s : State) : Host.Outcome State Fault Refusal := .next (s.tapLoad i)

/-- The IDCODE (R416): version, part, manufacturer, 1. -/
def idcode : BitVec 32 := (0x1 : BitVec 4) ++ (0x9192 : BitVec 16) ++ Config.manufacturer ++ (1 : BitVec 1)

/-- PWRON_L (R381): the whole device as after reset; the board keeps the flash and the level of ARB_REQ; MGT_ADDR is sampled
(R335). -/
def State.pwron (s : State) (mgt : BitVec 2) : State :=
  { State.reset with
    dev := { State.reset.dev with
      regs := (State.reset.dev.setB .PAIR_STAT_arb_req 0 s.dev.sys.arbPin).regs
      fresh := s.dev.fresh
      boot := { State.reset.dev.boot with flash := s.dev.boot.flash, torn := s.dev.boot.cutOff
                                          journal := s.dev.boot.journal, erased := s.dev.boot.erased }
      sys := { SysSt.init with arbPin := s.dev.sys.arbPin, mgtAddr := mgt } }
    pending := s.pending }

def execPwron (mgt : BitVec 2) (s : State) : Host.Outcome State Fault Refusal := .next (s.pwron mgt)

/-- The time limit of stage n in ms (R358). -/
def stageLimit (n : Nat) : Nat := [10, 10, 2000, 100, 1000, 100, 2500, 1000, 2000].getD n 50

/-- START_WATCHDOG (R358): the open stage has reached its limit. -/
def State.startWatchdog (s : State) : State :=
  if s.dev.boot.open_ && s.dev.bit .BOOT_CTL_wd_en 0 && s.dev.ticksPast s.dev.boot.openedAt (stageLimit s.dev.stage * 1000000) then
    s.systemReset 2
  else s

def execStartWatchdog (s : State) : Host.Outcome State Fault Refusal := .next s.startWatchdog

/-- BOOT_CMD op RESTART; a device held in reset takes none (R417). -/
def execRestart (s : State) : Host.Outcome State Fault Refusal := .next (if s.dev.sys.held then s else s.systemReset 4)

/-! ### Learning from false starts (R365) -/

/-- The entries that count: those newer than the newest history-clear marker. -/
def liveEntries (l : List JEntry) : List JEntry :=
  match (l.filter (·.stage == 0x0F)).map (·.jseq) |>.max? with
  | some m => l.filter (fun e => decide (m < e.jseq))
  | none => l

/-- The newest entry of a stage. -/
def newestOf (l : List JEntry) (n : Nat) : Option JEntry :=
  let xs := l.filter (·.stage == n)
  xs.find? (fun e => xs.all (fun x => decide (x.jseq ≤ e.jseq)))

/-- What an entry shows: 0 no false start, 1 cut off, 2 failed. -/
def JEntry.found (e : JEntry) : Nat :=
  match e.closing with
  | none => 1
  | some c => if c.result = 2 || c.result = 4 then 2 else 0

/-- The items begun and not done in the last progress record. -/
def JEntry.cutItems (e : JEntry) : Nat :=
  match e.progress.getLast? with
  | some p => p.begun &&& (2 ^ 48 - 1 - p.done)
  | none => 0

/-- The item sets of an entry: done and failed, from its closing or its last progress record. -/
def JEntry.sets (e : JEntry) : Nat × Nat :=
  match e.closing, e.progress.getLast? with
  | some c, _ => (c.done, c.failed)
  | none, some p => (p.done, p.failed)
  | none, none => (0, 0)

/-- The items an entry failed and did not bring up, and those it failed and then did. -/
def JEntry.lost (e : JEntry) : Nat := e.sets.2 &&& (2 ^ 48 - 1 - e.sets.1)
def JEntry.saved (e : JEntry) : Nat := e.sets.2 &&& e.sets.1

/-- The pin rate an entry had in force last. -/
def JEntry.pinRate (e : JEntry) : Nat := match e.progress.getLast? with | some p => p.pinRate | none => e.histB

/-- What stage n learns: BOOT_FS, cut-off items (in S6 after a failure the sites it failed), entries found. -/
def Dev.learnStage (d : Dev) (l : List JEntry) (n : Nat) : Dev :=
  match newestOf l n with
  | none => d
  | some e =>
    let f := e.found
    let strike := if f = 0 then 0 else min (e.strike + 1) 15
    let d := (d.set .BOOT_FS_found n f).set .BOOT_FS_strike n strike
    if f = 0 then d
    else d.onBoot (fun b => { b with
      cutSeqs := b.cutSeqs ++ [e.jseq]
      cut := if f = 1 then Table.ins b.cut n e.cutItems else if n = 6 then Table.ins b.cut n e.lost else b.cut })

/-- A bad-image mark for a slot. -/
def Dev.markImage (d : Dev) (slot : Nat) (crc : Word) : Dev :=
  let d := d.onBoot (fun b => { b with imgBad := Table.ins b.imgBad slot crc })
  d.set .BOOT_IMG_BAD_bad 0 (d.get .BOOT_IMG_BAD_bad 0 ||| 2 ^ (slot % 2))

/-- The history of each stage that keeps one, and the images that S3 and S4 mark: failed, or cut off at strike 2 or more
(R365, R366). -/
def Dev.learnHistory (d : Dev) (l : List JEntry) : Dev :=
  let d := match newestOf l 2 with
    | some e =>
      let d := if e.histA = 0 then d else d.markImage 0 (BitVec.ofNat 32 e.histA)
      if e.histB = 0 then d else d.markImage 1 (BitVec.ofNat 32 e.histB)
    | none => d
  let d := [3, 4].foldl (fun d n =>
    match newestOf l n with
    | some e =>
      if e.slot < 2 && (e.found == 2 || (e.found == 1 && 2 ≤ d.get .BOOT_FS_strike n)) then d.markImage e.slot e.hdrCrc else d
    | none => d) d
  let d := match newestOf l 5 with
    | some e =>
      (d.setMask48 .BOOT_HIST_QSKIP_LO .BOOT_HIST_QSKIP_HI (e.histA ||| e.lost)).setMask48 .BOOT_HIST_QALT_LO
        .BOOT_HIST_QALT_HI (e.histB ||| e.saved)
    | none => d
  let d := match newestOf l 6 with
    | some e => (d.set .BOOT_HIST_SITE_excl 0 (e.histA ||| e.lost)).set .BOOT_HIST_SITE_pin_rate 0 e.pinRate
    | none => d
  match newestOf l 8 with
  | some e => d.set .BOOT_HIST_DRV_drv 0 (e.histA ||| e.sets.2)
  | none => d

/-- Marks lapse when the header CRC of their slot has changed. -/
def Dev.lapseMarks (d : Dev) : Dev :=
  [0, 1].foldl (fun d slot =>
    if (Table.find d.boot.imgBad slot).isSome && Table.find d.boot.imgBad slot != some (hdrCrcOf (d.slotHeader slot)) then
      (d.onBoot (fun b => { b with imgBad := Table.del b.imgBad slot })).set .BOOT_IMG_BAD_bad 0
        (d.get .BOOT_IMG_BAD_bad 0 &&& (3 - 2 ^ slot))
    else d) d

/-- The action code of BOOT_FS for a policy action. -/
def actionCode (a : Nat) : Nat := a + 1

/-- The action of stage n at its strike: by policy from S5 on; S2 to S4 repeat once after a cut-off, and else take another
image (R366). -/
def Dev.stageAction (d : Dev) (n : Nat) : Nat :=
  let f := d.get .BOOT_FS_found n
  let k := d.get .BOOT_FS_strike n
  if k = 0 || n < 2 then 0
  else if n < 5 then (if f = 1 && k = 1 then 1 else 2)
  else actionCode (d.act n ((if f = 1 then 2 else 0) + if 2 ≤ k then 1 else 0))

/-- Each false start found is reported with the action that follows: event 0x0103. -/
def Dev.reportFalseStarts (d : Dev) : Dev :=
  (List.range 10).foldl (fun d n =>
    let f := d.get .BOOT_FS_found n
    if f = 0 then d
    else
      let a := d.stageAction n
      let d := (d.set .BOOT_FS_action n a).onBoot (fun b => { b with actions := Table.put b.actions n a 0 })
      d.raise 0x0103 (n + d.get .BOOT_FS_strike n * 16 + a * 256 + if f = 1 then 2048 else 0)) d

/-- The candidates in the order of R356 item 3. -/
def Dev.candidates (d : Dev) : List Nat :=
  let ok := [0, 1].filter (fun s => (d.slotRefusal s).isNone)
  let ver (s : Nat) : Nat := leField (d.slotHeader s) 16 4
  let pref := d.get .BOOT_CTL_slot_pref 0
  let byVer := if ver 0 < ver 1 then [1, 0] else [0, 1]
  let order := if pref = 1 then [0, 1] else if pref = 2 then [1, 0] else byVer
  order.filter ok.contains

/-- S2 cut off at strike 2 or more marks the image that would be read first (R366), before its opening record carries the
marks. -/
def Dev.markCutOff (d : Dev) : Dev :=
  if d.get .BOOT_FS_found 2 = 1 && 2 ≤ d.get .BOOT_FS_strike 2 then
    match d.candidates.head? with
    | some slot => d.markImage slot (hdrCrcOf (d.slotHeader slot))
    | none => d
  else d

/-! ### S2: flash and image (R348, R356) -/

/-- S2 opens: discovery; the journal is read; the entries of S0 and S1 are written whole, then S2's own is opened. A flash
that fails discovery halts the start. -/
def Dev.openS2 (d : Dev) (w : StageWork) : Dev :=
  let d := match w.flash with
    | some l =>
      let m := flashOf l
      d.onBoot (fun b => { b with
        flash := m.filter (fun c => decide (c.1 < journalBase w.flashSize)), torn := [], erased := 0
        journal := journalOf m w.flashSize })
    | none => d
  if !flashSizeOk w.flashSize then
    let d := d.onBoot (fun b => { b with open_ := true, attempt := 0, cur := none, openedAt := d.ticks })
    (((d.set .BOOT_STAT_stage 0 2).set .BOOT_AON_last_stage 0 2).set .BOOT_AON_last_done 0 0).raise 0x0101 2 |>.haltStart 0
  else
    let d := d.onBoot (fun b => { b with flashSize := w.flashSize })
    let all := d.boot.journal
    let l := liveEntries all
    let next := match (all.map (·.jseq)).max? with | some m => m + 1 | none => 0
    let start := match (all.map (·.startNo)).max? with | some m => m + 1 | none => 1
    let d := (d.set .BOOT_JSEQ_jseq 0 next).set .BOOT_START_start_no 0 start
    let d := ((((List.range 10).foldl (fun d n => d.learnStage l n) d).learnHistory l).lapseMarks).markCutOff
    let d := d.onBoot (fun b => { b with actions := Table.put b.actions 2 (d.stageAction 2) 0 })
    let d := d.boot.early.foldl (fun d e => d.openEntry { e with startNo := start, strike := d.get .BOOT_FS_strike e.stage }) d
    (d.onBoot (fun b => { b with early := [] })).openStage 2 0

/-- Image i is selected: event 0x0104. -/
def Dev.imageSelected (d : Dev) (i : Image) : Dev :=
  let d := d.onBoot (fun b => { b with image := some i, policy := i.policy })
  let d := ((d.set .BOOT_STAT_image_slot 0 i.slot).setB .BOOT_STAT_signed 0 i.signed).set .GLB_STAT_image_slot 0 i.slot
  ((d.set .BOOT_IMG_img_version 0 i.version).set .BOOT_IMG_CRC_hdr_crc 0 i.hdrCrc.toNat).raise 0x0104
    (i.slot + bitNat i.signed * 2)

/-- No image passes: the start halts at S2, its entry closing with the reason of the latest event 0x0105 (R362; DESIGN
CHOICE, log entry 104). -/
def Dev.noImage (d : Dev) (reason : Nat) : Dev :=
  (d.onBoot (fun b => { b with policy := defaultPolicy })).reportFalseStarts.haltStart reason

/-- The image is chosen (R356 items 4 to 6): each candidate that fails is marked, and S2 goes on in a new attempt with the next
one; when none is left, the start halts. -/
def Dev.chooseImage (d : Dev) (reason : Nat) : Nat → Dev
  | 0 => d.noImage reason
  | n + 1 =>
    match d.candidates.head? with
    | none => d.noImage reason
    | some slot =>
      match d.readImage slot with
      | .ok i =>
        (((d.imageSelected i).reportFalseStarts).closeStage 0 0).readyFn 2 true
      | .error r =>
        let d := (d.markImage slot (hdrCrcOf (d.slotHeader slot))).raise 0x0105 (slot + r * 16)
        if d.candidates.isEmpty then d.noImage r
        else
          let a := d.boot.attempt + 1
          ((d.closeStage 2 r).openStage 2 a).chooseImage r n

/-- S2's work ends: slots that are no candidates are reported, and the image is chosen. -/
def Dev.endS2 (d : Dev) : Dev :=
  let d := [0, 1].foldl (fun d slot =>
    match d.slotRefusal slot with | some r => d.raise 0x0105 (slot + r * 16) | none => d) d
  d.chooseImage ((d.slotRefusal 1).getD 0) 3

/-! ### S3 and S4 (R353, R354, R357, R359, R360) -/

/-- An image failure in S3 or S4 (R357): FAILED, event 0x0105, an internal system reset. The next start marks the slot. -/
def State.imageFailed (s : State) (reason : Nat) : State :=
  let slot := match s.dev.boot.image with | some i => i.slot | none => 0
  (s.onDev (fun d => (d.raise 0x0105 (slot + reason * 16)).closeStage 2 reason)).systemReset 3

/-- The firmware of the image runs: STR_FW_VER, table-0 references (R119, R274). -/
def Dev.loadFirmware (d : Dev) (f : ImgRec) : Dev :=
  let v := f.arg0
  let d := ((d.set .STR_FW_VER_model 0 v).set .STR_FW_VER_major 0 (v / 2 ^ 8)).set .STR_FW_VER_minor 0 (v / 2 ^ 16)
  let d := d.set .STR_FW_VER_build 0 (v / 2 ^ 24)
  (({ d with check := { d.check with fw := f.body.take f.arg1 } } : Dev).refWriteAll (List.range 512)).readyFn 3 true

/-- Whether M1 is stalled by a decode miss (R298, R353). -/
def Dev.bootStalled (d : Dev) : Bool := (Table.find d.matrix.miss 1).isSome

/-- A unit operation of the image (R360): COMMIT at once, START kept, STOP ignored. -/
def State.imageUnitCmd (s : State) (w : Word) : State :=
  let op := Fld.GLB_UC_CMD_op.of w
  match uclassOfCode (Fld.GLB_UC_CMD_class.of w) with
  | none => if op = 2 then s.onDev (·.ucShow (Fld.GLB_UC_CMD_class.of w) (Fld.GLB_UC_CMD_index.of w) 3 0) else s
  | some c =>
    let u : UnitId := ⟨c, Fld.GLB_UC_CMD_index.of w⟩
    if op = 2 then
      let s := s.ucCommit u
      if s.dev.get .GLB_UC_STAT_result 0 = 0 then s
      else s.onDev (·.onBoot (fun b => { b with rejected := b.rejected ++ [u] }))
    else if op = 3 then s.onDev (·.onBoot (fun b => { b with starts := b.starts ++ [u] }))
    else s

/-- The request that an ADDR_VALUE pair makes of the matrix. -/
def m1Req (t off : Nat) : MxReq := ⟨BitVec.ofNat 44 (t * 2 ^ 40 + off), true, 1, 0, true⟩

/-- One ADDR_VALUE pair through M1 (R353): a write as the host's would be. A pair for a target that M1 does not reach is
REFUSED in NORMAL mode (R287); an offset that no register decodes stalls M1 at the bridge, and is ignored by a target that M1
reaches over the fast layer (R298). -/
def State.m1Write (s : State) (off : Nat) (w : Word) : State :=
  let t := (busTarget off).getD 0
  if s.dev.bootStalled then s
  else if (busTarget off).isSome && !mxConnected 1 t && !s.dev.mxLayered then s.onDev (·.mxRefuse 1 (m1Req t off))
  else match regAt off with
    | some (.GLB_UC_CMD, _) => s.imageUnitCmd w
    | some (r, i) =>
      if s.dev.wordDown r i then s.onDev (·.mxEnd 1 (m1Req t off) false) else s.regWrite r i w
    | none =>
      if mxConnected 1 t then s
      else if !s.dev.mxLayered then s.onDev (·.mxRefuse 1 (m1Req t off))
      else s.onDev (fun d => d.mxMiss 1
        { master := 1, req := m1Req t off, target := t, layered := true, issuedAt := d.dtime, tick := d.ticks, granted := true
          hung := false, grantTick := d.ticks, passed := 0 })

/-- A TABLE_BLOCK record: the shadow words it sets, or coefficient words at once (R354); the layout of the tables is not
given (log entry 9). -/
def Dev.tableBlock (d : Dev) (r : ImgRec) : Dev :=
  let ws := (Config.tableWords r.arg0 r.arg1 r.body).filter (fun e =>
    match Reg.ofIdx (e.1 / 2 ^ 20) with
    | some g => (g.blocks (e.1 % 2 ^ 20)).any (fun b => blockTable b == r.arg0)
    | none => false)
  let d := ws.foldl (fun d e =>
    match Reg.ofIdx (e.1 / 2 ^ 20) with
    | some .FLT_COEF => (d.set .FLT_COEF_coef (e.1 % 2 ^ 20) e.2.toNat).growEval (e.1 % 2 ^ 20 / 128)
    | some g => d.setShWord g (e.1 % 2 ^ 20) (e.2 &&& g.bitsOf .rws)
    | none => d) d
  if r.arg0 = 6 then d.refWriteAll [892, 893] else d

/-- The records of the image in order (R353, R354). -/
def State.applyRecs (s : State) (l : List ImgRec) : State :=
  l.foldl (fun s r =>
    if s.dev.bootStalled then s
    else if r.ty = 1 then (pairsOf r.body).foldl (fun s p => s.m1Write p.1 p.2) s
    else if r.ty = 2 then s.onDev (·.tableBlock r)
    else s) s

/-- The bit of GLB_PD_BOOT for domain x. -/
def Dev.bootOn (d : Dev) (x : Nat) : Bool := (d.word .GLB_PD_BOOT (x / 32)).getLsbD (x % 32)

/-- The slices that a unit whose START the image carries needs: of the server and the client of a TRIB, of the members of a
PGROUP (R359). -/
def Dev.unitSlices (d : Dev) (u : UnitId) : List Nat :=
  match u.cls with
  | .trib => (List.range 8).filter (fun x => d.tribInSlice x u.idx)
  | .pgroup => ((d.memberPlaces u.idx).map (fun k => d.memberSrc u.idx k)).flatMap (fun k =>
      if isTribSrc k then (List.range 8).filter (fun x => d.tribInSlice x (srcIdx k)) else [sliceOf k])
  | _ => []

/-- The domains switched on at the end of S4, in the order of R359. -/
def Dev.s4Domains (d : Dev) : List Nat :=
  let used := d.boot.starts.flatMap d.unitSlices
  ([domFilt 0, domFilt 1].filter d.bootOn) ++ ((List.range 8).filter used.contains).map domSlice
    ++ ((List.range 16).map domHeat).filter d.bootOn ++ [domScan, domCapt, domTrace].filter d.bootOn

/-- S4 opens: the records are applied, the references of tables 1 to 9 written (R274), then the domains are asked for. -/
def State.openS4 (s : State) : State :=
  let s := s.onDev (·.openStage 4 0)
  let s := (s.applyRecs ((s.dev.boot.image.map (·.recs)).getD [])).onDev (·.refWriteAll ((List.range 912).drop 512))
  if s.dev.bootStalled then s else s.onDev (fun d => d.s4Domains.foldl (fun d x => d.pdRequest x true) d)

/-- S3's work ends: firmware whose model is not 1 is an image failure (R357). -/
def State.endS3 (s : State) (ok : Bool) : State :=
  match s.dev.boot.image with
  | none => s
  | some i =>
    match i.recs.head? with
    | none => s
    | some f =>
      if !ok || f.arg0 % 256 ≠ 1 then s.imageFailed 9
      else (s.onDev (fun d => (d.loadFirmware f).closeStage 0 0)).openS4

/-- The START operations of the image for the units chosen by p, in image order; a rejected unit is not started (R360). -/
def State.issueStarts (s : State) (p : UnitId → Bool) : State :=
  let now := s.dev.boot.starts.filter p
  let s := s.onDev (·.onBoot (fun b => { b with starts := b.starts.filter (fun u => !p u) }))
  (now.filter (fun u => !s.dev.boot.rejected.contains u)).foldl (fun s u => s.ucStart u) s

/-- The classes started at the end of S4. -/
def startsInS4 (u : UnitId) : Bool :=
  match u.cls with | .trib => true | .pgroup => true | .fctx => true | .queue => true | .cslot => true | _ => false

/-! ### S5: quads (R358, R366) -/

/-- Items as a mask bit. -/
def bitOf (k : Nat) : Nat := 2 ^ k

/-- Quad q is left off (R366): event 0x0106. -/
def Dev.leaveQuad (d : Dev) (q : Nat) : Dev :=
  let d := d.setMask48 .BOOT_HIST_QSKIP_LO .BOOT_HIST_QSKIP_HI (d.qskip ||| bitOf q)
  (d.onBoot (fun b => { b with degraded := true, batch := b.batch.filter (· != q) })).raise 0x0106 (5 + q * 16)

/-- Quad q runs on its secondary VCO setting: event 0x0107. -/
def Dev.altQuad (d : Dev) (q : Nat) : Dev :=
  (d.setMask48 .BOOT_HIST_QALT_LO .BOOT_HIST_QALT_HI (d.qalt ||| bitOf q)).raise 0x0107 (5 + q * 16)

/-- The next batch of 8 quads begins: its slices and its quads are asked for. -/
def Dev.nextBatch (d : Dev) : Dev :=
  let qs := d.boot.quadsLeft.take 8
  if qs.isEmpty then d
  else
    let d := d.onBoot (fun b => { b with
      batch := qs, quadsLeft := b.quadsLeft.drop 8, itBegun := b.itBegun ||| lvlMask' qs })
    qs.foldl (fun d q =>
      let x := domSlice (q / 6)
      (if d.pdOn x then d else d.pdRequest x true).pdRequest (domQuad q) true) d.progress
where
  /-- The mask of a list of items. -/
  lvlMask' (l : List Nat) : Nat := l.foldl (fun v k => v ||| bitOf k) 0

/-- S5 opens with its action on the cut-off quads; the quads the history leaves off are named. -/
def Dev.openS5 (d : Dev) : Dev :=
  let a := Table.get d.boot.actions 5 0
  let cut := (List.range 48).filter (fun q => (Table.get d.boot.cut 5 0).testBit q)
  let d := d.onBoot (fun b => { b with degraded := false, quadTried := [] })
  let old := d.qskip
  let d := if a = 3 then d.setMask48 .BOOT_HIST_QSKIP_LO .BOOT_HIST_QSKIP_HI (cut.foldl (fun v q => v ||| bitOf q) d.qskip)
    else if a = 2 then d.setMask48 .BOOT_HIST_QALT_LO .BOOT_HIST_QALT_HI (cut.foldl (fun v q => v ||| bitOf q) d.qalt)
    else d
  let d := d.openStage 5 0
  if a = 4 then d.haltStart 0
  else
    let d := if a = 2 then cut.foldl Dev.altQuad d else d
    let used := (List.range 48).filter d.quadUsed
    let d := (used.filter (fun q => (old ||| d.qskip).testBit q)).foldl Dev.leaveQuad d
    (d.onBoot (fun b => { b with quadsLeft := used.filter (fun q => !d.qskip.testBit q), batch := [] })).nextBatch

/-- Line units whose quads are all up are started (R360). -/
def State.startLines (s : State) : State :=
  if !s.dev.inStage 5 then s
  else s.issueStarts (fun u =>
    (u.cls == .channel || u.cls == .bond) && (s.dev.unitQuads u.idx).all s.dev.quadReady)

/-- QUAD_PLL_LOCK in S5 brings up the units that waited for the quad. -/
def execQuadPllLock (q : Quad) (s : State) : Host.Outcome State Fault Refusal :=
  .next (s.onDev (·.quadPllLock q.val)).startLines

/-- The policy action for item k of stage n, which has failed: act_fail1, then act_fail2; after both the item is left out. -/
def Dev.failAction (d : Dev) (n k : Nat) : Nat :=
  match Table.get d.boot.itActs (64 * n + k) 0 with
  | 0 => d.act n 0
  | 1 => d.act n 1
  | _ => 2

/-- An action on item k of stage n is taken. -/
def Dev.acted (d : Dev) (n k : Nat) : Dev :=
  d.onBoot (fun b => { b with
    itActs := Table.ins b.itActs (64 * n + k) (Table.get b.itActs (64 * n + k) 0 + 1), itFailed := b.itFailed ||| bitOf k })

/-- A quad fails in S5 (R358, R366). -/
def Dev.quadFailed (d : Dev) (q : Nat) : Dev :=
  let a := d.failAction 5 q
  let d := (d.acted 5 q).onBoot (fun b => { b with quadTried := Table.del b.quadTried q })
  if a = 0 then d
  else if a = 1 then d.altQuad q
  else if a = 2 then (d.leaveQuad q).pdRequest (domQuad q) false
  else d.haltStart 0

/-- QUAD_PLL_LOCK_TIMEOUT: a quad of the batch that is on has no lock 2 ms later: retried once, then failed; each try has 2 ms
of its own. -/
def Dev.quadTimeout (d : Dev) (q : Nat) : Dev :=
  if !d.inStage 5 || !d.boot.batch.contains q || !d.pdOn (domQuad q) || d.quadLocked q
      || !d.ticksPast (Table.get d.boot.quadAt q 0) 2000000 then d
  else
    let d := d.onBoot (fun b => { b with quadAt := Table.ins b.quadAt q d.ticks })
    if Table.get d.boot.quadTried q 0 = 0 then d.onBoot (fun b => { b with quadTried := Table.ins b.quadTried q 1 })
    else d.quadFailed q

def execQuadPllLockTimeout (q : Quad) (s : State) : Host.Outcome State Fault Refusal := .next (s.onDev (·.quadTimeout q.val))

/-- QUAD_BATCH_DONE: every quad of the batch is up; the next batch begins. -/
def State.quadBatchDone (s : State) : State :=
  if !s.dev.inStage 5 || !s.dev.boot.batch.all s.dev.quadReady then s
  else
    let s := s.onDev (fun d => (d.onBoot (fun b => { b with
      itDone := b.batch.foldl (fun v q => v ||| bitOf q) b.itDone, batch := [] })))
    (s.onDev (fun d => (if s.dev.boot.itBegun = 0 then d else d.progress))).startLines.onDev (·.nextBatch)

def execQuadBatchDone (s : State) : Host.Outcome State Fault Refusal := .next s.quadBatchDone

/-! ### S6: sites (R358, R366) -/

/-- The pin rate in force. -/
def Dev.pinRate (d : Dev) : Nat := d.get .BOOT_HIST_SITE_pin_rate 0

/-- Site k is excluded: event 0x0106. -/
def Dev.excludeSite (d : Dev) (k : Nat) : Dev :=
  let d := ((d.set .BOOT_HIST_SITE_excl 0 (d.siteExcl ||| bitOf k)).set .CPL_SITE_STAT_site_state k 1).onBoot
    (fun b => { b with degraded := true })
  d.raise 0x0106 (6 + k * 16)

/-- The next site from k on that is not excluded begins. -/
def Dev.nextSite (d : Dev) (k : Nat) : Dev :=
  match (List.range 16).find? (fun j => k ≤ j && !d.siteExcl.testBit j) with
  | none => d.onBoot (fun b => { b with site := none })
  | some j =>
    let d := d.onBoot (fun b => { b with site := some j, siteTried := 0, itBegun := b.itBegun ||| bitOf j })
    d.progress.pdRequest (domSite j) true

/-- Whether the pin rate can go 4 Gbit/s lower. -/
def Dev.canLower (d : Dev) : Bool := d.gddrMin + 4 ≤ d.pinRate

/-- The pin rate goes 4 Gbit/s lower for item k. -/
def Dev.lowerRate (d : Dev) : Dev := d.set .BOOT_HIST_SITE_pin_rate 0 (d.pinRate - 4)

/-- Event 0x0107 of S6. -/
def Dev.altSite (d : Dev) (k : Nat) : Dev := d.raise 0x0107 (6 + k * 16 + d.pinRate / 4 * 1024)

/-- S6 opens with its action on the cut-off sites; excluded sites stay off and are named. -/
def Dev.openS6 (d : Dev) : Dev :=
  let a := Table.get d.boot.actions 6 0
  let cut := (List.range 16).filter (fun k => (Table.get d.boot.cut 6 0).testBit k)
  let rate := if d.pinRate = 0 then d.gddrRate else min d.pinRate d.gddrRate
  let d := (d.set .BOOT_HIST_SITE_pin_rate 0 rate).onBoot (fun b => { b with degraded := false, itActs := [] })
  let lower := a = 2 && d.canLower
  let d := if lower then d.lowerRate
    else if a = 2 || a = 3 then d.set .BOOT_HIST_SITE_excl 0 (cut.foldl (fun v k => v ||| bitOf k) d.siteExcl) else d
  let d := d.openStage 6 0
  if a = 4 then d.haltStart 0
  else
    let d := if lower then cut.foldl Dev.altSite d else d
    (((List.range 16).filter d.siteExcl.testBit).foldl Dev.excludeSite d).nextSite 0

/-- Site k is live: what training found, its ready bit. -/
def Dev.siteLive (d : Dev) (k : Nat) (clam : Bool) (density : Nat) : Dev :=
  let d := ((d.set .CPL_SITE_STAT_site_state k 2).setB .CPL_SITE_STAT_clamshell k clam).set .CPL_SITE_STAT_density k density
  let d := (d.set .CPL_SITE_STAT_pin_rate k d.pinRate).set .CPL_POOL_STAT_sites_live 0
    (d.get .CPL_POOL_STAT_sites_live 0 ||| bitOf k)
  d.readySite k true

/-- Every site is retrained 4 Gbit/s lower, in a further attempt (R364, R366). The ready bits stand while the sites have power
(R361). -/
def Dev.retrainAll (d : Dev) (k : Nat) : Dev :=
  let n := d.boot.attempt + 1
  let d := d.progress.closeStage 2 0
  let d := (List.range 16).foldl (fun d j =>
    if d.get .CPL_SITE_STAT_site_state j = 2 then
      ((((d.set .CPL_SITE_STAT_site_state j 0).set .CPL_SITE_STAT_clamshell j 0).set .CPL_SITE_STAT_density j 0).set
        .CPL_SITE_STAT_pin_rate j 0).set .CPL_POOL_STAT_sites_live 0 0
    else d) d
  (((d.lowerRate).openStage 6 n).altSite k).nextSite 0

/-- A site fails in S6 (R366). -/
def Dev.siteFailed (d : Dev) (k : Nat) : Dev :=
  let a := d.failAction 6 k
  let d := d.acted 6 k
  if a = 0 then (d.progress).onBoot (fun b => { b with siteTried := 0 })
  else if a = 1 && d.canLower then d.retrainAll k
  else if a = 3 then d.progress.haltStart 0
  else ((d.progress.excludeSite k).pdRequest (domSite k) false).nextSite (k + 1)

/-- SITE_TRAINING_DONE: an attempt at the site in training ends; the site is retried once, then it fails. A site without a
device is ABSENT, and its work is done (R185, R399; DESIGN CHOICE, log entry 105). -/
def Dev.siteTraining (d : Dev) (k : Nat) (ok : Training) (clam : Bool) (density : Nat) : Dev :=
  if !d.inStage 6 || d.boot.site != some k || !d.pdOn (domSite k) then d
  else if ok = .trained then
    let d := (d.siteLive k clam density).onBoot (fun b => { b with itDone := b.itDone ||| bitOf k })
    d.progress.nextSite (k + 1)
  else if ok = .absent then
    let d := (d.set .CPL_SITE_STAT_site_state k 0).onBoot (fun b => { b with itDone := b.itDone ||| bitOf k })
    d.progress.nextSite (k + 1)
  else if d.boot.siteTried = 0 then d.onBoot (fun b => { b with siteTried := 1 })
  else d.siteFailed k

def execSiteTrainingDone (k : Site) (ok : Training) (clam : Bool) (density : BitVec 3) (s : State) : Host.Outcome State Fault Refusal :=
  .next (s.onDev (·.siteTraining k.val ok clam density.toNat))

/-! ### S7: the pool (R358) -/

/-- Every cell of every live site is written, free lists and spare cells are built, the pool is ready; event 0x080C of the
rebuild that runs at every start, which finds no stranded cell, and event 0x0801 (R202, R358). -/
def State.poolInit (s : State) : State :=
  let d := s.dev
  let live := (List.range 16).filter (fun k => d.get .CPL_SITE_STAT_site_state k == 2)
  let p := live.foldl (fun p k => p.setSite k { SiteSt.init with
    size := siteCells (d.get .CPL_SITE_STAT_density k) (d.bit .CPL_SITE_STAT_clamshell k) }) Pool.init
  let n := p.usable
  let s : State := { s with dev := (d.set .CPL_POOL_CELLS_usable 0 n).set .CPL_POOL_FREE_free 0 n, pool := p }
  let s := ((s.dev.listed .CPL_Q_CFG).filter (s.dev.bit .CPL_Q_CFG_en)).foldl (fun s i => s.ensureSpare i) s
  (s.onDev (fun d => (((d.set .CPL_POOL_STRAND_strand 0 0).raise 0x080C 0).poolShort.poolUp).hitlessEval)).capEval

/-! ### S8 and S9: recorder and pair agent (R358–R360) -/

/-- Whether S8 runs: both its domains are to be switched on. -/
def Dev.s8Runs (d : Dev) : Bool := d.bootOn domRecPort && d.bootOn domRecEng

/-- Whether S9 switches PD_BATON on. -/
def Dev.batonWanted (d : Dev) : Bool := d.bootOn domBaton && d.bit .PAIR_CTL_pair_en 0

/-- The drives that the history fails are FAILED until a RESCAN (R366). -/
def Dev.failDrives (d : Dev) (mask : Nat) : Dev :=
  ((List.range 4).foldl (fun d k => if mask.testBit k then d.set .REC_DRV_STAT_drv_state k 1 else d) d).drivesShow

/-- The unit start of S8 or S9, as soon as the domains it needs are on. -/
def State.bootKick (s : State) : State :=
  let d := s.dev
  if d.boot.begun then s
  else if d.inStage 8 && d.pdOn domRecPort && d.pdOn domRecEng then
    let s := s.onDev (fun d =>
      ((List.range 4).filter (fun k => !d.drvFailed.testBit k)).foldl (fun d k =>
          (d.onBoot (fun b => { b with itBegun := b.itBegun ||| bitOf k })).progress)
        ((d.failDrives d.drvFailed).onBoot (fun b => { b with begun := true })))
    s.issueStarts (fun u => u.cls == .recorder)
  else if d.inStage 9 && (!d.batonWanted || d.pdOn domBaton) && d.stopped .pairagent 0 then
    (s.onDev (·.onBoot (fun b => { b with begun := true }))).issueStarts (fun u => u.cls == .pairagent)
  else s

/-- UNIT_STOPPED, with the restart of the pair agent that S9 has asked for (R366). -/
def execUnitStopped (u : UnitId) (s : State) : Host.Outcome State Fault Refusal := .next (s.unitStoppedNow u).bootKick

/-- PD_SWITCH_DONE, with what start-up does next in the domain. -/
def execPdSwitchDone (x : Dom) (s : State) : Host.Outcome State Fault Refusal := .next (s.pdDone x.val).bootKick

/-- S9 opens. -/
def State.openS9 (s : State) : State :=
  let a := Table.get s.dev.boot.actions 9 0
  let s := s.onDev (·.openStage 9 0)
  if a = 4 then s.onDev (·.haltStart 0)
  else
    let skip := a = 2 || a = 3
    let s := if skip then s.onDev (·.onBoot (fun b => { b with starts := b.starts.filter (fun u => u.cls != .pairagent) })) else s
    (s.onDev (fun d => if d.batonWanted && !d.pdOn domBaton then d.pdRequest domBaton true else d)).bootKick

/-- S8 opens: skipped where a domain of it stays off, or by its action. -/
def State.openS8 (s : State) : State :=
  let a := Table.get s.dev.boot.actions 8 0
  let cut := Table.get s.dev.boot.cut 8 0 % 16
  let s := if a = 2 then s.onDev (fun d => d.set .BOOT_HIST_DRV_drv 0 (d.drvFailed ||| cut)) else s
  let s := s.onDev (fun d => (d.onBoot (fun b => { b with degraded := d.drvFailed != 0 })).openStage 8 0)
  if a = 4 then s.onDev (·.haltStart 0)
  else if a = 3 || !s.dev.s8Runs then (s.onDev (·.closeStage 3 0)).openS9
  else
    let d := (List.range 4).foldl (fun d k =>
      if d.drvFailed.testBit k then d.raise (if a = 2 && cut.testBit k then 0x0107 else 0x0106) (8 + k * 16) else d) s.dev
    ({ s with dev := (d.pdRequest domRecPort true).pdRequest domRecEng true } : State).bootKick

/-- S7 opens; it is skipped by its action, and where no site is live. -/
def State.openS7 (s : State) : State :=
  let a := Table.get s.dev.boot.actions 7 0
  let s := s.onDev (·.openStage 7 0)
  if a = 4 then s.onDev (·.haltStart 0)
  else if a = 2 || a = 3 || s.dev.get .CPL_POOL_STAT_sites_live 0 = 0 then (s.onDev (·.closeStage 3 0)).openS8
  else s

/-- The events of S0 and S1 enter the ring, which is usable from now on (R358, R370). -/
def Dev.openRing (d : Dev) : Dev :=
  let rs := d.host.early ++ [d.evNow 0x010C 1]
  let d := ({ d with host := { d.host with early := [] } } : Dev).set ⟨.GLB_READY_FN, 1, 1⟩ 0 1
  rs.foldl Dev.raiseRec d

/-- S1's work: the AVS start point (R387), the fused key hash, the host port's PLL, the event ring. -/
def Dev.endS1 (d : Dev) (w : StageWork) : Dev :=
  let d := if w.avsOk then (d.set .GLB_AVS_STAT_vdd_cmd 0 w.avs).set .GLB_AVS_STAT_avs_fault 0 0
    else (d.set .GLB_AVS_STAT_avs_fault 0 1).raise 0x0F0E 0
  let d := (d.onBoot (fun b => { b with keyHash := w.fusedHash })).set .GLB_CLK_STAT_host_lock 0 1
  (d.closeStage 0 0).openRing

/-! ### The end of a stage (R358) -/

/-- The result of a stage with items: DEGRADED where one is left out. -/
def Dev.itemResult (d : Dev) : Nat := if d.boot.degraded then 1 else 0

/-- A failure of a stage without items is the failure of its one item (R366): REPEAT works again, HALT halts, any other
action goes on without the function. -/
def State.stageFailed (s : State) (n : Nat) (again skip : State → State) : State :=
  let a := s.dev.failAction n 0
  let s := s.onDev (·.acted n 0)
  if a = 0 then again s else if a = 3 then s.onDev (·.haltStart 0) else skip s

/-- S8's drives that failed: FAILED under ALT, brought up again under REPEAT, no recorder under SKIP. -/
def State.drivesFailed (s : State) (mask : Nat) : State :=
  let ks := (List.range 4).filter (fun k => mask.testBit k && !s.dev.drvFailed.testBit k)
  ks.foldl (fun s k =>
    if !s.dev.inStage 8 then s
    else
      let a := s.dev.failAction 8 k
      let s := s.onDev (fun d => (d.acted 8 k).progress)
      if a = 0 then s.onDev (·.discover)
      else if a = 1 then s.onDev (fun d =>
        (((d.set .BOOT_HIST_DRV_drv 0 (d.drvFailed ||| bitOf k)).failDrives (bitOf k)).onBoot (fun b => { b with
          degraded := true })).raise 0x0107 (8 + k * 16))
      else if a = 2 then (s.onDev (fun d => (d.onBoot (fun b => { b with degraded := true })).raise 0x0106 (8 + k * 16))).ucStop
        ⟨.recorder, 0⟩
      else s.onDev (·.haltStart 0)) s

/-- S8's work ends once the ring state is known; a progress record says of each drive that it has ended (R363). -/
def State.endS8 (s : State) (w : StageWork) : State :=
  if !s.dev.boot.begun || s.dev.get .REC_STAT_rec_state 0 = 1 then s
  else
    let s := s.drivesFailed w.drives.toNat
    if !s.dev.inStage 8 || s.dev.get .REC_STAT_rec_state 0 = 1 then s
    else
      (s.onDev (fun d =>
        let up := (List.range 4).filter (fun k => d.boot.itBegun.testBit k && !d.boot.itFailed.testBit k)
        let d := up.foldl (fun d k => (d.onBoot (fun b => { b with itDone := b.itDone ||| bitOf k })).progress) d
        d.closeStage d.itemResult 0)).openS9

/-- Start-up ends: NORMAL is requested, the pair agent is ready where it runs, event 0x010A (R289, R358, R361). -/
def Dev.endS9 (d : Dev) (result : Nat) : Dev :=
  let d := d.closeStage result 0
  let d := if d.stopped .pairagent 0 then d else d.readyFn 9 true
  let d := if d.bit .MTX_MODE_mode_req 0 then d.mxToNormal else d
  let d := (d.set .GLB_STAT_start_done 0 1).set .BOOT_STAT_state 0 1
  d.raise 0x010A (d.get .BOOT_STAT_entries 0)

/-- Whether S9's work has ended: the agent is OFF or past its discovery window. -/
def Dev.s9Over (d : Dev) : Bool :=
  d.boot.begun && (d.agent != 1 || decide (d.get .PAIR_CTL_disc_epochs 0 ≤ d.pair.absentEpochs))

/-- STAGE_END: the open stage ends where its condition of R358 holds, and the next one opens. -/
def State.stageEnd (s : State) (w : StageWork) : State :=
  if !s.dev.boot.open_ then s
  else
    let s := if w.jnlFail then
        (match s.dev.boot.cur with
          | some e => if e.stage < 2 then s else s.onDev (·.journalFail e.jseq)
          | none => s)
      else s
    match s.dev.stage with
    | 0 => if s.dev.rootState = 1 then s.onDev (fun d => (d.closeStage 0 0).openStage 1 0) else s
    | 1 => s.onDev (fun d => (d.endS1 w).openS2 w)
    | 2 => s.onDev (fun d => let d := d.endS2; if d.boot.image.isSome then d.openStage 3 0 else d)
    | 3 => s.endS3 w.ok
    | 4 =>
      if s.dev.bootStalled || s.dev.sys.pdServing.isSome then s
      else if !w.ok then s.imageFailed 10
      else
        let s := s.issueStarts startsInS4
        (s.onDev (fun d =>
          let bad := !d.boot.rejected.isEmpty
          ((d.closeStage (bitNat bad) (bitNat bad)).readyFn 4 true).openS5))
    | 5 =>
      if !s.dev.boot.batch.isEmpty || !s.dev.boot.quadsLeft.isEmpty then s
      else s.onDev (fun d => (d.closeStage d.itemResult 0).openS6)
    | 6 =>
      if s.dev.boot.site.isSome then s
      else
        (s.onDev (fun d =>
          let d := d.closeStage d.itemResult 0
          if d.get .CPL_POOL_STAT_sites_live 0 = 0 then d else d.readyFn 6 true)).openS7
    | 7 =>
      if w.ok then ((s.poolInit).onDev (·.closeStage 0 0)).openS8
      else s.stageFailed 7 id (fun s => (s.onDev (·.closeStage 2 0)).openS8)
    | 8 => s.endS8 w
    | _ =>
      if !s.dev.s9Over then s
      else if w.ok then s.onDev (·.endS9 0)
      else s.stageFailed 9 (fun s => ((s.ucStop ⟨.pairagent, 0⟩).onDev (·.onBoot (fun b => { b with
              begun := false, starts := b.starts ++ [⟨.pairagent, 0⟩] }))).bootKick)
            (fun s => (s.ucStop ⟨.pairagent, 0⟩).onDev (·.endS9 2))

def execStageEnd (w : StageWork) (s : State) : Host.Outcome State Fault Refusal := .next (s.stageEnd w)

/-! ### Journal upkeep, host flash commands (R364, R365, R369) -/

/-- JOURNAL_ERASE: after S9 the next position is erased, up to 32 ahead. -/
def Dev.journalErase (d : Dev) (ok : Bool) : Dev :=
  if d.get .BOOT_STAT_state 0 ≠ 1 || 32 ≤ d.boot.erased || d.bit .BOOT_STAT_jnl_err 0 then d
  else
    let j := d.get .BOOT_JSEQ_jseq 0 + d.boot.erased
    if ok then d.onBoot (fun b => { b with
      erased := b.erased + 1, journal := b.journal.filter (fun e => e.jseq % 256 != j % 256) })
    else d.journalFail j

def execJournalErase (ok : Bool) (s : State) : Host.Outcome State Fault Refusal := .next (s.onDev (·.journalErase ok))

/-- CLEAR_HISTORY: a marker entry; a failed program leaves the history standing. -/
def Dev.clearHistory (d : Dev) (ok : Bool) : Dev :=
  if d.boot.flashSize = 0 || d.bit .BOOT_STAT_jnl_err 0 then d
  else
    let j := d.get .BOOT_JSEQ_jseq 0
    let d := (d.wrap .BOOT_JSEQ_jseq 0 1).onBoot (fun b => { b with
      erased := b.erased - 1, journal := b.journal.filter (fun e => e.jseq % 256 != j % 256) })
    if ok then
      let e : JEntry :=
        ⟨j, 0x0F, 0, 0, d.get .BOOT_START_start_no 0, d.dtime, 0, d.get .BOOT_AON_reset_cause 0, 0xFF, 0, 0, 0, [], none⟩
      (d.onBoot (fun b => { b with journal := putEntry b.journal e })).raise 0x010E 0
    else d.journalFail j

def execClearHistory (ok : Bool) (s : State) : Host.Outcome State Fault Refusal := .next (s.onDev (·.clearHistory ok))

/-- Bytes that a flash operation concerns: READ and PROGRAM 256, ERASE 4,096. -/
def flashOpLen (op : Nat) : Nat := if op = 2 then 4096 else 256

/-- Whether a host flash command is refused (R369): before S2 has ended, in the journal or beyond the flash, in the slot of
the image in use, or unaligned. -/
def Dev.flashRefused (d : Dev) (op a : Nat) : Bool :=
  !d.bit ⟨.GLB_READY_FN, 2, 1⟩ 0 || a % flashOpLen op != 0 || decide (journalBase d.boot.flashSize ≤ a)
    || (match d.boot.image with
        | some i => overlaps a (flashOpLen op) (slotBase d.boot.flashSize i.slot) (slotLen d.boot.flashSize i.slot)
        | none => false)

/-- Event 0x010F. -/
def Dev.flashEvent (d : Dev) (op : Nat) (err refused : Bool) : Dev :=
  d.raise 0x010F (op + bitNat err * 4 + bitNat refused * 8)

/-- BOOT_FLASH_CMD; a command written while one is in progress is ignored. -/
def Dev.flashCmd (d : Dev) (op : Nat) : Dev :=
  let a := d.get .BOOT_FLASH_ADDR_addr 0
  if d.bit .BOOT_FLASH_CMD_busy 0 then d
  else if d.flashRefused op a then (d.set .BOOT_FLASH_CMD_refused 0 1).flashEvent op false true
  else
    let data := (List.range 64).flatMap (fun k => leBytes 4 (d.get .BOOT_FLASH_DATA_data k))
    (d.set .BOOT_FLASH_CMD_busy 0 1).onBoot (fun b => { b with flashOp := some (op, a, if op = 3 then data else []) })

def execFlashRead (s : State) : Host.Outcome State Fault Refusal := .next (s.onDev (·.flashCmd 1))

def execFlashErase (s : State) : Host.Outcome State Fault Refusal := .next (s.onDev (·.flashCmd 2))

def execFlashProgram (s : State) : Host.Outcome State Fault Refusal := .next (s.onDev (·.flashCmd 3))

/-- One flash byte as a READ finds it: free where an erase or program was cut off or failed (log entry 2). -/
def Dev.flashByte (d : Dev) (bs : List Byte) (a i : Nat) : Byte × Dev :=
  if d.boot.torn.any (fun t => decide (t.1 ≤ a + i) && decide (a + i < t.1 + t.2)) then ((d.draw).1.setWidth 8, (d.draw).2)
  else (byteAt bs i, d)

/-- READ: 256 bytes into the buffer. -/
def Dev.flashReadNow (d : Dev) (a : Nat) : Dev :=
  let bs := flashAt d.boot.flash a 256
  (List.range 64).foldl (fun d k =>
    let (w, d) := [0, 1, 2, 3].foldl (fun (x : List Byte × Dev) j =>
      let r := x.2.flashByte bs a (4 * k + j)
      (x.1 ++ [r.1], r.2)) ([], d)
    d.setWord .BOOT_FLASH_DATA k (wordAt w 0)) d

/-- ERASE: the bytes of the sector are erased, and no longer in doubt. -/
def Dev.flashEraseNow (d : Dev) (a : Nat) : Dev :=
  d.onBoot (fun b => { b with
    flash := b.flash.filter (fun c => decide (c.1 < a) || decide (a + 4096 ≤ c.1))
    torn := b.torn.filter (fun t => !(decide (a ≤ t.1) && decide (t.1 + t.2 ≤ a + 4096))) })

/-- PROGRAM: bits are cleared where the buffer holds zeros. -/
def Dev.flashProgramNow (d : Dev) (a : Nat) (data : List Byte) : Dev :=
  let old := flashAt d.boot.flash a 256
  d.onBoot (fun b => { b with
    flash := (data.zipIdx).foldl (fun m p => flashPut m (a + p.2) (p.1 &&& byteAt old p.2)) b.flash })

/-- FLASH_COMMAND_END: the operation has its effect, or the flash reports a failure, and its bytes are in doubt. -/
def Dev.flashEnd (d : Dev) (fail : Bool) : Dev :=
  match d.boot.flashOp with
  | none => d
  | some (op, a, data) =>
    let torn := if fail then d.boot.cutOff else d.boot.torn
    let d := (d.onBoot (fun b => { b with flashOp := none, torn := torn })).set .BOOT_FLASH_CMD_busy 0 0
    let d := if fail then d.set .BOOT_FLASH_CMD_f_err 0 1
      else if op = 1 then d.flashReadNow a else if op = 2 then d.flashEraseNow a else d.flashProgramNow a data
    d.flashEvent op fail false

def execFlashCommandEnd (fail : Bool) (s : State) : Host.Outcome State Fault Refusal := .next (s.onDev (·.flashEnd fail))

end Sys2Proof.Machine
end

