-- ==== Sys2Proof/Machine/HostPort.lean ====
section
/-!
DEFINITION. The host port (chapter 14): BAR0 accesses of the PCIe endpoint (R331, R332), its resets and its link (R333,
R347), interrupt moderation (R334), and the management I2C target (R335, R336).
-/
namespace Sys2Proof.Machine

/-! ### BAR0 (R331, R332, R337) -/

/-- The completion of the last host access. -/
def Dev.complete (d : Dev) (c : Completion) : Dev := { d with host := { d.host with completion := c } }

/-- BOOT_CMD: CLEAR_HISTORY or RESTART, under its key. -/
def State.bootCmd (s : State) (w : Word) : State :=
  if Fld.BOOT_CMD_key.of w ≠ 0x4253 then s
  else match Fld.BOOT_CMD_op.of w with
    | 1 => s.onDev (·.clearHistory true)
    | 2 => s.systemReset 4
    | _ => s

/-- BOOT_FLASH_CMD: W1C bits, then the command. -/
def State.flashWrite (s : State) (w : Word) : State :=
  let s := s.onDev (·.fieldWrite .BOOT_FLASH_CMD 0 w)
  let op := Fld.BOOT_FLASH_CMD_op.of w
  if op = 0 then s else s.onDev (·.flashCmd op)

/-- A host write of word w to the register word that lies at an offset. -/
def State.hostReg (s : State) (r : Reg) (i : Nat) (w : Word) : State :=
  match r with
  | .BOOT_CMD => s.bootCmd w
  | .BOOT_FLASH_CMD => s.flashWrite w
  | _ => s.regWrite r i w

/-- A 4-byte write at a BAR0 offset: discarded where no register lies (R14), and where the domain of the register is off
(R297, R332). -/
def State.write4 (s : State) (off : Nat) (w : Word) : State :=
  match regAt off with
  | none => s
  | some (r, i) => if s.dev.wordDown r i then s.onDev (·.mxDown ((busTarget off).getD 0) false) else s.hostReg r i w

/-- A 4-byte read at a BAR0 offset: the value, and the device after it. -/
def Dev.read4 (d : Dev) (off : Nat) : Word × Dev :=
  match regAt off with
  | none => (0, d)
  | some (r, i) => if d.wordDown r i then (0, d.mxDown ((busTarget off).getD 0) false) else d.busRead r i

/-- Whether BAR0 takes an access of this size here (R331). -/
def barSize (off bytes : Nat) : Bool := (bytes == 4 || bytes == 8) && off % bytes == 0

/-- Whether an access completes with Completer Abort (R332): it needs a target, and the host port reaches none. -/
def Dev.hostAborts (d : Dev) (off : Nat) : Bool := d.hostStuck && (busTarget off).isSome

/-- A host write to BAR0; 8 bytes are two 4-byte writes in ascending order. -/
def State.barWrite (s : State) (off bytes : Nat) (v : BitVec 64) : State :=
  if !barSize off bytes || !s.dev.takesMem bytes then s.onDev (·.complete .unsupported)
  else if s.dev.hostAborts off then s.onDev (·.complete .aborted)
  else
    let s := s.write4 off (v.setWidth 32)
    let s := if bytes = 8 then s.write4 (off + 4) ((v >>> 32).setWidth 32) else s
    s.onDev (·.complete .successful)

/-- The bytes a host read returned. -/
def Dev.returned (d : Dev) (v : BitVec 64) (c : Completion) : Dev :=
  { d with host := { d.host with rdata := v, completion := c } }

/-- A host read of BAR0. -/
def Dev.barRead (d : Dev) (off bytes : Nat) : Dev :=
  if !barSize off bytes || !d.takesMem bytes then d.returned 0 .unsupported
  else if d.hostAborts off then d.returned 0 .aborted
  else
    let a := d.read4 off
    if bytes = 8 then
      let b := a.2.read4 (off + 4)
      b.2.returned (a.1.setWidth 64 ||| (b.1.setWidth 64 <<< 32)) .successful
    else a.2.returned (a.1.setWidth 64) .successful

/-- The configuration space after a field of its own is written (R330): the low bits of a BAR are those of its size and type;
power states other than D0 and D3hot, and payload sizes above 512 bytes, are not taken; AER status bits clear where 1 is
written (PCIe 5.0; PRESUMED, log entry 103). -/
def PciCfg.write (c : PciCfg) (t : WriteTarget) (v : BitVec 64) : PciCfg :=
  match t with
  | .bar0Base => { c with bar0 := (v &&& ~~~BitVec.ofNat 64 (pciIdent.bar0Bytes - 1)) ||| 0x4 }
  | .bar2Base => { c with bar2 := (v &&& ~~~BitVec.ofNat 64 (pciIdent.bar2Bytes - 1)) ||| 0xC }
  | .powerState => if v.toNat = 0 then { c with d3hot := false } else if v.toNat = 3 then { c with d3hot := true } else c
  | .maxPayload => if v.toNat ≤ pciIdent.maxMps.toNat then { c with mps := v.setWidth 3 } else c
  | .aerStatus => { c with aerStatus := c.aerStatus &&& ~~~v.setWidth 32 }
  | _ => c

/-- A field of the endpoint's configuration space (R330, R334). -/
def Dev.configWrite (d : Dev) (t : WriteTarget) (v : BitVec 64) : Dev :=
  let d : Dev := { d with host := { d.host with cfg := d.host.cfg.write t v } }
  let d := match t with
    | .busMasterEnable => d.setB .GLB_HOST_STAT_bme 0 (v.getLsbD 0)
    | .msixEnable => d.setB .GLB_HOST_STAT_msix_en 0 (v.getLsbD 0)
    | .msixFunctionMask => { d with host := { d.host with fnMask := v.getLsbD 0 } }
    | _ => d
  d.msixFlush

/-- REGISTER_WRITE (R13). A device held in reset takes no access. -/
def State.hostWrite (s : State) (t : WriteTarget) (v : BitVec 64) : State :=
  if s.dev.sys.held then s
  else match t with
    | .bar0 off bytes => s.barWrite off.toNat bytes v
    | t => s.onDev (·.configWrite t v)

def execRegisterWrite (t : WriteTarget) (v : BitVec 64) (s : State) : Host.Outcome State Fault Refusal := .next (s.hostWrite t v)

/-- A host read of BAR0 (R13, R337). -/
def Dev.hostRead (d : Dev) (off bytes : Nat) : Dev := if d.sys.held then d else d.barRead off bytes

/-- READ_CLEAR: RC fields return to their reset value after the read. -/
def execReadClear (off : BitVec 26) (bytes : Nat) (s : State) : Host.Outcome State Fault Refusal :=
  .next (s.onDev (·.hostRead off.toNat bytes))

/-- READ_LO_LATCH: a 4-byte read of a _LO half latches its _HI half. -/
def execReadLoLatch (off : BitVec 26) (s : State) : Host.Outcome State Fault Refusal :=
  .next (s.onDev (·.hostRead off.toNat 4))

/-! ### Interrupts (R334) -/

/-- MSIX_MODERATION_END: the moderation time of vector v has ended; one message goes for the events that arrived during it. -/
def Dev.moderationEnd (d : Dev) (v : Nat) : Dev :=
  if d.moderated v then d
  else
  let waits := Table.get d.host.modWait v false
  let d : Dev := { d with host := { d.host with
    modUntil := Table.put d.host.modUntil v 0 0, modWait := Table.put d.host.modWait v false false } }
  if waits then d.sendMsix v else d

def execMsixModerationEnd (v : Fin 64) (s : State) : Host.Outcome State Fault Refusal :=
  .next (s.onDev (·.moderationEnd v.val))

/-! ### Time-outs, resets and link (R332, R333, R347) -/

/-- Whether a request of M0 to target t, issued, stalled or held, has had no response within host_to µs (R332). -/
def Dev.hostOverdue (d : Dev) (t : Nat) : Bool :=
  let late (k : Nat) : Bool := decide (k + usTicks (d.get .GLB_HOST_CTL_host_to 0) ≤ d.ticks)
  (d.mxOut 0).any (fun x => x.target == t && late x.tick)
    || (Table.find d.matrix.miss 0).any (fun x => x.target == t && late x.tick)
    || d.matrix.held.any (fun h => h.master == 0 && addrTarget h.req.addr == t && late h.at_)

/-- HOST_ACCESS_TIMEOUT: Completer Abort, host_stalled, event 0x0E07. -/
def Dev.hostTimeout (d : Dev) (t : Nat) : Dev :=
  if d.hostOverdue t then ((d.complete .aborted).set .GLB_HOST_STAT_host_stalled 0 1).raise 0x0E07 t else d

def execHostAccessTimeout (t : BitVec 4) (s : State) : Host.Outcome State Fault Refusal :=
  .next (s.onDev (·.hostTimeout t.toNat))

/-- Whether a key of the register file is of a register of domain HOST (R15). -/
def isHostKey (k : Nat) : Bool := match Reg.ofIdx (k / 2 ^ 20) with | some r => r.info.dom == .host | none => false

/-- The reset of the host port (R333): HOST registers with the MSI-X table and the PBA, latches, moderation, M0; a
Function Level Reset keeps the link status and Max_Payload_Size (log entry 103), PERST_L resets them. R15 lets a PD register return to reset on 'any of the above':
it is read as not PERST_L, which R333 keeps to the host port (DEDUCED, log entry 66). -/
def Dev.hostReset (d : Dev) (keepLink : Bool) : Dev :=
  let up := d.get .GLB_HOST_STAT_link_up 0
  let speed := d.get .GLB_HOST_STAT_speed 0
  let width := d.get .GLB_HOST_STAT_width 0
  let d : Dev := { d with
    regs := d.regs.dropWhere isHostKey, shadow := d.shadow.dropWhere isHostKey
    host := { d.host with modUntil := [], modWait := [], fnMask := false, latched := []
                          cfg := if keepLink then { PciCfg.init with mps := d.host.cfg.mps } else .init } }
  let d := if keepLink then
      ((d.set .GLB_HOST_STAT_link_up 0 up).set .GLB_HOST_STAT_speed 0 speed).set .GLB_HOST_STAT_width 0 width
    else d
  d.masterReset 0

/-- PERST (R333): event 0x0E06; a host operation on a queue ends (R206). -/
def State.perst (s : State) : State :=
  if s.dev.sys.held then s else (s.onDev (·.raise 0x0E06 0)).hostCancel.onDev (·.hostReset false)

def execPerst (s : State) : Host.Outcome State Fault Refusal := .next s.perst

/-- FUNCTION_LEVEL_RESET (R333): the link stays up; event 0x0E08. -/
def State.functionReset (s : State) : State :=
  if s.dev.sys.held then s else s.hostCancel.onDev (fun d => (d.hostReset true).raise 0x0E08 0)

def execFunctionLevelReset (s : State) : Host.Outcome State Fault Refusal := .next s.functionReset

/-- PCIE_LINK_UP: link, speed, width, the port's PLL lock; event 0x0E05. -/
def Dev.linkUp (d : Dev) (speed width : Nat) : Dev :=
  if d.sys.held then d
  else
    let d := ((d.set .GLB_HOST_STAT_link_up 0 1).set .GLB_HOST_STAT_speed 0 speed).set .GLB_HOST_STAT_width 0 width
    (d.set .GLB_CLK_STAT_host_lock 0 1).raise 0x0E05 (speed + width * 16)

def execPcieLinkUp (speed : BitVec 3) (width : BitVec 2) (s : State) : Host.Outcome State Fault Refusal :=
  .next (s.onDev (·.linkUp speed.toNat width.toNat))

/-- PCIE_LINK_DOWN: event 0x0E06. -/
def Dev.linkDown (d : Dev) : Dev :=
  if !d.bit .GLB_HOST_STAT_link_up 0 then d
  else (((d.set .GLB_HOST_STAT_link_up 0 0).set .GLB_HOST_STAT_speed 0 0).set .GLB_HOST_STAT_width 0 0).raise 0x0E06 0

def execPcieLinkDown (s : State) : Host.Outcome State Fault Refusal := .next (s.onDev (·.linkDown))

/-- PCIE_UNCORRECTABLE_ERROR: AER logs the error, and event 0x0E09 is raised at most once per DTIME second. -/
def Dev.aerLog (d : Dev) (ptr : BitVec 5) : Dev :=
  let c := d.host.cfg
  ({ d with host := { d.host with cfg := { c with
      aerStatus := c.aerStatus ||| BitVec.ofNat 32 (2 ^ ptr.toNat), aerFirst := ptr } } } : Dev).raise1 0x0E09 0 ptr.toNat

def execPcieUncorrectableError (ptr : BitVec 5) (s : State) : Host.Outcome State Fault Refusal :=
  .next (s.onDev (·.aerLog ptr))

/-! ### The management I2C target (R335, R336) -/

/-- The registers the I2C target serves, by offset. -/
def i2cReg : Nat → Option Reg
  | 0x00 => some .GLB_ID
  | 0x04 => some .GLB_STAT
  | 0x10 => some .GLB_READY_FN
  | 0x14 => some .GLB_READY_Q_LO
  | 0x18 => some .GLB_READY_Q_HI
  | 0x1C => some .GLB_READY_SITE
  | 0x20 => some .GLB_DTIME_LO
  | 0x24 => some .GLB_DTIME_HI
  | 0x30 => some .GLB_EVT_WR
  | _ => none

/-- The bytes of the event record at slot i2c_rd mod 4,096; an unwritten slot holds zeros. -/
def Dev.i2cRecord (d : Dev) : List Byte :=
  match Table.find d.host.ring (d.host.i2cRd % 4096) with | some e => evBytes e | none => []

/-- The word the I2C target serves at a 4-byte aligned offset. -/
def Dev.i2cWord (d : Dev) (a : Nat) : Word :=
  if a = 0x34 then BitVec.ofNat 32 d.host.i2cRd
  else if a = 0x38 then BitVec.ofNat 32 d.host.i2cLost
  else if 0x100 ≤ a && a < 0x120 then wordAt d.i2cRecord ((a - 0x100) / 4)
  else match i2cReg a with | some r => d.readWord r 0 | none => 0

/-- The bytes of the word at offset a are latched. -/
def Dev.i2cLatchWord (d : Dev) (a : Nat) : Dev :=
  let bs := leBytes 4 (d.i2cWord a).toNat
  let l := bs.zipIdx.foldl (fun t p => Table.ins t (a + p.2) p.1) d.host.i2cLatch
  { d with host := { d.host with i2cLatch := l } }

/-- One byte of a read transfer: the first byte of a register latches it all, 0x0020 also 0x0024; the last byte of the
event record advances i2c_rd unless it has reached GLB_EVT_WR; the offset wraps after 0x01FF. -/
def Dev.i2cByte (d : Dev) : Dev :=
  let a := d.host.i2cOff
  let d := if a % 4 = 0 && !(a == 0x24 && (Table.find d.host.i2cLatch 0x24).isSome) then d.i2cLatchWord a else d
  let d := if a = 0x20 then d.i2cLatchWord 0x24 else d
  let b := match Table.find d.host.i2cLatch a with
    | some b => b
    | none => byteAt (leBytes 4 (d.i2cWord (a - a % 4)).toNat) (a % 4)
  let rd := if a = 0x11F && d.host.i2cRd != d.get .GLB_EVT_WR_wr 0 then (d.host.i2cRd + 1) % 2 ^ 32 else d.host.i2cRd
  { d with host := { d.host with
      i2cOut := d.host.i2cOut ++ [b]
      i2cLatch := Table.del d.host.i2cLatch a
      i2cRd := rd
      i2cOff := if a = 0x1FF then 0 else (a + 1) % 2 ^ 16 } }

/-- n bytes of a read transfer. -/
def Dev.i2cBytes : Dev → Nat → Dev
  | d, 0 => d
  | d, n + 1 => d.i2cByte.i2cBytes n

/-- Whether a transfer is addressed to the target: 0b10110 and MGT_ADDR (R335). -/
def Dev.i2cMine (d : Dev) (adr : BitVec 7) : Bool := !d.sys.held && adr.toNat == 0x58 + d.sys.mgtAddr.toNat

/-- I2C_READ: a read transfer of n bytes from the offset set. -/
def Dev.i2cRead (d : Dev) (adr : BitVec 7) (n : Nat) : Dev :=
  if !d.i2cMine adr then d
  else ({ d with host := { d.host with i2cOut := [], i2cNack := false } } : Dev).i2cBytes n

def execI2cRead (adr : BitVec 7) (n : Nat) (s : State) : Host.Outcome State Fault Refusal := .next (s.onDev (·.i2cRead adr n))

/-- The word of i2c_rd with its bytes from place p on replaced by data. -/
def i2cPatch (w p : Nat) (data : List Byte) : Nat :=
  leField (data.zipIdx.foldl (fun l e => l.set (p + e.2) e.1) (leBytes 4 w)) 0 4

/-- A data byte at an offset other than those of i2c_rd: NACK, and event 0x0E0A at most once per DTIME second. -/
def Dev.i2cRefuse (d : Dev) (off : Nat) : Dev := ({ d with host := { d.host with i2cNack := true } } : Dev).raise1 0x0E0A 0 off

/-- I2C_WRITE: the offset; data only at 0x0034, else NACK at the first data byte that goes elsewhere. -/
def Dev.i2cWrite (d : Dev) (adr : BitVec 7) (off : Nat) (data : List Byte) : Dev :=
  if !d.i2cMine adr then d
  else
    let d : Dev := { d with host := { d.host with i2cOff := off, i2cLatch := [], i2cNack := false } }
    if data.isEmpty then d
    else if off = 0x34 then
      let d := ({ d with host := { d.host with i2cRd := i2cPatch d.host.i2cRd 0 (data.take 4) } } : Dev).i2cFollow
      if 4 < data.length then d.i2cRefuse 0x38 else d
    else d.i2cRefuse off

def execI2cWrite (adr : BitVec 7) (off : BitVec 16) (data : List Byte) (s : State) : Host.Outcome State Fault Refusal :=
  .next (s.onDev (·.i2cWrite adr off.toNat data))

end Sys2Proof.Machine
end

