-- ==== Sys2Proof/Machine/Dispatch.lean ====
section
/-!
DEFINITION. The meaning of every command: one arm per constructor of Instr, each one direct call of its meaning.
-/
namespace Sys2Proof.Machine

def exec (i : Instr) (s : State) : Host.Outcome State Fault Refusal :=
  match i with
  | .registerWrite tgt value => Sys2Proof.Machine.execRegisterWrite tgt value s
  | .readClear off bytes => Sys2Proof.Machine.execReadClear off bytes s
  | .readLoLatch off => Sys2Proof.Machine.execReadLoLatch off s
  | .msixModerationEnd v => Sys2Proof.Machine.execMsixModerationEnd v s
  | .egressFrame pt => Sys2Proof.Machine.execEgressFrame pt s
  | .channelDomainsReady n => Sys2Proof.Machine.execChannelDomainsReady n s
  | .quadPllLock q => Sys2Proof.Machine.execQuadPllLock q s
  | .quadPllUnlock q => Sys2Proof.Machine.execQuadPllUnlock q s
  | .rxCalDone n => Sys2Proof.Machine.execRxCalDone n s
  | .rxTrack n snr => Sys2Proof.Machine.execRxTrack n snr s
  | .rxAcquireTimeout n => Sys2Proof.Machine.execRxAcquireTimeout n s
  | .cdrLockLost n => Sys2Proof.Machine.execCdrLockLost n s
  | .losSet n => Sys2Proof.Machine.execLosSet n s
  | .losClear n => Sys2Proof.Machine.execLosClear n s
  | .rxHoldExit n => Sys2Proof.Machine.execRxHoldExit n s
  | .tapAdapt n moves => Sys2Proof.Machine.execTapAdapt n moves s
  | .pcsLockLost n w => Sys2Proof.Machine.execPcsLockLost n w s
  | .pcsLockRegained n w => Sys2Proof.Machine.execPcsLockRegained n w s
  | .hiBerChange n on => Sys2Proof.Machine.execHiBerChange n on s
  | .bondAlignedSet n skew => Sys2Proof.Machine.execBondAlignedSet n skew s
  | .bondAlignedClear n skew => Sys2Proof.Machine.execBondAlignedClear n skew s
  | .fecCodeword n laneErrs bits => Sys2Proof.Machine.execFecCodeword n laneErrs bits s
  | .fecSnap n => Sys2Proof.Machine.execFecSnap n s
  | .fecSnapSecond n => Sys2Proof.Machine.execFecSnapSecond n s
  | .fecDegWindow n => Sys2Proof.Machine.execFecDegWindow n s
  | .frameTick n rx => Sys2Proof.Machine.execFrameTick n rx s
  | .patternMatch n pos pat mfas => Sys2Proof.Machine.execPatternMatch n pos pat mfas s
  | .candidateCheck n k pat mfas par rcv => Sys2Proof.Machine.execCandidateCheck n k pat mfas par rcv s
  | .candidateQualify n k => Sys2Proof.Machine.execCandidateQualify n k s
  | .mimicFlagged n k => Sys2Proof.Machine.execMimicFlagged n k s
  | .tieEnd n => Sys2Proof.Machine.execTieEnd n s
  | .oof n => Sys2Proof.Machine.execOof n s
  | .mfRegain n => Sys2Proof.Machine.execMfRegain n s
  | .mfLoss n => Sys2Proof.Machine.execMfLoss n s
  | .dlofDeclare n => Sys2Proof.Machine.execDlofDeclare n s
  | .dlofClear n => Sys2Proof.Machine.execDlofClear n s
  | .dlomDeclare n => Sys2Proof.Machine.execDlomDeclare n s
  | .dlomClear n => Sys2Proof.Machine.execDlomClear n s
  | .tribFrameTick t rx => Sys2Proof.Machine.execTribFrameTick t rx s
  | .defectDeclare src l code => Sys2Proof.Machine.execDefectDeclare src l code s
  | .defectClear src l code => Sys2Proof.Machine.execDefectClear src l code s
  | .ddegWindowEnd src l => Sys2Proof.Machine.execDdegWindowEnd src l s
  | .ttiAccept src l => Sys2Proof.Machine.execTtiAccept src l s
  | .ptAccept src => Sys2Proof.Machine.execPtAccept src s
  | .apsAccept src l => Sys2Proof.Machine.execApsAccept src l s
  | .failureDeclare src l code => Sys2Proof.Machine.execFailureDeclare src l code s
  | .failureClear src l code => Sys2Proof.Machine.execFailureClear src l code s
  | .taskTake e => Sys2Proof.Machine.execTaskTake e s
  | .taskPartEnd e => Sys2Proof.Machine.execTaskPartEnd e s
  | .taskCutOff e => Sys2Proof.Machine.execTaskCutOff e s
  | .heatEpoch => Sys2Proof.Machine.execHeatEpoch s
  | .heatDrained h => Sys2Proof.Machine.execHeatDrained h s
  | .shedForceWrite v => Sys2Proof.Machine.execShedForceWrite v s
  | .msiAccept n => Sys2Proof.Machine.execMsiAccept n s
  | .learnAllocate n tpn rate => Sys2Proof.Machine.execLearnAllocate n tpn rate s
  | .learnFree t => Sys2Proof.Machine.execLearnFree t s
  | .tribLive t ratePpm => Sys2Proof.Machine.execTribLive t ratePpm s
  | .tribReacquire t => Sys2Proof.Machine.execTribReacquire t s
  | .elasticSlip t => Sys2Proof.Machine.execElasticSlip t s
  | .loflomDeclare t => Sys2Proof.Machine.execLoflomDeclare t s
  | .loflomClear t => Sys2Proof.Machine.execLoflomClear t s
  | .loomfiDeclare n => Sys2Proof.Machine.execLoomfiDeclare n s
  | .loomfiClear n => Sys2Proof.Machine.execLoomfiClear n s
  | .flexeCaReceived sl j => Sys2Proof.Machine.execFlexeCaReceived sl j s
  | .flexeTxCalSwitch sl j => Sys2Proof.Machine.execFlexeTxCalSwitch sl j s
  | .flexeCccReceived sl j => Sys2Proof.Machine.execFlexeCccReceived sl j s
  | .flexeCaTimeout sl j => Sys2Proof.Machine.execFlexeCaTimeout sl j s
  | .flexeGroupStatus sl j st skew => Sys2Proof.Machine.execFlexeGroupStatus sl j st skew s
  | .flexoIdAccept n gid pids => Sys2Proof.Machine.execFlexoIdAccept n gid pids s
  | .filterInputSample c line cn client arrival => Sys2Proof.Machine.execFilterInputSample c line cn client arrival s
  | .filterOutputSample c => Sys2Proof.Machine.execFilterOutputSample c s
  | .filterSettled c => Sys2Proof.Machine.execFilterSettled c s
  | .holdoverExit c => Sys2Proof.Machine.execHoldoverExit c s
  | .syncCommand grps => Sys2Proof.Machine.execSyncCommand grps s
  | .fsyncOutEnd => Sys2Proof.Machine.execFsyncOutEnd s
  | .fsyncInEdge => Sys2Proof.Machine.execFsyncInEdge s
  | .syncReset => Sys2Proof.Machine.execSyncReset s
  | .swapFadeStart c => Sys2Proof.Machine.execSwapFadeStart c s
  | .swapComplete c => Sys2Proof.Machine.execSwapComplete c s
  | .bankFlip mask => Sys2Proof.Machine.execBankFlip mask s
  | .push q data => Sys2Proof.Machine.execPush q data s
  | .pop q r => Sys2Proof.Machine.execPop q r s
  | .mark q => Sys2Proof.Machine.execMark q s
  | .markAt q p => Sys2Proof.Machine.execMarkAt q p s
  | .rewind q => Sys2Proof.Machine.execRewind q s
  | .releaseTo q p => Sys2Proof.Machine.execReleaseTo q p s
  | .laggedRelease q => Sys2Proof.Machine.execLaggedRelease q s
  | .stallPushProceed q => Sys2Proof.Machine.execStallPushProceed q s
  | .popResume q r => Sys2Proof.Machine.execPopResume q r s
  | .poolRebuild => Sys2Proof.Machine.execPoolRebuild s
  | .poolRebuildDone faults => Sys2Proof.Machine.execPoolRebuildDone faults s
  | .hostPush q => Sys2Proof.Machine.execHostPush q s
  | .hostPop q r => Sys2Proof.Machine.execHostPop q r s
  | .hostCancel => Sys2Proof.Machine.execHostCancel s
  | .bar2Read off len reads => Sys2Proof.Machine.execBar2Read off len reads s
  | .bar2Write off data reads => Sys2Proof.Machine.execBar2Write off data reads s
  | .scrubCell r raced => Sys2Proof.Machine.execScrubCell r raced s
  | .clear g => Sys2Proof.Machine.execClear g s
  | .lockoutOfProtection g => Sys2Proof.Machine.execLockoutOfProtection g s
  | .forcedSwitch g sig => Sys2Proof.Machine.execForcedSwitch g sig s
  | .manualSwitch g sig => Sys2Proof.Machine.execManualSwitch g sig s
  | .exercise g sig => Sys2Proof.Machine.execExercise g sig s
  | .freeze g => Sys2Proof.Machine.execFreeze g s
  | .clearFreeze g => Sys2Proof.Machine.execClearFreeze g s
  | .holdOffExpire g => Sys2Proof.Machine.execHoldOffExpire g s
  | .wtrExpire g => Sys2Proof.Machine.execWtrExpire g s
  | .selectorDecision g => Sys2Proof.Machine.execSelectorDecision g s
  | .switchNoBoundary g => Sys2Proof.Machine.execSwitchNoBoundary g s
  | .plainSwitch g => Sys2Proof.Machine.execPlainSwitch g s
  | .lapValid g late valid => Sys2Proof.Machine.execLapValid g late valid s
  | .probeTaken g => Sys2Proof.Machine.execProbeTaken g s
  | .probeFound g => Sys2Proof.Machine.execProbeFound g s
  | .probeAmbiguous g => Sys2Proof.Machine.execProbeAmbiguous g s
  | .probeExpire g => Sys2Proof.Machine.execProbeExpire g s
  | .alignConfirm g => Sys2Proof.Machine.execAlignConfirm g s
  | .alignMatchRun g => Sys2Proof.Machine.execAlignMatchRun g s
  | .alignMismatchRun g => Sys2Proof.Machine.execAlignMismatchRun g s
  | .blindEnter g => Sys2Proof.Machine.execBlindEnter g s
  | .copyEpoch => Sys2Proof.Machine.execCopyEpoch s
  | .epochReceived bytes => Sys2Proof.Machine.execEpochReceived bytes s
  | .snapReceived bytes => Sys2Proof.Machine.execSnapReceived bytes s
  | .ackReceived bytes => Sys2Proof.Machine.execAckReceived bytes s
  | .pacerFrameReceived bytes => Sys2Proof.Machine.execPacerFrameReceived bytes s
  | .pathDown p => Sys2Proof.Machine.execPathDown p s
  | .arbReqRise => Sys2Proof.Machine.execArbReqRise s
  | .arbReqFall => Sys2Proof.Machine.execArbReqFall s
  | .takeOver => Sys2Proof.Machine.execTakeOver s
  | .discoverWindowEnd => Sys2Proof.Machine.execDiscoverWindowEnd s
  | .syncPartnerAbsent => Sys2Proof.Machine.execSyncPartnerAbsent s
  | .yieldTimeout => Sys2Proof.Machine.execYieldTimeout s
  | .resync => Sys2Proof.Machine.execResync s
  | .batonLinkUp => Sys2Proof.Machine.execBatonLinkUp s
  | .init k => Sys2Proof.Machine.execInit k s
  | .preset k p => Sys2Proof.Machine.execPreset k p s
  | .ckDin k w => Sys2Proof.Machine.execCkDin k w s
  | .ckDin8 k b => Sys2Proof.Machine.execCkDin8 k b s
  | .ckRunLoad k hi => Sys2Proof.Machine.execCkRunLoad k hi s
  | .go => Sys2Proof.Machine.execGo s
  | .scanStop pos data ue reads raced => Sys2Proof.Machine.execScanStop pos data ue reads raced s
  | .scanJobEnd data ue reads raced => Sys2Proof.Machine.execScanJobEnd data ue reads raced s
  | .tableCheckBlock fault => Sys2Proof.Machine.execTableCheckBlock fault s
  | .referenceInject b refA refB => Sys2Proof.Machine.execReferenceInject b refA refB s
  | .matrixRequest m r => Sys2Proof.Machine.execMatrixRequest m r s
  | .targetArbitration t => Sys2Proof.Machine.execTargetArbitration t s
  | .transactionComplete m id => Sys2Proof.Machine.execTransactionComplete m id s
  | .heldRequestIssue m => Sys2Proof.Machine.execHeldRequestIssue m s
  | .modeToLayered => Sys2Proof.Machine.execModeToLayered s
  | .modeToNormal => Sys2Proof.Machine.execModeToNormal s
  | .normalSwitch => Sys2Proof.Machine.execNormalSwitch s
  | .modeChangeRefused => Sys2Proof.Machine.execModeChangeRefused s
  | .hangDetect m id => Sys2Proof.Machine.execHangDetect m id s
  | .hangRecentClear => Sys2Proof.Machine.execHangRecentClear s
  | .masterReset m => Sys2Proof.Machine.execMasterReset m s
  | .recordStage reads => Sys2Proof.Machine.execRecordStage reads s
  | .pageWrite reads => Sys2Proof.Machine.execPageWrite reads s
  | .flushInterval => Sys2Proof.Machine.execFlushInterval s
  | .segmentCommit reads => Sys2Proof.Machine.execSegmentCommit reads s
  | .nvmeCompletion d r => Sys2Proof.Machine.execNvmeCompletion d r s
  | .nvmeTimeout d => Sys2Proof.Machine.execNvmeTimeout d s
  | .smartPoll d => Sys2Proof.Machine.execSmartPoll d s
  | .recorderDiscovery found => Sys2Proof.Machine.execRecorderDiscovery found s
  | .format key => Sys2Proof.Machine.execFormat key s
  | .rescan => Sys2Proof.Machine.execRescan s
  | .rebuild => Sys2Proof.Machine.execRebuild s
  | .close => Sys2Proof.Machine.execClose s
  | .read => Sys2Proof.Machine.execRead s
  | .anchor => Sys2Proof.Machine.execAnchor s
  | .lookup => Sys2Proof.Machine.execLookup s
  | .readCancel => Sys2Proof.Machine.execReadCancel s
  | .readComplete blocks sc => Sys2Proof.Machine.execReadComplete blocks sc s
  | .arm k => Sys2Proof.Machine.execArm k s
  | .trigger k => Sys2Proof.Machine.execTrigger k s
  | .disarm k => Sys2Proof.Machine.execDisarm k s
  | .captureAdmit k => Sys2Proof.Machine.execCaptureAdmit k s
  | .captureFrame k data => Sys2Proof.Machine.execCaptureFrame k data s
  | .captureTrigger k at_ => Sys2Proof.Machine.execCaptureTrigger k at_ s
  | .capturePostDone k => Sys2Proof.Machine.execCapturePostDone k s
  | .captureCopyDone k => Sys2Proof.Machine.execCaptureCopyDone k s
  | .stop u => Sys2Proof.Machine.execStop u s
  | .commit u => Sys2Proof.Machine.execCommit u s
  | .start u => Sys2Proof.Machine.execStart u s
  | .unitStopped u => Sys2Proof.Machine.execUnitStopped u s
  | .unitRun u => Sys2Proof.Machine.execUnitRun u s
  | .hostAccessTimeout tgt => Sys2Proof.Machine.execHostAccessTimeout tgt s
  | .perst => Sys2Proof.Machine.execPerst s
  | .functionLevelReset => Sys2Proof.Machine.execFunctionLevelReset s
  | .pcieLinkUp speed width => Sys2Proof.Machine.execPcieLinkUp speed width s
  | .pcieLinkDown => Sys2Proof.Machine.execPcieLinkDown s
  | .i2cRead adr n => Sys2Proof.Machine.execI2cRead adr n s
  | .i2cWrite adr off data => Sys2Proof.Machine.execI2cWrite adr off data s
  | .stageEnd w => Sys2Proof.Machine.execStageEnd w s
  | .quadBatchDone => Sys2Proof.Machine.execQuadBatchDone s
  | .siteTrainingDone k ok clamshell density => Sys2Proof.Machine.execSiteTrainingDone k ok clamshell density s
  | .startWatchdog => Sys2Proof.Machine.execStartWatchdog s
  | .journalErase ok => Sys2Proof.Machine.execJournalErase ok s
  | .clearHistory ok => Sys2Proof.Machine.execClearHistory ok s
  | .restart => Sys2Proof.Machine.execRestart s
  | .flashRead => Sys2Proof.Machine.execFlashRead s
  | .flashErase => Sys2Proof.Machine.execFlashErase s
  | .flashProgram => Sys2Proof.Machine.execFlashProgram s
  | .flashCommandEnd fail => Sys2Proof.Machine.execFlashCommandEnd fail s
  | .refclkBad b => Sys2Proof.Machine.execRefclkBad b s
  | .refclkGood b => Sys2Proof.Machine.execRefclkGood b s
  | .rootPllLock => Sys2Proof.Machine.execRootPllLock s
  | .rootPllAcquireTimeout => Sys2Proof.Machine.execRootPllAcquireTimeout s
  | .referenceRevert => Sys2Proof.Machine.execReferenceRevert s
  | .rootPllUnlock => Sys2Proof.Machine.execRootPllUnlock s
  | .ppsEdge => Sys2Proof.Machine.execPpsEdge s
  | .timeSourceLost => Sys2Proof.Machine.execTimeSourceLost s
  | .dtimeLoad hi => Sys2Proof.Machine.execDtimeLoad hi s
  | .fpPulse k => Sys2Proof.Machine.execFpPulse k s
  | .pwron mgt => Sys2Proof.Machine.execPwron mgt s
  | .systemReset p => Sys2Proof.Machine.execSystemReset p s
  | .domainReset d key => Sys2Proof.Machine.execDomainReset d key s
  | .unitReset cls idx key => Sys2Proof.Machine.execUnitReset cls idx key s
  | .pdSwitchOn d => Sys2Proof.Machine.execPdSwitchOn d s
  | .pdSwitchOff d => Sys2Proof.Machine.execPdSwitchOff d s
  | .pdSwitchDone d => Sys2Proof.Machine.execPdSwitchDone d s
  | .avsAdjust up answered => Sys2Proof.Machine.execAvsAdjust up answered s
  | .thermalSample temps => Sys2Proof.Machine.execThermalSample temps s
  | .thermalTrip sensor => Sys2Proof.Machine.execThermalTrip sensor s
  | .tapDisturb ir => Sys2Proof.Machine.execTapDisturb ir s
  | .tapRelease ir => Sys2Proof.Machine.execTapRelease ir s
  | .phyPllUnlocked j => Sys2Proof.Machine.execPhyPllUnlocked j s
  | .quadPllLockTimeout q => Sys2Proof.Machine.execQuadPllLockTimeout q s
  | .batonHeaderReceived bytes => Sys2Proof.Machine.execBatonHeaderReceived bytes s
  | .batonLinkDown => Sys2Proof.Machine.execBatonLinkDown s
  | .fpPulseEnd k => Sys2Proof.Machine.execFpPulseEnd k s
  | .pcieUncorrectableError ptr => Sys2Proof.Machine.execPcieUncorrectableError ptr s
  | .flexeCrReceived sl j cal => Sys2Proof.Machine.execFlexeCrReceived sl j cal s

end Sys2Proof.Machine
end

