-- ==== Sys2Proof/Machine/Tick.lean ====
section
/-!
DEFINITION. What one clk_tm tick (R378) does by itself, whatever is commanded: DTIME, the figures of a DTIME second, and
the conditions that functions follow at once. It is what a step does on an empty queue.
-/
namespace Sys2Proof.Machine

/-- The figures of the DTIME second that has ended: STR_TASKS_SEC, load of the filter arrays, REC_RATE (R120). Those of seconds
that a step passed are not shown. -/
def Dev.secondEnd (d : Dev) : Dev :=
  let d := d.showTasks d.sys.secondNow
  let d : Dev := { d with sys := { d.sys with secondNow := d.second } }
  let d := [0, 1].foldl (fun d a =>
    d.set .FLT_ARRAY_STAT_load a (min 100 (Table.get d.sync.work a 0 * 100 / 10 ^ 10))) d
  let d : Dev := { d with sync := { d.sync with work := [] } }
  (d.setWord .REC_RATE 0 (BitVec.ofNat 32 (min d.recr.bytesSec (2 ^ 32 - 1)))).onRec (fun r => { r with bytesSec := 0 })

/-- SF and SD of every RUN group whose members' conditions have changed (R213). -/
def Dev.groupsFollow (d : Dev) : Dev :=
  (d.listed .PRT_GRP_CFG).foldl (fun d g =>
    if d.running .pgroup g && (d.memberMask g (d.memberSf g) != d.get .PRT_GRP_SFSD_sf g
        || d.memberMask g (d.memberSd g) != d.get .PRT_GRP_SFSD_sd g) then d.groupConditions g else d) d

/-- The channels at which a tick of the line stage may change something: a pattern checker on, PCS status that is not at reset,
a snapshot in progress. -/
def Dev.lineActive (d : Dev) : List Nat :=
  (d.listed .CH_SDS_CTL ++ d.listed .CH_PCS_STAT ++ d.listed .CH_FEC_SNAP).eraseDups

/-- The tick of the device. -/
def Dev.tick (d : Dev) : Dev :=
  let d := d.timeTick
  let d := if d.second == d.sys.secondNow then d else d.secondEnd
  (d.lineActive.foldl Dev.lineTick d).groupsFollow.pairEval

/-- One clk_tm tick: none while the device is held in reset or its root PLL is off (R371, R382). -/
def State.tick (s : State) : State := if s.dev.sys.held || !s.dev.sys.rootOn then s else (s.onDev (·.tick)).capEval

end Sys2Proof.Machine
end

