-- ==== Sys2Proof/Machine/Pins.lean ====
section
/-!
DEFINITION. The levels of the output pins (chapter 17, R397): what each presents in reset, and what it presents otherwise.
-/
namespace Sys2Proof.Machine

/-- Output and bidirectional signals of R397, but for OWN_L, which Dev.ownL gives. -/
inductive Pin where
  | serdesTx (n : Chan)
  | gddrReset (k : Site)
  | hostTx | recorderTx | recorderPerst | batonTx | pacerTx
  | thermTrip | therm | int | arbFault | arbRole
  | clkOut (k : Fin 8)
  | fpOut (k : Fin 2)
  | fsyncOut
  | mgtScl | mgtSda
  | avsClk | avsMdata
  | xspiClk | xspiCs | xspiRst | xspiDq
  | tdo
  | gpio (k : Fin 8)
deriving DecidableEq, Repr

/-- What an output presents: a level, nothing (high-impedance, released, no swing or electrical idle), or the signal of its
interface. -/
inductive PinLevel where
  | low | high | off | signal
deriving DecidableEq, Repr

/-- A level as a Bool. -/
def PinLevel.of (b : Bool) : PinLevel := if b then .high else .low
/-- An open-drain output: low, or released. -/
def PinLevel.openDrain (level : Bool) : PinLevel := if level then .off else .low

/-- The pin while PWRON_L, SYS_RST_L or the TAP holds the device: the column "In reset" of R397. THERMTRIP_L keeps its latched
state (R391); a CLKOUT stands with P low. -/
def Dev.pinInReset (d : Dev) : Pin → PinLevel
  | .gddrReset _ => .low
  | .recorderPerst => .low
  | .thermTrip => .openDrain (!d.sys.thermTripPin)
  | .arbRole => .low
  | .clkOut _ => .low
  | .fpOut _ => .low
  | .fsyncOut => .low
  | .avsClk => .low
  | .avsMdata => .low
  | .xspiClk => .low
  | .xspiCs => .high
  | .xspiRst => .low
  | _ => .off

/-- The level of an output pin. RP_PERST_L is released while the recorder port has power, GDk_RESET_L while site k has (DEDUCED,
log entry 107); GPIO pins have no register that would make one an output. -/
def Dev.pinLevel (d : Dev) (p : Pin) : PinLevel :=
  if d.sys.held then d.pinInReset p
  else match p with
  | .serdesTx n => if d.bit .CH_SDS_STAT_tx_on n.val then .signal else .off
  | .gddrReset k => .of (d.pdOn (domSite k.val))
  | .hostTx => .signal
  | .recorderTx => if d.pdOn domRecPort then .signal else .off
  | .recorderPerst => .of (d.pdOn domRecPort)
  | .batonTx => if d.pdOn domBaton then .signal else .off
  | .pacerTx => .signal
  | .thermTrip => .openDrain (!d.sys.thermTripPin)
  | .therm => .openDrain (!d.bit .GLB_THERM_STAT_therm 0)
  | .int => .openDrain d.intL
  | .arbFault => .openDrain (d.arbFaultL.getD true)
  | .arbRole => .of d.owning
  | .clkOut k => if (d.clkOut k.val).isSome then .signal else .low
  | .fpOut k => .of (d.fpOut k.val)
  | .fsyncOut => .of d.sync.outEnd.isSome
  | .mgtScl => .off
  | .mgtSda => .signal
  | .avsClk => .signal
  | .avsMdata => .signal
  | .xspiClk => .signal
  | .xspiCs => if d.boot.flashOp.isSome then .low else .signal
  | .xspiRst => .high
  | .xspiDq => .signal
  | .tdo => .signal
  | .gpio _ => .off

end Sys2Proof.Machine
end

