-- ==== Sys2Proof/Safety.lean ====
section
/-!
DEFINITION. The terms in which statements about the block are made: a command that completes, what a command leaves
unchanged, an event that is logged, and the form that every safe state keeps.
-/
namespace Sys2Proof.Machine

/-- Command c completes on state s with a next state of which P holds. -/
def Completes (c : Instr) (s : State) (P : State → Prop) : Prop := ∃ t, exec c s = .next t ∧ P t

/-- The registers that raising an event may write (R334, R343, R344). -/
def evRegs : List Reg := [.GLB_EVT_WR, .GLB_EVT_RD, .GLB_EVT_LOST, .GLB_EVT_PEND, .GLB_MSIX_PBA]

/-- Whether bit b of register r at index i lies in one of the fields of fs, each named with its index. -/
def inFields (fs : List (Fld × Nat)) (r : Reg) (i b : Nat) : Bool :=
  fs.any (fun p => p.1.reg == r && p.2 == i && decide (p.1.lo ≤ b) && decide (b < p.1.lo + p.1.w))

/-- The register frame: every bit of every register word is unchanged, but for the registers of `skip` and the fields
of `fs`. -/
def RegsKept (skip : List Reg) (fs : List (Fld × Nat)) (d e : Dev) : Prop :=
  ∀ (r : Reg) (i b : Nat), i < 2 ^ 20 → skip.contains r = false → inFields fs r i b = false →
    (e.word r i).getLsbD b = (d.word r i).getLsbD b

/-- The whole word of register r at index i, as one entry of a frame. -/
def wholeWord (r : Reg) (i : Nat) : Fld × Nat := (⟨r, 0, 32⟩, i)

/-- Only registers of the device have changed, and those only in the fields fs: no event was raised, and everything beside
the registers is as it was. -/
def OnlyRegs (fs : List (Fld × Nat)) (s t : State) : Prop :=
  t = { s with dev := { s.dev with regs := t.dev.regs } } ∧ RegsKept [] fs s.dev t.dev

/-- Only registers of the device have changed, and those only in the fields fs, but for the events raised. -/
def OnlyRegsAndEvents (fs : List (Fld × Nat)) (s t : State) : Prop :=
  t = { s with dev := { s.dev with regs := t.dev.regs, host := t.dev.host } } ∧ RegsKept evRegs fs s.dev t.dev

/-- Of the device only the state that channel n keeps beside its registers has changed, and registers, those only in the
fields fs: no event was raised. -/
def OnlyChan (n : Nat) (fs : List (Fld × Nat)) (s t : State) : Prop :=
  t = { s with dev := { s.dev with regs := t.dev.regs, chans := t.dev.chans } } ∧
  (∀ m, m ≠ n → t.dev.chan m = s.dev.chan m) ∧ RegsKept [] fs s.dev t.dev

/-- The same, but for the events raised. -/
def OnlyChanAndEvents (n : Nat) (fs : List (Fld × Nat)) (s t : State) : Prop :=
  t = { s with dev := { s.dev with regs := t.dev.regs, host := t.dev.host, chans := t.dev.chans } } ∧
  (∀ m, m ≠ n → t.dev.chan m = s.dev.chan m) ∧ RegsKept evRegs fs s.dev t.dev

/-- The same for a receiver whose unit's decoder stops: the BER window of its unit's leader counts neither way (R41). -/
def OnlyLineAndEvents (n : Nat) (fs : List (Fld × Nat)) (s t : State) : Prop :=
  t = { s with dev := { s.dev with regs := t.dev.regs, host := t.dev.host, chans := t.dev.chans } } ∧
  (∀ m, m ≠ n → t.dev.chan m = if m = s.dev.leader n then { s.dev.chan m with winValid := false } else s.dev.chan m) ∧
  RegsKept evRegs fs s.dev t.dev

/-- From d to e an event was raised with this ID and argument (R343), before any other: its record, with the time of d and
the next sequence number, is in the slot of the event ring that was next, or, before the ring is usable, it waits behind
the events that waited (R370). -/
def Logged (d e : Dev) (id arg : Nat) : Prop :=
  ∃ r : EvRec, r.id = BitVec.ofNat 16 id ∧ r.arg = BitVec.ofNat 16 arg ∧ r.at_ = d.dtime ∧
    if d.ringUsable then
      Table.find e.host.ring (d.get .GLB_EVT_WR_wr 0 % 4096) = some r ∧ r.seq = BitVec.ofNat 32 d.host.evSeq
    else ∃ l, e.host.early = d.host.early ++ r :: l

/-- The same for an event before which k others were raised: it is k records further on. Said only where the event ring has
room, so that no overrun event comes between (R344). -/
def LoggedAfter (k : Nat) (d e : Dev) (id arg : Nat) : Prop :=
  ∃ r : EvRec, r.id = BitVec.ofNat 16 id ∧ r.arg = BitVec.ofNat 16 arg ∧ r.at_ = d.dtime ∧
    if d.ringUsable then
      Table.find e.host.ring ((d.get .GLB_EVT_WR_wr 0 + k) % 4096) = some r ∧ r.seq = BitVec.ofNat 32 (d.host.evSeq + k)
    else ∃ a l, a.length = k ∧ e.host.early = d.host.early ++ a ++ r :: l

/-- The form every state keeps: the pool's data bytes are in the canonical form of the memory. -/
def Safe (s : State) : Prop := memWf s.pool.mem = true

/-- A slot in which a candidate has opened at position p: run 1, its MFAS byte, opened at DTIME at_, no flag (R55). -/
def Opened (p : Nat) (mfas : Byte) (at_ : DTime) (o : Option CandSlot) : Prop :=
  ∃ c, o = some c ∧ c.pos = p ∧ c.run = 1 ∧ c.mfas = mfas ∧ c.opened = at_ ∧ c.held = false ∧ c.mimic = false ∧
    c.contender = false

/-- From s to t one cell was written at wr of queue i (R188, R191): cell c, the queue's spare, takes the data, padded to its
448 data bytes, with seq the position it takes and the new spare n as its successor; every other byte of the pool is as it
was. -/
def Pushed (i : Nat) (data : List Byte) (c n : Nat) (s t : State) : Prop :=
  t.dev.qWr i = s.dev.qWr i + 1 ∧ t.dev.qRd i = s.dev.qRd i ∧ t.dev.qRel i = s.dev.qRel i ∧
  (t.pool.queue i).cells = (s.pool.queue i).cells ++ [c] ∧ (t.pool.queue i).spare = some n ∧
  t.pool.data c = (List.range 448).map (byteAt data) ∧
  t.pool.hdr c = ⟨n, (s.dev.qWr i).setWidth 16, false⟩ ∧
  ∀ a, (a < c * 512 ∨ c * 512 + 448 ≤ a) → memRead t.pool.mem a = memRead s.pool.mem a

/-- What a refused command of group g leaves: cmd_refused and event 0x0908 with the command's code (R215). -/
def State.refusedCmd (s : State) (g op : Nat) : State :=
  s.onDev (fun d => (d.set .PRT_GRP_EVT_cmd_refused g 1).raise 0x0908 (g + op * 2048))

/-- The positions of queue i are in the order of R189: rd and a valid mark lie between rel and wr; and it holds no more cells
than a quota can name. -/
def Dev.qOrdered (d : Dev) (i : Nat) : Prop :=
  d.qRdOff i ≤ d.qOcc i ∧ (d.bit .CPL_Q_STAT_mark_valid i = true → d.qMarkOff i ≤ d.qOcc i) ∧ d.qOcc i ≤ 2 ^ 30

/-- The cell that the next POP of queue i reads (R191). -/
def State.qNext (s : State) (i : Nat) : Nat := (s.pool.queue i).cells.getD (s.dev.qRdOff i) nullPtr

/-- The register fields a queue operation may change beside positions and counts: occupancy, pointer, hurdle (R196). -/
def queueFields (i : Nat) : List (Fld × Nat) :=
  [(.CPL_Q_OCC_occ, i), (.CPL_Q_RDPTR_rdptr, i), (.CPL_Q_STAT_hurdle_armed, i), (.CPL_Q_EVT_hurdle_hit, i)]

/-- How many events of this ID and resource count against its limit in the DTIME second in progress. -/
def Dev.raised (d : Dev) (id i : Nat) : Nat :=
  let e := Table.get d.host.seen (evKey id i) (0, 0)
  if e.1 = d.second + 1 then e.2 else 0

/-- The registers of which a write does more than its field types say (R13): it starts or judges something. -/
def actingRegs : List Reg :=
  [.CH_FEC_SNAP, .STR_CTL, .FLT_SYNC_CMD, .FLT_BANK_FLIP, .FLT_COEF, .CPL_Q_CMD, .CPL_POOL_CMD, .CPL_HOST_OP, .PRT_GRP_CMD,
   .PAIR_CMD, .CHK_CK_RES_LO, .CHK_CK_RES_HI, .CHK_CK_BYTES, .MTX_HANG_REC, .GLB_EVT_RD, .GLB_CLK_CTL, .CHK_CK_CFG, .CHK_CK_POLY_LO, .CHK_CK_POLY_HI, .CHK_CK_INIT_LO, .CHK_CK_INIT_HI, .CHK_CK_XOR_LO,
   .CHK_CK_XOR_HI, .CHK_CK_RUN_LO, .CHK_CK_RUN_HI, .CHK_CK_DIN, .CHK_CK_DIN8, .CHK_CK_CMD, .CHK_SCAN_CMD, .CHK_TBL_INJ,
   .MTX_MODE, .MTX_MRST, .REC_CMD, .REC_RD_CMD, .REC_CS_CMD, .GLB_UC_CMD, .GLB_MSIX_TABLE, .GLB_TIME_CTL,
   .GLB_DTIME_LOAD_HI, .GLB_PD_RST, .GLB_URST, .GLB_PD_CMD, .GLB_PD_BOOT, .BOOT_CMD, .BOOT_FLASH_CMD]

/-- The host reaches word i of register r at BAR0 offset off: the device is not held, the port is not in D3hot, the access
does not abort, the domain is on. -/
def Dev.reaches (d : Dev) (off : Nat) (r : Reg) (i : Nat) : Prop :=
  d.sys.held = false ∧ d.host.cfg.d3hot = false ∧ off % 4 = 0 ∧ d.hostAborts off = false ∧ regAt off = some (r, i) ∧ d.wordDown r i = false

/-- Whether the unit-control engine takes operation op of software on unit u: it is free, or was given that operation (R342). -/
def Dev.ucTakes (d : Dev) (op : Nat) (u : UnitId) : Bool := !d.ucBusy || d.host.ucOp == some (op, u)

/-- The same, and the device does not itself stop the unit (R144, R340). -/
def Dev.takesOp (d : Dev) (op : Nat) (u : UnitId) : Bool := d.ucTakes op u && !d.devBusy u

/-- The register fields that an operation on unit u which does not change it may write: its result, and the pinning of a
tributary (R144, R342). -/
def ucFields (u : UnitId) : List (Fld × Nat) :=
  [(.GLB_UC_STAT_result, 0), (.GLB_UC_STAT_reason, 0), (.GLB_UC_STAT_class, 0), (.GLB_UC_STAT_index, 0),
   (.GLB_UC_STAT_uc_busy, 0), (.ODU_STAT_learned, u.idx)]

/-- From s to t an operation on unit u was refused: event 0x0E03, and nothing beside the fields of its result (R342). -/
def UcRefused (u : UnitId) (s t : State) : Prop :=
  Logged s.dev t.dev 0x0E03 (unitArg u.cls u.idx) ∧ OnlyRegsAndEvents (ucFields u) s t

/-- The classes whose STOP waits for a boundary outside the device (R341). -/
def waitsToStop (c : UClass) : Bool :=
  match c with
  | .channel => true | .bond => true | .trib => true | .pgroup => true | .queue => true | .pairagent => true
  | .fctx => false | .cslot => false | .recorder => false

end Sys2Proof.Machine
end

