-- ==== Sys2Proof/Certificates/Slice0/Obligations.lean ====
section
/-! DEFINITION. The statements of this model: what the commands of the device do, chapter by chapter of the specification.
Completes c s P says that exec c s answers a next state t with P t; Logged says that an event was raised; OnlyRegs,
OnlyRegsAndEvents and RegsKept are the frames (see Sys2Proof/Safety.lean). Where a docstring names rules, it says which
rules a reader compares the clauses with; each clause says what its Lean says. -/

open Sys2Proof Sys2Proof.Machine

/-! ### Chapter 02: line channels, bonding, FEC -/

/-- On R48: with its domains on and its quad PLLs locked a STARTING line unit enters RUN with event 0x0E01; without the
PLLs it goes on waiting. On R42, R45: when a quad's PLL loses lock its four receivers go to OFF, its four
transmitters are off, the quad's ready bit is clear, and event 0x020E is raised. Rests in part on the model's own
choices and readings, log entries 4 and 51. -/
def Obligations.LineUnitsAndQuadPlls : Prop :=
  ((∀ (n : Chan) (s : State),
     let l := s.dev.leader n.val
     let u := s.dev.lineUnit l
     s.dev.lineUst l = 3 → s.dev.unitDomains l = true →
     Completes (.channelDomainsReady n) s fun t =>
       if (s.dev.unitQuads l).all s.dev.quadLocked then
         t.dev.ust u.cls u.idx = 0 ∧ Logged s.dev t.dev 0x0E01 (unitArg u.cls u.idx)
       else t = s.onDev (fun d => d.setChan l { d.chan l with domReady := true })) ∧
   (∀ (q : Quad) (s : State), s.dev.pdOn (domQuad q.val) = true → s.dev.quadLocked q.val = false →
     Completes (.quadPllLock q) s fun t =>
       t.dev.quadReady q.val = true ∧ Logged s.dev t.dev 0x020D q.val ∧
       ∀ k, k < 4 → t.dev.bit .CH_SDS_STAT_quad_pll_lock (4 * q.val + k) = true)) ∧
  (∀ (q : Quad) (s : State), s.dev.quadLocked q.val = true →
     Completes (.quadPllUnlock q) s fun t =>
       t.dev.quadReady q.val = false ∧ Logged s.dev t.dev 0x020E q.val ∧
       ∀ k, k < 4 →
         t.dev.rx (4 * q.val + k) = rxOff ∧
         t.dev.bit .CH_SDS_STAT_tx_on (4 * q.val + k) = false ∧
         t.dev.bit .CH_SDS_STAT_cdr_lock (4 * q.val + k) = false ∧
         t.dev.bit .CH_SDS_STAT_quad_pll_lock (4 * q.val + k) = false ∧
         t.dev.bit .CH_SDS_EVT_quad_pll_unlock (4 * q.val + k) = true)

/-- On R42: the receiver's transitions once their time is over, each with the flags and the event that the table of R42
gives it, and its frame: beside the channel's own state, the flags and the events, only a lost CDR lock also breaks
its unit's BER window (R41). CAL to ACQUIRE or HOLD after 1 ms, ACQUIRE to TRACK after 1 ms, ACQUIRE again from
preset taps after 100 ms (NRZ 30 ms), TRACK to ACQUIRE, HOLD to ACQUIRE after 1 ms without LOS. Before its time a
transition does not happen. Rests in part on the model's own choices and readings, log entry 4. -/
def Obligations.ReceiverTransitions : Prop :=
  (∀ (n : Chan) (s : State), s.dev.rx n.val = rxCal → s.dev.rxFor n.val (msTicks 1) = true →
    Completes (.rxCalDone n) s fun t =>
      t.dev.rx n.val = (if s.dev.bit .CH_SDS_STAT_los n.val then rxHold else rxAcquire) ∧
      t.dev.bit .CH_SDS_STAT_adapt_frozen n.val = s.dev.bit .CH_SDS_STAT_los n.val ∧
      OnlyChan n.val [(.CH_SDS_STAT_adapt_state, n.val), (.CH_SDS_STAT_adapt_frozen, n.val)] s t) ∧
  (∀ (n : Chan) (snr : BitVec 10) (s : State), s.dev.rx n.val = rxAcquire → s.dev.rxFor n.val (msTicks 1) = true →
    Completes (.rxTrack n snr) s fun t =>
      t.dev.rx n.val = rxTracking ∧ t.dev.bit .CH_SDS_STAT_cdr_lock n.val = true ∧
      t.dev.get .CH_SDS_STAT_snr n.val = snr.toNat ∧ t.dev.bit .CH_SDS_EVT_track_reached n.val = true ∧
      t.dev.bit .CH_SDS_STAT_adapt_frozen n.val = s.dev.bit .CH_SDS_CTL_adapt_freeze n.val ∧
      Logged s.dev t.dev 0x0204 n.val ∧
      OnlyChanAndEvents n.val [(.CH_SDS_STAT_adapt_state, n.val), (.CH_SDS_STAT_adapt_frozen, n.val),
        (.CH_SDS_STAT_cdr_lock, n.val), (.CH_SDS_STAT_snr, n.val), (.CH_SDS_EVT_track_reached, n.val)] s t) ∧
  (∀ (n : Chan) (s : State), s.dev.rx n.val = rxAcquire →
    s.dev.rxFor n.val (msTicks (if isNrz (s.dev.mode n.val) then 30 else 100)) = true →
    Completes (.rxAcquireTimeout n) s fun t =>
      t.dev.rx n.val = rxAcquire ∧ (t.dev.chan n.val).taps = [] ∧
      t.dev.get .CH_SDS_STAT_acq_retries n.val = min (s.dev.get .CH_SDS_STAT_acq_retries n.val + 1) 255 ∧
      t.dev.bit .CH_SDS_EVT_acq_timeout n.val = true ∧ Logged s.dev t.dev 0x0205 n.val ∧
      OnlyChanAndEvents n.val [(.CH_SDS_STAT_adapt_frozen, n.val), (.CH_SDS_STAT_acq_retries, n.val),
        (.CH_SDS_EVT_acq_timeout, n.val)] s t) ∧
  (∀ (n : Chan) (s : State), s.dev.rx n.val = rxTracking → s.dev.bit .CH_SDS_STAT_los n.val = false →
    Completes (.cdrLockLost n) s fun t =>
      t.dev.rx n.val = rxAcquire ∧ t.dev.bit .CH_SDS_STAT_cdr_lock n.val = false ∧
      t.dev.bit .CH_SDS_EVT_cdr_loss n.val = true ∧ (t.dev.chan n.val).taps = (s.dev.chan n.val).taps ∧
      Logged s.dev t.dev 0x0203 n.val ∧
      OnlyLineAndEvents n.val [(.CH_SDS_STAT_adapt_state, n.val), (.CH_SDS_STAT_adapt_frozen, n.val),
        (.CH_SDS_STAT_cdr_lock, n.val), (.CH_SDS_EVT_cdr_loss, n.val)] s t) ∧
  (∀ (n : Chan) (s : State), s.dev.rx n.val = rxHold → s.dev.bit .CH_SDS_STAT_los n.val = false →
    s.dev.losFor n.val (msTicks 1) = true →
    Completes (.rxHoldExit n) s fun t =>
      t.dev.rx n.val = rxAcquire ∧ t.dev.bit .CH_SDS_STAT_adapt_frozen n.val = false ∧
      (t.dev.chan n.val).taps = (s.dev.chan n.val).taps ∧
      OnlyChan n.val [(.CH_SDS_STAT_adapt_state, n.val), (.CH_SDS_STAT_adapt_frozen, n.val)] s t) ∧
  (∀ (n : Chan) (snr : BitVec 10) (s : State), s.dev.rxFor n.val (msTicks 1) = false → s.dev.losFor n.val (msTicks 1) = false →
    exec (.rxCalDone n) s = .next s ∧ exec (.rxTrack n snr) s = .next s ∧ exec (.rxAcquireTimeout n) s = .next s ∧
      exec (.rxHoldExit n) s = .next s)

/-- On R43: in TRACK with adapt_freeze = 0 each tap named that has not moved for 64 µs moves by one step and every other
tap stays; with adapt_freeze = 1 no tap moves. In ACQUIRE every tap converges by the steps named (R42); in any other
state none moves. Nothing else changes, and no event is raised. On R44: a loss of signal of 10 µs is reported once
with event 0x0201 and sends ACQUIRE and TRACK to HOLD; its end, of 100 µs, is reported with event 0x0202 and moves no
receiver. A receiver whose transmitter is off or whose device is held takes no input: neither has an effect (R410).
Rests in part on the model's own choices and readings, log entry 86. -/
def Obligations.TapsAndLossOfSignal : Prop :=
  ((∀ (n : Chan) (moves : List (Nat × Bool)) (s : State), s.dev.rx n.val = rxTracking →
     Completes (.tapAdapt n moves) s fun t =>
       t = { s with dev := { s.dev with chans := t.dev.chans } } ∧
       (∀ m, m ≠ n.val → t.dev.chan m = s.dev.chan m) ∧
       t.dev.chan n.val = { s.dev.chan n.val with taps := (t.dev.chan n.val).taps, tapAt := (t.dev.chan n.val).tapAt } ∧
       ∀ k, let a := Table.get (s.dev.chan n.val).taps k 0
         let b := Table.get (t.dev.chan n.val).taps k 0
         if s.dev.bit .CH_SDS_CTL_adapt_freeze n.val = false ∧ (moves.find? (·.1 == k)).isSome ∧
             (match Table.find (s.dev.chan n.val).tapAt k with | some at_ => decide (at_ + 16000 ≤ s.dev.ticks) | none => true) = true
         then (b = a + 1 ∨ b = a - 1) ∧ Table.find (t.dev.chan n.val).tapAt k = some s.dev.ticks else b = a) ∧
   (∀ (n : Chan) (moves : List (Nat × Bool)) (s : State), s.dev.rx n.val = rxAcquire →
     Completes (.tapAdapt n moves) s fun t =>
       t = { s with dev := { s.dev with chans := t.dev.chans } } ∧
       (∀ m, m ≠ n.val → t.dev.chan m = s.dev.chan m) ∧
       t.dev.chan n.val = { s.dev.chan n.val with taps := (t.dev.chan n.val).taps } ∧
       ∀ k, Table.get (t.dev.chan n.val).taps k 0 =
         Table.get (s.dev.chan n.val).taps k 0 + (moves.count (k, true) : Int) - (moves.count (k, false) : Int)) ∧
   (∀ (n : Chan) (moves : List (Nat × Bool)) (s : State), s.dev.rx n.val ≠ rxAcquire →
     (s.dev.rx n.val = rxTracking → s.dev.bit .CH_SDS_CTL_adapt_freeze n.val = true) →
     exec (.tapAdapt n moves) s = .next s)) ∧
  ((∀ (n : Chan) (s : State), s.dev.bit .CH_SDS_STAT_los n.val = false → s.dev.losFor n.val (usTicks 10) = true →
     s.dev.bit .CH_SDS_STAT_tx_on n.val = true → s.dev.sys.held = false →
     Completes (.losSet n) s fun t =>
       t.dev.bit .CH_SDS_STAT_los n.val = true ∧ t.dev.bit .CH_SDS_EVT_los_set n.val = true ∧
       t.dev.rx n.val = (if s.dev.rx n.val = rxAcquire ∨ s.dev.rx n.val = rxTracking then rxHold else s.dev.rx n.val) ∧
       Logged s.dev t.dev 0x0201 n.val ∧
       OnlyLineAndEvents n.val [(.CH_SDS_STAT_los, n.val), (.CH_SDS_EVT_los_set, n.val), (.CH_SDS_STAT_adapt_state, n.val),
         (.CH_SDS_STAT_adapt_frozen, n.val), (.CH_SDS_STAT_cdr_lock, n.val)] s t) ∧
   (∀ (n : Chan) (s : State), s.dev.bit .CH_SDS_STAT_los n.val = true → s.dev.losFor n.val (usTicks 100) = true →
     s.dev.bit .CH_SDS_STAT_tx_on n.val = true → s.dev.sys.held = false →
     Completes (.losClear n) s fun t =>
       t.dev.bit .CH_SDS_STAT_los n.val = false ∧ t.dev.bit .CH_SDS_EVT_los_clr n.val = true ∧
       Logged s.dev t.dev 0x0202 n.val ∧
       OnlyChanAndEvents n.val [(.CH_SDS_STAT_los, n.val), (.CH_SDS_EVT_los_clr, n.val)] s t) ∧
   (∀ (n : Chan) (s : State), s.dev.bit .CH_SDS_STAT_tx_on n.val = false ∨ s.dev.sys.held = true →
     exec (.losSet n) s = .next s ∧ exec (.losClear n) s = .next s))

/-- On R18, R35, R36: on a format that has a PCS a lock falls with event 0x0206 and rises with event 0x0207 once every
lock of the format is up; hi_ber of an Ethernet or FlexE PHY channel changes with event 0x0208, whose bit 15 is the
new state. On a format without a PCS none of the three commands has an effect. On R32, R34: a bond group whose
members are all locked is aligned after a measurement exactly where the skew is within its deskew capacity, and an
aligned group whose skew exceeds the capacity, or of which a member loses lane_lock, loses alignment; the skew is
reported in the first two cases, and each change raises event 0x020C, with the new state in bit 15 (behind the
member's own 0x0206 where lane_lock is lost). Rests in part on the model's own choices and readings, log entry 54. -/
def Obligations.PcsLocksAndBondAlignment : Prop :=
  ((∀ (n : Chan) (s : State), hasPcs (s.dev.mode n.val) = true → s.dev.bit .CH_PCS_STAT_lane_lock n.val = true →
     Completes (.pcsLockLost n .lane) s fun t =>
       t.dev.bit .CH_PCS_STAT_lane_lock n.val = false ∧ Logged s.dev t.dev 0x0206 n.val) ∧
   (∀ (n : Chan) (s : State), s.dev.bit .CH_PCS_STAT_align_status n.val = true → s.dev.mode n.val = 0x10 ∨ s.dev.mode n.val = 0x18 →
     Completes (.pcsLockLost n .align) s fun t =>
       t.dev.bit .CH_PCS_STAT_align_status n.val = false ∧ Logged s.dev t.dev 0x0206 n.val ∧
       OnlyRegsAndEvents [(.CH_PCS_STAT_align_status, n.val)] s t) ∧
   (∀ (n : Chan) (w : PcsLock) (s : State), isBonded (s.dev.mode n.val) = false → hasPcs (s.dev.mode n.val) = true →
     (match w with
       | .lane => s.dev.bit .CH_PCS_STAT_lane_lock n.val = false ∧
           (hasAlign (s.dev.mode n.val) = true → s.dev.bit .CH_PCS_STAT_align_status n.val = true)
       | .align => hasAlign (s.dev.mode n.val) = true ∧ s.dev.bit .CH_PCS_STAT_align_status n.val = false ∧ s.dev.bit .CH_PCS_STAT_lane_lock n.val = true) →
     Completes (.pcsLockRegained n w) s fun t =>
       (match w with
         | .lane => t.dev.bit .CH_PCS_STAT_lane_lock n.val = true
         | .align => t.dev.bit .CH_PCS_STAT_align_status n.val = true) ∧
       Logged s.dev t.dev 0x0207 n.val) ∧
   (∀ (n : Chan) (w : PcsLock) (on : Bool) (s : State), hasPcs (s.dev.mode n.val) = false →
     exec (.pcsLockLost n w) s = .next s ∧ exec (.pcsLockRegained n w) s = .next s ∧ exec (.hiBerChange n on) s = .next s) ∧
   (∀ (n : Chan) (on : Bool) (s : State), isEther (s.dev.mode n.val) = true → s.dev.bit .CH_PCS_STAT_hi_ber n.val ≠ on →
     Completes (.hiBerChange n on) s fun t =>
       t.dev.bit .CH_PCS_STAT_hi_ber n.val = on ∧
       Logged s.dev t.dev 0x0208 (n.val + if on then 0x8000 else 0) ∧
       OnlyRegsAndEvents [(.CH_PCS_STAT_hi_ber, n.val)] s t)) ∧
  ((∀ (n : Chan) (skew : BitVec 16) (s : State),
     let l := s.dev.leader n.val
     isBonded (s.dev.mode l) = true → s.dev.membersLocked l = true →
     Completes (.bondAlignedSet n skew) s fun t =>
       t.dev.get .CH_BOND_STAT_skew_max l = skew.toNat ∧
       t.dev.bit .CH_BOND_STAT_skew_over l = decide (deskewCap (s.dev.mode l) < skew.toNat) ∧
       t.dev.bit .CH_BOND_STAT_bond_aligned l = decide (skew.toNat ≤ deskewCap (s.dev.mode l)) ∧
       (s.dev.bit .CH_BOND_STAT_bond_aligned l ≠ t.dev.bit .CH_BOND_STAT_bond_aligned l →
         Logged s.dev t.dev 0x020C (l + if skew.toNat ≤ deskewCap (s.dev.mode l) then 0x8000 else 0))) ∧
   (∀ (n : Chan) (skew : BitVec 16) (s : State),
     let l := s.dev.leader n.val
     isBonded (s.dev.mode l) = true → s.dev.bit .CH_BOND_STAT_bond_aligned l = true →
     deskewCap (s.dev.mode l) < skew.toNat →
     Completes (.bondAlignedClear n skew) s fun t =>
       t.dev.get .CH_BOND_STAT_skew_max l = skew.toNat ∧
       t.dev.bit .CH_BOND_STAT_skew_over l = true ∧
       t.dev.bit .CH_BOND_STAT_bond_aligned l = false ∧ Logged s.dev t.dev 0x020C l) ∧
   (∀ (n : Chan) (s : State),
     let l := s.dev.leader n.val
     isBonded (s.dev.mode n.val) = true → isBonded (s.dev.mode l) = true → s.dev.bit .CH_PCS_STAT_lane_lock n.val = true →
     s.dev.ringDepth + 2 ≤ 4096 →
     Completes (.pcsLockLost n .lane) s fun t => t.dev.bit .CH_BOND_STAT_bond_aligned l = false ∧
       Logged s.dev t.dev 0x0206 n.val ∧
       (s.dev.bit .CH_BOND_STAT_bond_aligned l = true → LoggedAfter 1 s.dev t.dev 0x020C l)))

/-- On R39, R40: a codeword that a decoding unit receives is counted: corrected with its symbols and bits and its
histogram bin where its symbols in error are within the format's limit, else uncorrectable with event 0x020B, at most
once per second. On R40: a snapshot copies a channel's background counts into its snapshot registers and restarts
them, and a leader's does so for every member; a request that meets a snapshot in progress, its own or that of a
member of the group it leads, changes no count of that channel; the automatic snapshot does so where snap_1s is set,
and nothing where it is not. On R41: a window of a RUN unit that has ended and is judged sets fec_deg once its count
has been above the set threshold in deg_set_n windows in a row, clears it once it has been below the clear threshold
in deg_clr_n windows in a row, and otherwise leaves it; a window that cannot be judged restarts both runs; before its
end no window is judged. Rests in part on the model's own choices and readings, log entries 52 and 53. -/
def Obligations.FecCounting : Prop :=
  (∀ (n : Chan) (errs : List Nat) (bits : Nat) (s : State),
     let l := s.dev.leader n.val
     let tot := errs.foldl (· + ·) 0
     s.dev.decoding l = true →
     Completes (.fecCodeword n errs bits) s fun t =>
       let c := (s.dev.chan l).fec
       let e := (t.dev.chan l).fec
       e.cw = c.cw + 1 ∧
       (if tot ≤ fecLimit (s.dev.mode l) then
         e.csym = c.csym + tot ∧ e.cbit = c.cbit + bits ∧ e.unc = c.unc ∧
         e.hist = c.hist.set tot (min (c.hist.getD tot 0 + 1) (2 ^ 32 - 1))
       else
         e.unc = min (c.unc + 1) (2 ^ 32 - 1) ∧ e.csym = c.csym ∧ e.cbit = c.cbit ∧ e.hist = c.hist ∧
         (s.dev.admits (evKey 0x020B l) 1 = true → Logged s.dev t.dev 0x020B l))) ∧
  ((∀ (n : Chan) (c : Instr) (s : State),
     (c = .fecSnap n ∨ c = .fecSnapSecond n ∧ s.dev.bit .CH_FEC_CTL_snap_1s n.val = true) →
     s.dev.bit .CH_FEC_SNAP_snap_busy n.val = false → n.val ∈ s.dev.members n.val →
     Completes c s fun t =>
       let k := (s.dev.chan n.val).fec
       (t.dev.chan n.val).fec = FecCount.init ∧
       t.dev.get .CH_FEC_CW_LO_cw_lo n.val = k.cw % 2 ^ 32 ∧
       t.dev.get .CH_FEC_CW_HI_cw_hi n.val = k.cw / 2 ^ 32 % 2 ^ Fld.CH_FEC_CW_HI_cw_hi.w ∧
       t.dev.get .CH_FEC_CSYM_LO_csym_lo n.val = k.csym % 2 ^ 32 ∧
       t.dev.get .CH_FEC_CSYM_HI_csym_hi n.val = k.csym / 2 ^ 32 % 2 ^ Fld.CH_FEC_CSYM_HI_csym_hi.w ∧
       t.dev.get .CH_FEC_CBIT_LO_cbit_lo n.val = k.cbit % 2 ^ 32 ∧
       t.dev.get .CH_FEC_CBIT_HI_cbit_hi n.val = k.cbit / 2 ^ 32 % 2 ^ Fld.CH_FEC_CBIT_HI_cbit_hi.w ∧
       t.dev.get .CH_FEC_LSYM_lsym n.val = k.lsym % 2 ^ 32 ∧
       t.dev.get .CH_FEC_UNC_unc n.val = k.unc % 2 ^ 32 ∧
       (∀ j, j < 16 → t.dev.get .CH_FEC_HIST_hist (n.val * 16 + j) = k.hist.getD j 0 % 2 ^ 32) ∧
       t.dev.bit .CH_FEC_SNAP_snap_busy n.val = true ∧
       (s.dev.leader n.val = n.val → ∀ m ∈ s.dev.members n.val, s.dev.bit .CH_FEC_SNAP_snap_busy m = false →
         (t.dev.chan m).fec = FecCount.init ∧ t.dev.bit .CH_FEC_SNAP_snap_busy m = true) ∧
       t.pool = s.pool ∧ t.pending = s.pending ∧ t.dev.host = s.dev.host) ∧
   (∀ (n : Chan) (s : State), s.dev.bit .CH_FEC_SNAP_snap_busy n.val = true →
     (s.dev.leader n.val = n.val → ∀ m ∈ s.dev.members n.val, s.dev.bit .CH_FEC_SNAP_snap_busy m = true) →
     exec (.fecSnap n) s = .next s) ∧
   (∀ (n : Chan) (m : Nat) (s : State), s.dev.leader n.val = n.val → m ∈ s.dev.members n.val →
     s.dev.bit .CH_FEC_SNAP_snap_busy m = true →
     Completes (.fecSnap n) s fun t =>
       t.dev.chan m = s.dev.chan m ∧
       (∀ f ∈ [Fld.CH_FEC_CW_LO_cw_lo, .CH_FEC_CW_HI_cw_hi, .CH_FEC_CSYM_LO_csym_lo, .CH_FEC_CSYM_HI_csym_hi,
           .CH_FEC_CBIT_LO_cbit_lo, .CH_FEC_CBIT_HI_cbit_hi, .CH_FEC_LSYM_lsym, .CH_FEC_UNC_unc],
         t.dev.get f m = s.dev.get f m) ∧
       ∀ j, j < 16 → t.dev.get .CH_FEC_HIST_hist (m * 16 + j) = s.dev.get .CH_FEC_HIST_hist (m * 16 + j)) ∧
   (∀ (n : Chan) (s : State), s.dev.bit .CH_FEC_CTL_snap_1s n.val = false →
     exec (.fecSnapSecond n) s = .next s)) ∧
  ((∀ (n : Chan) (s : State),
     let l := s.dev.leader n.val
     s.dev.lineRun l = true → s.dev.winOver l = true → (s.dev.chan l).winValid = false →
     Completes (.fecDegWindow n) s fun t =>
       (t.dev.chan l).degSetRun = 0 ∧ (t.dev.chan l).degClrRun = 0 ∧ t.dev.regs = s.dev.regs) ∧
   (∀ (n : Chan) (s : State),
     let l := s.dev.leader n.val
     let c := s.dev.chan l
     let bits := laneKbps (s.dev.mode l) * s.dev.groupSize l * s.dev.winLen l c.winAt / 10 ^ 6
     s.dev.lineRun l = true → s.dev.winOver l = true → c.winValid = true →
     s.dev.get .CH_FEC_DEGTHR_set_m l * bits < c.winBits * 10 ^ s.dev.get .CH_FEC_DEGTHR_set_e l →
     Completes (.fecDegWindow n) s fun t =>
       (t.dev.chan l).degSetRun = c.degSetRun + 1 ∧
       (¬ s.dev.get .CH_FEC_CTL_deg_set_n l ≤ c.degSetRun + 1 →
         c.winBits * 10 ^ s.dev.get .CH_FEC_DEGTHR_clr_e l ≥ s.dev.get .CH_FEC_DEGTHR_clr_m l * bits →
         t.dev.bit .CH_FEC_STAT_fec_deg l = s.dev.bit .CH_FEC_STAT_fec_deg l) ∧
       (s.dev.get .CH_FEC_CTL_deg_set_n l ≤ c.degSetRun + 1 → t.dev.bit .CH_FEC_STAT_fec_deg l = true) ∧
       (s.dev.get .CH_FEC_CTL_deg_set_n l ≤ c.degSetRun + 1 → s.dev.bit .CH_FEC_STAT_fec_deg l = false →
         Logged s.dev t.dev 0x0209 l)) ∧
   (∀ (n : Chan) (s : State),
     let l := s.dev.leader n.val
     let c := s.dev.chan l
     let bits := laneKbps (s.dev.mode l) * s.dev.groupSize l * s.dev.winLen l c.winAt / 10 ^ 6
     s.dev.lineRun l = true → s.dev.winOver l = true → c.winValid = true →
     ¬ s.dev.get .CH_FEC_DEGTHR_set_m l * bits < c.winBits * 10 ^ s.dev.get .CH_FEC_DEGTHR_set_e l →
     c.winBits * 10 ^ s.dev.get .CH_FEC_DEGTHR_clr_e l < s.dev.get .CH_FEC_DEGTHR_clr_m l * bits →
     Completes (.fecDegWindow n) s fun t =>
       (t.dev.chan l).degClrRun = c.degClrRun + 1 ∧ (t.dev.chan l).degSetRun = 0 ∧
       (¬ s.dev.get .CH_FEC_CTL_deg_clr_n l ≤ c.degClrRun + 1 →
         t.dev.bit .CH_FEC_STAT_fec_deg l = s.dev.bit .CH_FEC_STAT_fec_deg l) ∧
       (s.dev.get .CH_FEC_CTL_deg_clr_n l ≤ c.degClrRun + 1 → t.dev.bit .CH_FEC_STAT_fec_deg l = false) ∧
       (s.dev.get .CH_FEC_CTL_deg_clr_n l ≤ c.degClrRun + 1 → s.dev.bit .CH_FEC_STAT_fec_deg l = true →
         Logged s.dev t.dev 0x020A l)) ∧
   (∀ (n : Chan) (s : State),
     let l := s.dev.leader n.val
     let c := s.dev.chan l
     let bits := laneKbps (s.dev.mode l) * s.dev.groupSize l * s.dev.winLen l c.winAt / 10 ^ 6
     s.dev.lineRun l = true → s.dev.winOver l = true → c.winValid = true →
     ¬ s.dev.get .CH_FEC_DEGTHR_set_m l * bits < c.winBits * 10 ^ s.dev.get .CH_FEC_DEGTHR_set_e l →
     ¬ c.winBits * 10 ^ s.dev.get .CH_FEC_DEGTHR_clr_e l < s.dev.get .CH_FEC_DEGTHR_clr_m l * bits →
     Completes (.fecDegWindow n) s fun t =>
       (t.dev.chan l).degClrRun = 0 ∧ (t.dev.chan l).degSetRun = 0 ∧
       t.dev.bit .CH_FEC_STAT_fec_deg l = s.dev.bit .CH_FEC_STAT_fec_deg l) ∧
   (∀ (n : Chan) (s : State), s.dev.winOver (s.dev.leader n.val) = false → exec (.fecDegWindow n) s = .next s))

/-! ### Chapter 03: frame alignment -/

/-- On R52, R53, R57: a tick of a running aligner, in any state but OFF, advances its flywheel modulo 256 (for FlexO too,
log entry 48); in INFRAME the frame is errored where the line delivers no data or the pattern, compared over the
width that cmp_width selects, differs in more than loss_tol bits: the errored run and the counter advance, and an
unerrored frame ends the run. The tick leaves the aligner's state, and an aligner in OFF, as they are. Rests in part
on the model's own choices and readings, log entries 13 and 48. -/
def Obligations.FrameTickOfTheAligner : Prop :=
  (∀ (n : Chan) (rx : FrameRx) (s : State),
    let l := s.dev.leader n.val
    let bad := s.dev.noData l || decide (s.dev.get .CH_ALN_CTL_loss_tol l < s.dev.patErr l rx.pat)
    s.dev.alnState l = 3 →
    Completes (.frameTick n rx) s fun t =>
      t.dev.get .CH_ALN_STAT_flywheel l = (s.dev.get .CH_ALN_STAT_flywheel l + 1) % 256 ∧
      t.dev.alnState l = 3 ∧ (t.dev.aln l).entered = false ∧
      (t.dev.aln l).errRun = (if bad then (s.dev.aln l).errRun + 1 else 0) ∧
      t.dev.get .CH_ALN_ERRFRM_CNT_errfrm_cnt l = min (s.dev.get .CH_ALN_ERRFRM_CNT_errfrm_cnt l + if bad then 1 else 0)
        (2 ^ Fld.CH_ALN_ERRFRM_CNT_errfrm_cnt.w - 1)) ∧
  (∀ (n : Chan) (rx : FrameRx) (s : State),
    let l := s.dev.leader n.val
    s.dev.alnState l = 1 ∨ s.dev.alnState l = 2 →
    Completes (.frameTick n rx) s fun t =>
      t.dev.get .CH_ALN_STAT_flywheel l = (s.dev.get .CH_ALN_STAT_flywheel l + 1) % 256 ∧
      t.dev.alnState l = s.dev.alnState l ∧ (t.dev.aln l).slots = (s.dev.aln l).slots ∧
      (t.dev.aln l).errRun = (s.dev.aln l).errRun ∧
      (t.dev.aln l).tieLeft = (if s.dev.alnState l = 2 then (s.dev.aln l).tieLeft - 1 else (s.dev.aln l).tieLeft) ∧
      t.dev.get .CH_ALN_ERRFRM_CNT_errfrm_cnt l = s.dev.get .CH_ALN_ERRFRM_CNT_errfrm_cnt l) ∧
  (∀ (n : Chan) (rx : FrameRx) (s : State), s.dev.alnState (s.dev.leader n.val) = 0 →
    Completes (.frameTick n rx) s fun t => t = s)

/-- On R54, R55: an exact pattern at a new position opens a candidate in a free slot, and leaves the other slots; with no
slot free it takes the slot of the earliest opened candidate of run 1 that is neither held nor a contender, which is
counted, and without such a candidate it is counted in full_cnt and changes nothing else; a candidate that matches
lengthens its run up to 15, one that does not match is dropped, and one whose MFAS fails verification is dropped and
counted. Rests in part on the model's own choices and readings, log entry 109. -/
def Obligations.Candidates : Prop :=
  (∀ (n : Chan) (pos : BitVec 21) (pat : List Byte) (mfas : Byte) (s : State),
    let l := s.dev.leader n.val
    let a := s.dev.aln l
    let p := pos.toNat % framePeriod (s.dev.mode l)
    s.dev.alnState l ≠ 0 → s.dev.noData l = false → s.dev.patErr l pat = 0 → isFlexO (s.dev.mode l) = false →
    a.live.all (fun e => e.2.pos != p) = true → (List.range 4).any (fun k => (a.slot k).isNone) = true →
    Completes (.patternMatch n pos pat mfas) s fun t =>
      (∃ k, k < 4 ∧ a.slot k = none ∧ Opened p mfas s.dev.dtime ((t.dev.aln l).slot k) ∧
        ∀ j, j < 4 → j ≠ k → (t.dev.aln l).slot j = a.slot j) ∧
      t.dev.get .CH_ALN_CAND_CNT_cand_cnt l = min (s.dev.get .CH_ALN_CAND_CNT_cand_cnt l + 1)
        (2 ^ Fld.CH_ALN_CAND_CNT_cand_cnt.w - 1)) ∧
  (∀ (n : Chan) (pos : BitVec 21) (pat : List Byte) (mfas : Byte) (s : State) (k : Nat) (v : CandSlot),
    let l := s.dev.leader n.val
    let a := s.dev.aln l
    let p := pos.toNat % framePeriod (s.dev.mode l)
    s.dev.alnState l ≠ 0 → s.dev.noData l = false → s.dev.patErr l pat = 0 → isFlexO (s.dev.mode l) = false →
    a.live.all (fun e => e.2.pos != p) = true → (List.range 4).any (fun k => (a.slot k).isNone) = false →
    k < 4 → a.slot k = some v → v.held = false → v.contender = false → v.run = 1 →
    a.live.all (fun e => e.1 == k || e.2.held || e.2.contender || e.2.run != 1 || decide (v.opened.toNat < e.2.opened.toNat)) = true →
    Completes (.patternMatch n pos pat mfas) s fun t =>
      Opened p mfas s.dev.dtime ((t.dev.aln l).slot k) ∧
      (∀ j, j < 4 → j ≠ k → (t.dev.aln l).slot j = a.slot j) ∧
      t.dev.get .CH_ALN_EVICT_CNT_evict_cnt l = min (s.dev.get .CH_ALN_EVICT_CNT_evict_cnt l + 1)
        (2 ^ Fld.CH_ALN_EVICT_CNT_evict_cnt.w - 1)) ∧
  (∀ (n : Chan) (pos : BitVec 21) (pat : List Byte) (mfas : Byte) (s : State),
    let l := s.dev.leader n.val
    let a := s.dev.aln l
    let p := pos.toNat % framePeriod (s.dev.mode l)
    s.dev.alnState l ≠ 0 → s.dev.noData l = false → s.dev.patErr l pat = 0 → isFlexO (s.dev.mode l) = false →
    a.live.all (fun e => e.2.pos != p) = true → (List.range 4).any (fun k => (a.slot k).isNone) = false →
    a.live.all (fun e => e.2.held || e.2.contender || e.2.run != 1) = true →
    Completes (.patternMatch n pos pat mfas) s fun t =>
      t.dev.get .CH_ALN_EVICT_CNT_full_cnt l = min (s.dev.get .CH_ALN_EVICT_CNT_full_cnt l + 1)
        (2 ^ Fld.CH_ALN_EVICT_CNT_full_cnt.w - 1) ∧
      OnlyRegs [(.CH_ALN_EVICT_CNT_full_cnt, l)] s t) ∧
  (∀ (n : Chan) (pos : BitVec 21) (pat : List Byte) (mfas : Byte) (s : State), s.dev.patErr (s.dev.leader n.val) pat ≠ 0 →
    exec (.patternMatch n pos pat mfas) s = .next s) ∧
  (∀ (d : Dev) (l : Nat) (rx : List Byte), isFlexO (d.mode l) = false → rx.length = 6 →
    (d.patErr l rx = 0 ↔ if d.bit .CH_ALN_CTL_cmp_width l = true then rx[2]? = some 0xF6 ∧ rx[3]? = some 0x28
      else rx = [0xF6, 0xF6, 0xF6, 0x28, 0x28, 0x28])) ∧
  (∀ (n : Chan) (k : Fin 4) (pat : List Byte) (mfas par rcv : Byte) (s : State) (c : CandSlot),
    let l := s.dev.leader n.val
    (s.dev.aln l).slot k.val = some c → c.held = false →
    Completes (.candidateCheck n k pat mfas par rcv) s fun t =>
      (∀ j, j < 4 → j ≠ k.val → (t.dev.aln l).slot j = (s.dev.aln l).slot j) ∧
      if s.dev.patErr l pat != 0 || s.dev.noData l then (t.dev.aln l).slot k.val = none
      else if s.dev.alnVerify l && decide (1 ≤ c.run) && mfas != c.mfas + 1 then
        (t.dev.aln l).slot k.val = none ∧
        t.dev.get .CH_ALN_VFAIL_CNT_vfail_cnt l = min (s.dev.get .CH_ALN_VFAIL_CNT_vfail_cnt l + 1)
          (2 ^ Fld.CH_ALN_VFAIL_CNT_vfail_cnt.w - 1)
      else
        ∃ e, (t.dev.aln l).slot k.val = some e ∧ e.run = min (c.run + 1) 15 ∧ e.mfas = mfas ∧ e.pos = c.pos ∧
          e.mimic = c.mimic ∧ e.parity = c.parity + (if c.contender && par == rcv then 1 else 0))

/-- On R56, R59, R60: in SEARCH a candidate that qualifies without a rival and without a mimic flag enters INFRAME, and
one with a rival enters TIE; a TIE ends in SEARCH where no contender is left and in INFRAME where a single unflagged
one is. INFRAME ends OOF, holds the winner at position 0 and counts one acquisition, and its first tick is not yet in
frame. A single unflagged contender that has not matched since it was left alone stays in TIE while tie_ext frames
are left. -/
def Obligations.SearchTieInframe : Prop :=
  (∀ (n : Chan) (k : Fin 4) (s : State) (c : CandSlot),
    let l := s.dev.leader n.val
    let rival := (s.dev.aln l).live.any (fun e => e.1 != k.val && decide (max (s.dev.alnN l - 1) 1 ≤ e.2.run))
    (s.dev.aln l).slot k.val = some c → s.dev.alnN l ≤ c.run → c.due = true → s.dev.alnState l = 1 →
    isFlexO (s.dev.mode l) = false → (rival = true ∨ c.mimic = false) →
    Completes (.candidateQualify n k) s fun t =>
      if rival then
        t.dev.alnState l = 2 ∧ (∃ e, (t.dev.aln l).slot k.val = some e ∧ e.contender = true) ∧
        (t.dev.aln l).tieLeft = s.dev.get .CH_ALN_CTL_tie_ext l ∧ Logged s.dev t.dev 0x0309 l
      else
        t.dev.alnState l = 3 ∧ t.dev.bit .CH_ALN_STAT_oof l = false ∧ (t.dev.aln l).errRun = 0 ∧
        (∃ e, (t.dev.aln l).slot k.val = some e ∧ e.held = true ∧ e.pos = 0) ∧ (t.dev.aln l).entered = true ∧
        t.dev.get .CH_ALN_ACQ_CNT_acq_cnt l = min (s.dev.get .CH_ALN_ACQ_CNT_acq_cnt l + 1)
          (2 ^ Fld.CH_ALN_ACQ_CNT_acq_cnt.w - 1)) ∧
  (∀ (n : Chan) (s : State),
    let l := s.dev.leader n.val
    s.dev.alnState l = 2 → (s.dev.aln l).live.filter (fun e => e.2.contender) = [] →
    Completes (.tieEnd n) s fun t => t.dev.alnState l = 1) ∧
  (∀ (n : Chan) (s : State) (k : Nat) (c : CandSlot),
    let l := s.dev.leader n.val
    s.dev.alnState l = 2 → (s.dev.aln l).live.filter (fun e => e.2.contender) = [(k, c)] → c.mimic = false →
    if c.alone = true ∨ (s.dev.aln l).tieLeft = 0 then
      Completes (.tieEnd n) s fun t =>
        t.dev.alnState l = 3 ∧ t.dev.bit .CH_ALN_STAT_oof l = false ∧
        ∃ e, (t.dev.aln l).slot k = some e ∧ e.held = true ∧ e.pos = 0
    else exec (.tieEnd n) s = .next s)

/-- On R58: in INFRAME a shadow candidate that reaches N while the held frame has matched throughout its run is flagged
as a mimic, its position is reported, it is counted, and event 0x030B is raised. On R60, R61: the M-th consecutive
errored frame takes the aligner from INFRAME to SEARCH, sets OOF, frees the held slot alone, stops the multiframe
machine, which is reported in oom_set where it was in MF_IN, and raises event 0x0301 while fewer than 16 have been
raised in the second. -/
def Obligations.MimicsAndOutOfFrame : Prop :=
  (∀ (n : Chan) (k : Fin 4) (s : State) (c : CandSlot),
     let l := s.dev.leader n.val
     (s.dev.aln l).slot k.val = some c → s.dev.alnState l = 3 → c.held = false → c.mimic = false → c.heldOk = true →
     s.dev.alnN l ≤ c.run →
     Completes (.mimicFlagged n k) s fun t =>
       (t.dev.aln l).slot k.val = some { c with mimic := true } ∧
       t.dev.get .CH_ALN_MIMIC_mimic_pos l = c.pos % 2 ^ Fld.CH_ALN_MIMIC_mimic_pos.w ∧
       t.dev.get .CH_ALN_MIMIC_CNT_mimic_cnt l = min (s.dev.get .CH_ALN_MIMIC_CNT_mimic_cnt l + 1)
         (2 ^ Fld.CH_ALN_MIMIC_CNT_mimic_cnt.w - 1) ∧
       Logged s.dev t.dev 0x030B l) ∧
  (∀ (n : Chan) (s : State),
     let l := s.dev.leader n.val
     s.dev.alnState l = 3 → s.dev.alnM l ≤ (s.dev.aln l).errRun →
     Completes (.oof n) s fun t =>
       t.dev.alnState l = 1 ∧ t.dev.bit .CH_ALN_STAT_oof l = true ∧ t.dev.get .CH_ALN_STAT_mf_state l = 0 ∧
       t.dev.bit .CH_ALN_STAT_oom l = s.dev.bit .CH_ALN_CTL_mf_mode l ∧
       (s.dev.get .CH_ALN_STAT_mf_state l = 2 → t.dev.bit .CH_ALN_EVT_oom_set l = true) ∧
       (∀ k, ((t.dev.aln l).slot k).isSome = true ↔ ∃ c, (s.dev.aln l).slot k = some c ∧ c.held = false) ∧
       t.dev.get .CH_ALN_OOF_CNT_oof_cnt l = min (s.dev.get .CH_ALN_OOF_CNT_oof_cnt l + 1)
         (2 ^ Fld.CH_ALN_OOF_CNT_oof_cnt.w - 1) ∧
       (s.dev.admits (evKey 0x0301 l) 16 = true → Logged s.dev t.dev 0x0301 l) ∧
       (s.dev.admits (evKey 0x0301 l) 16 = false → t.dev.host = s.dev.host))

/-- On R62: mf_confirm increments in a row in MF_SEARCH bring MF_IN, end OOM and set the flywheel to the received value,
with event 0x030C before 0x0306 where the two differed; mf_lose mismatches in a row in MF_IN bring MF_SEARCH and OOM
with event 0x0305. On R64: the integrated defects. dLOF is declared with event 0x0303 once its integrator, which
advances while oof = 1, has reached lof_set, and takes dLOM with it; it clears with event 0x0304 once INFRAME has
persisted for lof_clr, its integrator at 0; dLOM is declared with event 0x0307 once its integrator has reached
lom_set in INFRAME while OOM, and clears with event 0x0308 once MF_IN has persisted for lom_clr. Before these times
nothing changes. Rests in part on the model's own choices and readings, log entry 4. -/
def Obligations.MultiframeAndIntegratedDefects : Prop :=
  ((∀ (n : Chan) (s : State),
     let l := s.dev.leader n.val
     let r := ((s.dev.aln l).prevMf.getD 0).toNat
     s.dev.alnState l = 3 → s.dev.get .CH_ALN_STAT_mf_state l = 1 →
     s.dev.get .CH_ALN_CTL_mf_confirm l ≤ (s.dev.aln l).mfRun →
     Completes (.mfRegain n) s fun t =>
       t.dev.get .CH_ALN_STAT_mf_state l = 2 ∧ t.dev.bit .CH_ALN_STAT_oom l = false ∧
       t.dev.get .CH_ALN_STAT_flywheel l = r ∧
       Logged s.dev t.dev (if s.dev.get .CH_ALN_STAT_flywheel l = r then 0x0306 else 0x030C) l) ∧
   (∀ (n : Chan) (s : State),
     let l := s.dev.leader n.val
     s.dev.get .CH_ALN_STAT_mf_state l = 2 → s.dev.get .CH_ALN_CTL_mf_lose l ≤ (s.dev.aln l).mfMiss →
     Completes (.mfLoss n) s fun t =>
       t.dev.get .CH_ALN_STAT_mf_state l = 1 ∧ t.dev.bit .CH_ALN_STAT_oom l = true ∧ Logged s.dev t.dev 0x0305 l)) ∧
  ((∀ (n : Chan) (s : State),
     let l := s.dev.leader n.val
     s.dev.bit .CH_ALN_STAT_oof l = true → s.dev.bit .CH_ALN_STAT_dlof l = false →
     s.dev.get .CH_ALN_TIME_lof_set l * 25000 ≤ reached (s.dev.aln l).lofAcc (s.dev.aln l).lofSince s.dev.ticks →
     Completes (.dlofDeclare n) s fun t =>
       t.dev.bit .CH_ALN_STAT_dlof l = true ∧ t.dev.bit .CH_ALN_STAT_dlom l = false ∧ (t.dev.aln l).lomAcc = 0 ∧
       Logged s.dev t.dev 0x0303 l) ∧
   (∀ (n : Chan) (s : State),
     let l := s.dev.leader n.val
     s.dev.alnState l = 3 → s.dev.bit .CH_ALN_STAT_dlof l = true →
     persisted (s.dev.aln l).lofOk s.dev.ticks (s.dev.get .CH_ALN_TIME_lof_clr l * 25000) = true →
     Completes (.dlofClear n) s fun t =>
       t.dev.bit .CH_ALN_STAT_dlof l = false ∧ (t.dev.aln l).lofAcc = 0 ∧ Logged s.dev t.dev 0x0304 l) ∧
   (∀ (n : Chan) (s : State),
     let l := s.dev.leader n.val
     s.dev.alnState l = 3 → s.dev.bit .CH_ALN_STAT_oom l = true → s.dev.bit .CH_ALN_STAT_dlom l = false →
     s.dev.get .CH_ALN_TIME_lom_set l * 25000 ≤ reached (s.dev.aln l).lomAcc (s.dev.aln l).lomSince s.dev.ticks →
     Completes (.dlomDeclare n) s fun t =>
       t.dev.bit .CH_ALN_STAT_dlom l = true ∧ Logged s.dev t.dev 0x0307 l ∧
       OnlyRegsAndEvents [(.CH_ALN_STAT_dlom, l), (.CH_ALN_EVT_dlom_chg, l)] s t) ∧
   (∀ (n : Chan) (s : State),
     let l := s.dev.leader n.val
     s.dev.get .CH_ALN_STAT_mf_state l = 2 → s.dev.bit .CH_ALN_STAT_dlom l = true →
     persisted (s.dev.aln l).lomOk s.dev.ticks (s.dev.get .CH_ALN_TIME_lom_clr l * 25000) = true →
     Completes (.dlomClear n) s fun t =>
       t.dev.bit .CH_ALN_STAT_dlom l = false ∧ (t.dev.aln l).lomAcc = 0 ∧ Logged s.dev t.dev 0x0308 l) ∧
   (∀ (n : Chan) (s : State),
     let l := s.dev.leader n.val
     (s.dev.lofReached l = false → exec (.dlofDeclare n) s = .next s) ∧
     (s.dev.lofPersists l = false → exec (.dlofClear n) s = .next s) ∧
     (s.dev.lomReached l = false → exec (.dlomDeclare n) s = .next s) ∧
     (s.dev.lomPersists l = false → exec (.dlomClear n) s = .next s)))

/-! ### Chapter 04: overhead, defects, egress -/

/-- On R22, R87, R88, R419: a boundary of an egress point whose clock runs sends one frame, of the priority that R87
gives, with the signal of that priority and at most 8 BEI of each level, taken from its accumulator; one whose clock
does not run, or whose slice is off, sends none. A STOPPED ODU point sends ODU-LCK, an ODU point without a connection
ODU-OCI. On R137: the LO aligner of a RUN tributary that acquires or is LIVE. In frame, the fifth errored frame in a
row brings LO OOF; out of frame, the second good frame whose MFAS is one above the first ends it. Rests in part on
the model's own choices and readings, log entries 13 and 88. -/
def Obligations.FrameTimesOfEgressAndTributaries : Prop :=
  ((∀ (n : Chan) (s : State),
     let l := s.dev.leader n.val
     Completes (.egressFrame (.chan n)) s fun t =>
       if (s.dev.chan l).egressOn then
         (t.dev.chan l).egressFrames = (s.dev.chan l).egressFrames + 1 ∧
         t.dev.get .CH_OH_ACT_egress_prio l = s.dev.egressPrio l % 2 ^ Fld.CH_OH_ACT_egress_prio.w ∧
         (t.dev.oh l).egress.signal = s.dev.egressSignal l (s.dev.egressPrio l) ∧
         (∀ j, j < 8 → Table.get (t.dev.oh l).egress.bei j 0 ≤ 8 ∧
           Table.get (t.dev.oh l).bei j 0 + Table.get (t.dev.oh l).egress.bei j 0 = Table.get (s.dev.oh l).bei j 0) ∧
         RegsKept [] [(.CH_OH_ACT_egress_prio, l)] s.dev t.dev ∧ t.dev.host = s.dev.host
       else t = s) ∧
   (∀ (b : Trib) (s : State), s.dev.kind b.val ≠ 0 → s.dev.pdOn (domSlice (sliceOf (s.dev.carrier b.val))) = true →
     (s.dev.tribMap b.val = false ∨ (s.dev.trib b.val).egressOn = true) →
     Completes (.egressFrame (.trib b)) s fun t =>
       (t.dev.trib b.val).egressFrames = (s.dev.trib b.val).egressFrames + 1 ∧
       t.dev.get .ODU_OH_ACT_egress_prio b.val = s.dev.egressPrio (192 + b.val) % 2 ^ Fld.ODU_OH_ACT_egress_prio.w ∧
       (t.dev.oh (192 + b.val)).egress.signal = s.dev.egressSignal (192 + b.val) (s.dev.egressPrio (192 + b.val)) ∧
       RegsKept [] [(.ODU_OH_ACT_egress_prio, b.val)] s.dev t.dev) ∧
   (∀ (b : Trib) (s : State), s.dev.pdOn (domSlice (sliceOf (s.dev.carrier b.val))) = false →
     exec (.egressFrame (.trib b)) s = .next s) ∧
   (∀ (d : Dev) (k : Nat), d.pointKind k = .odu →
     (d.srcOut k = true → d.egressSignal k (d.egressPrio k) = .oduLck) ∧
     (d.srcOut k = false → d.og k .CH_OH_CTL_ins_force = 0 → d.nullSignal k = false → d.feed k = Feed.none →
       d.egressSignal k (d.egressPrio k) = .oduOci))) ∧
  ((∀ (b : Trib) (rx : FrameRx) (s : State),
     s.dev.running .trib b.val = true → s.dev.kind b.val ≠ 0 → 2 ≤ s.dev.trState b.val →
     (s.dev.trib b.val).inFrame = true → 4 ≤ (s.dev.trib b.val).errRun → 2 < patDiff rx.pat 0 6 →
     Completes (.tribFrameTick b rx) s fun t =>
       (t.dev.trib b.val).inFrame = false ∧ (t.dev.trib b.val).flywheel = (s.dev.trib b.val).flywheel + 1) ∧
   (∀ (b : Trib) (rx : FrameRx) (s : State) (m : Byte),
     s.dev.running .trib b.val = true → s.dev.kind b.val ≠ 0 → 2 ≤ s.dev.trState b.val →
     (s.dev.trib b.val).inFrame = false → 1 ≤ (s.dev.trib b.val).goodRun → (s.dev.trib b.val).prevMf = some m →
     rx.mf = m + 1 → patDiff rx.pat 0 6 = 0 →
     (s.dev.bit .ODU_CFG_srv_none b.val = true ∨ (s.dev.oh (s.dev.srvSignal b.val)).noData = false) →
     Completes (.tribFrameTick b rx) s fun t =>
       (t.dev.trib b.val).inFrame = true ∧ (t.dev.trib b.val).mfState = 1))

/-- On R80–R82: where firmware evaluates the level, a defect whose condition holds is declared, and one whose clear
condition holds is cleared, dTIM and dPLM only while its home queue sheds nothing; the transition enters the source's
log with the DTIME of its frame, and the log keeps the oldest eight: one that finds it full is counted and lost. No
other source, and no byte of the pool, changes. Where the level is not evaluated nothing changes. On R83: at the end
of a dDEG window the run of bad or of good windows advances and the other restarts, a window that could not be judged
leaves both, and the next window begins at 0 errored blocks; before its end no window is judged. On R85: a fault
cause that at the last evaluation has persisted for fail_set is declared as a failure, and one that has been absent
for fail_clr clears it, each with its event and one FAILURE record handed to the recorder, with the time of that
evaluation; all else but the failure word and the source's event word stays. Before that time nothing changes. Rests
in part on the model's own choices and readings, log entries 4, 13, 56 and 58. -/
def Obligations.DefectsWindowsFailures : Prop :=
  (∀ (src : Src) (l : Lvl) (code : DefCode) (clr : Bool) (s : State),
     let k := srcKey src
     Completes (if clr then .defectClear src l code else .defectDeclare src l code) s fun t =>
       if s.dev.evaluates k l.val && (!c3Code code.val || s.dev.get .STR_HEAT_STAT_shed_state (s.dev.homeHeat k) == 0) &&
           s.dev.codeAt k l.val code.val && s.dev.defectCond k l.val code.val clr then
         t.dev.defBit k l.val code.val = !clr ∧
         (s.dev.defBit k l.val code.val = clr → (s.dev.oh k).tlog.length < 8 →
           (t.dev.oh k).tlog = (s.dev.oh k).tlog ++ [⟨l.val, code.val, !clr, (s.dev.oh k).frameSeq, (s.dev.oh k).born⟩]) ∧
         (s.dev.defBit k l.val code.val = clr → 8 ≤ (s.dev.oh k).tlog.length →
           (t.dev.oh k).tlog = (s.dev.oh k).tlog ∧ (t.dev.oh k).tlogDrop = (s.dev.oh k).tlogDrop + 1 ∧
           t.dev.get .STR_HEAT_TLOG_tlog_drop (s.dev.homeHeat k) =
             min (s.dev.get .STR_HEAT_TLOG_tlog_drop (s.dev.homeHeat k) + 1) (2 ^ Fld.STR_HEAT_TLOG_tlog_drop.w - 1)) ∧
         (s.dev.defBit k l.val code.val ≠ clr → (t.dev.oh k).tlog = (s.dev.oh k).tlog) ∧
         (∀ j, j ≠ k → t.dev.oh j = s.dev.oh j) ∧ t.pool = s.pool
       else t = s) ∧
  ((∀ (src : Src) (l : Lvl) (s : State),
     let k := srcKey src
     let w := Table.get (s.dev.oh k).deg l.val DegSt.init
     let bad := decide (s.dev.og k .CH_OH_DEGTHR_deg_thr 8 l.val ≤ w.eb)
     w.at_ + s.dev.degLen k l.val ≤ s.dev.now ∨ s.dev.now < w.at_ →
     Completes (.ddegWindowEnd src l) s fun t =>
       let x := Table.get (t.dev.oh k).deg l.val DegSt.init
       x.eb = 0 ∧
       (if w.valid then x.bad = (if bad then w.bad + 1 else 0) ∧ x.good = (if bad then 0 else w.good + 1)
         else x.bad = w.bad ∧ x.good = w.good) ∧
       (∀ j, j ≠ k → t.dev.oh j = s.dev.oh j) ∧ t.pool = s.pool) ∧
   (∀ (src : Src) (l : Lvl) (s : State),
     let k := srcKey src
     let w := Table.get (s.dev.oh k).deg l.val DegSt.init
     w.at_ ≤ s.dev.now → s.dev.now < w.at_ + s.dev.degLen k l.val → exec (.ddegWindowEnd src l) s = .next s)) ∧
  (∀ (src : Src) (l : Lvl) (code : DefCode) (clr : Bool) (s : State),
     let k := srcKey src
     s.dev.evaluates k l.val = true → s.dev.causeNow k l.val code.val = !clr →
     s.dev.failBit k l.val code.val = clr →
     if s.dev.causePersists k l.val code.val
         (if clr then s.dev.og k .CH_OH_FAIL_TIME_fail_clr else s.dev.og k .CH_OH_FAIL_TIME_fail_set) then
     Completes (if clr then .failureClear src l code else .failureDeclare src l code) s fun t =>
       t.dev.failBit k l.val code.val = !clr ∧
       Logged s.dev t.dev ((if clr then 0x0430 else 0x0410) + code.val) (ohArg k l.val) ∧
       (t.dev.recr.outbox.drop s.dev.recr.outbox.length).map (fun r => (r.ty, r.at_)) = [(0x03, (s.dev.oh k).evalAt)] ∧
       t = { s with dev := { s.dev with
         regs := t.dev.regs, host := t.dev.host,
         recr := { s.dev.recr with outbox := s.dev.recr.outbox ++ t.dev.recr.outbox.drop s.dev.recr.outbox.length } } } ∧
       RegsKept evRegs [(ohFld k .CH_OH_FAIL_fail, srcIdx k * 8 + l.val), (ohFld k ⟨.CH_OH_EVT, l.val, 1⟩, srcIdx k)]
         s.dev t.dev
     else exec (if clr then .failureClear src l code else .failureDeclare src l code) s = .next s)

/-- On R76–R78: a trail trace, payload type or APS value received alike three times in a row becomes the accepted value,
the first two while the home queue sheds nothing; a changed trail trace raises event 0x0401 and a changed payload
type event 0x0402. Rests in part on the model's own choices and readings, log entry 55. -/
def Obligations.AcceptedValues : Prop :=
  (∀ (src : Src) (l : Lvl) (s : State),
    let k := srcKey src
    let a := Table.get (s.dev.oh k).tti l.val Accept.init
    s.dev.c3Ready k l.val = true → 3 ≤ a.run → Table.find (s.dev.oh k).ttiAcc l.val ≠ some a.last →
    Completes (.ttiAccept src l) s fun t =>
      Table.find (t.dev.oh k).ttiAcc l.val = some a.last ∧ Logged s.dev t.dev 0x0401 (ohArg k l.val)) ∧
  (∀ (src : Src) (s : State),
    let k := srcKey src
    let o := s.dev.oh k
    s.dev.c3Ready k 1 = true → s.dev.isStm k = false → 3 ≤ o.pt.run →
    Table.find o.ohLast 18 ≠ some [o.pt.last.headD 0] →
    Completes (.ptAccept src) s fun t =>
      t.dev.og k .CH_OH_ACC_acc_pt = (o.pt.last.headD 0).toNat ∧ t.dev.og k .CH_OH_ACC_pt_valid = 1 ∧
      Logged s.dev t.dev 0x0402 (ohArg k 1)) ∧
  (∀ (src : Src) (l : Lvl) (s : State),
    let k := srcKey src
    let a := Table.get (s.dev.oh k).aps l.val Accept.init
    s.dev.evaluates k l.val = true → 3 ≤ a.run → Table.find (s.dev.oh k).apsAcc l.val ≠ some a.last →
    Completes (.apsAccept src l) s fun t => Table.find (t.dev.oh k).apsAcc l.val = some a.last)

/-! ### Chapter 05: stride engines -/

/-- On R104–R106, R111: an idle engine takes the oldest eligible task of the queue that its heat may take from: the task
leaves its queue, its source is claimed, and the parts that the shed state of its home queue skips do not run. On
R99, R105, R107–R109: when a part ends the engine goes on with the task's next part, and after the last one it is
idle; P0 that ends after its deadline is counted as a miss of the home heat. A task that has run for more than 16,384
cycles of 0.8 ns is cut off: it leaves its engine idle, is counted against its home heat, and raises event 0x0507;
before that time no task is cut off. Rests in part on the model's own choices and readings, log entries 2, 38 and 59. -/
def Obligations.EngineTasks : Prop :=
  (∀ (e : Engine) (s : State) (q dist i : Nat) (w : Task),
     Table.find s.dev.engines e.val = none → s.dev.takeFrom (e.val / 16) = some (q, dist) →
     s.dev.eligible q = some i → (s.dev.heat q).queue[i]? = some w → s.dev.taskCurrent w = true → w.home < 16 →
     Completes (.taskTake e) s fun t =>
       let shed := s.dev.get .STR_HEAT_STAT_shed_state w.home
       (∃ r, Table.find t.dev.engines e.val = some r ∧ r.task = w ∧ r.dist = dist ∧ r.start = s.dev.dtime ∧
         r.left = w.parts.filter (fun p => !((p == 3 && decide (1 ≤ shed)) || (p == 2 && decide (2 ≤ shed))))) ∧
       (t.dev.heat q).queue = (s.dev.heat q).queue.eraseIdx i ∧ t.dev.claimed w.src = true) ∧
  ((∀ (e : Engine) (s : State) (r : EngineSt) (p : Nat) (rest : List Nat),
     Table.find s.dev.engines e.val = some r → r.left = p :: rest →
     Completes (.taskPartEnd e) s fun t =>
       Table.find t.dev.engines e.val = (if rest.isEmpty then none else some { r with left := rest })) ∧
   (∀ (e : Engine) (s : State) (r : EngineSt) (rest : List Nat),
     Table.find s.dev.engines e.val = some r → r.left = 0 :: rest → r.task.home < 16 →
     deadline r.task 0 < (s.dev.dtime.setWidth 32 - r.task.born.setWidth 32).toNat →
     Completes (.taskPartEnd e) s fun t =>
       t.dev.get .STR_HEAT_MISS_miss0_cnt r.task.home = min (s.dev.get .STR_HEAT_MISS_miss0_cnt r.task.home + 1)
         (2 ^ Fld.STR_HEAT_MISS_miss0_cnt.w - 1) ∧
       t.dev.bit .STR_HEAT_EVT_miss r.task.home = true) ∧
   (∀ (e : Engine) (s : State) (r : EngineSt),
     Table.find s.dev.engines e.val = some r → r.task.home < 16 →
     16384 * 4 < (s.dev.dtime - r.start).toNat * 5 →
     Completes (.taskCutOff e) s fun t =>
       Table.find t.dev.engines e.val = none ∧
       t.dev.get .STR_HEAT_LOST_abort_cnt r.task.home = min (s.dev.get .STR_HEAT_LOST_abort_cnt r.task.home + 1)
         (2 ^ Fld.STR_HEAT_LOST_abort_cnt.w - 1) ∧
       Logged s.dev t.dev 0x0507 (r.task.home + r.task.src * 16)) ∧
   (∀ (e : Engine) (s : State) (r : EngineSt),
     Table.find s.dev.engines e.val = some r → (s.dev.dtime - r.start).toNat * 5 ≤ 16384 * 4 →
     exec (.taskCutOff e) s = .next s))

/-- On R115, R116: STR_EPOCH reads the number of the heat epoch in which DTIME lies, and at a heat epoch boundary every
heat makes the transition that R116 gives from its state, heat_en and stride_fw; a DRAINING heat whose engines are
all idle becomes IDLE and is drained, with event 0x0501. On R110: a write of shed_force stores it, and every queue's
shed state rises at once to the floor that the force and thermal shedding give; no shed state falls. Rests in part on
the model's own choices and readings, log entries 4, 38 and 65. -/
def Obligations.HeatsAndShedding : Prop :=
  ((∀ (s : State),
     Completes .heatEpoch s fun t =>
       t.dev.dtime = s.dev.dtime ∧ t.dev.readWord .STR_EPOCH 0 = BitVec.ofNat 32 (s.dev.now / 250000) ∧
       ∀ h, h < 16 → t.dev.heatState h =
         (match s.dev.heatState h with
           | 1 => if s.dev.heatEn h && s.dev.bit .GLB_READY_FN_stride_fw 0 then 2 else 1
           | 2 => if s.dev.heatEn h then 3 else 1
           | 3 => if s.dev.heatEn h then 4 else 5
           | 4 => if s.dev.heatEn h then 4 else 5
           | x => x)) ∧
   (∀ (h : Heat) (s : State), s.dev.heatState h.val = 5 → s.dev.engines.all (fun e => e.1 / 16 != h.val) = true →
     Completes (.heatDrained h) s fun t =>
       t.dev.heatState h.val = 1 ∧ t.dev.bit .STR_HEAT_STAT_drained h.val = true ∧
       Logged s.dev t.dev 0x0501 (h.val + 256))) ∧
  (∀ (v : BitVec 2) (s : State),
     Completes (.shedForceWrite v) s fun t =>
       let floor := if s.dev.bit .GLB_THERM_STAT_therm 0 || decide (2 ≤ v.toNat) then 2 else v.toNat
       t.dev.get .STR_CTL_shed_force 0 = v.toNat ∧
       (∀ h, h < 16 → t.dev.get .STR_HEAT_STAT_shed_state h = max (s.dev.get .STR_HEAT_STAT_shed_state h) floor) ∧
       t.pool = s.pool ∧ t.dev.heats = s.dev.heats ∧ t.dev.engines = s.dev.engines)

/-! ### Chapter 06: mapping -/

/-- On R136, R151: the adaptation of an ACQUIRING tributary whose server is in order locks at a rate within its kind's
tolerance, and the tributary is LIVE where its LO frame is aligned, with event 0x0604; at a rate outside it, it stays
ACQUIRING and its slip counter advances, with event 0x060B for the first slip of a second. A LIVE tributary whose
server is not in order, or that slips, acquires again, and an ACQUIRING one loses its adaptation lock; one whose
server is in order does not. On R142, R143: a TPN whose kind is inferred from its slots and rate takes the lowest
FREE entry of the server's learn range once its rate has been measured: the entry gets the kind, server and TPN, is
learned, RUN and ACQUIRING; a TPN whose kind cannot be inferred takes none. A learned entry whose TPN has been absent
for learn_free is stopped, and freed once it is STOPPED (R341). While the home queue sheds, before those times, or
while the unit-control engine is busy (R342), nothing is learned or freed. Rests in part on the model's own choices
and readings, log entry 62. -/
def Obligations.TributariesAndLearning : Prop :=
  ((∀ (b : Trib) (ppm : BitVec 16) (s : State),
     s.dev.running .trib b.val = true → s.dev.trState b.val = 2 → s.dev.srvLock b.val = true →
     Completes (.tribLive b ppm) s fun t =>
       t.dev.get .ODU_RATE_rate_ppm b.val = ppm.toNat ∧
       if ppm.toInt < -kindTol (s.dev.kind b.val) ∨ kindTol (s.dev.kind b.val) < ppm.toInt then
         t.dev.trState b.val = 2 ∧
         t.dev.get .ODU_CNT_slip_cnt b.val = min (s.dev.get .ODU_CNT_slip_cnt b.val + 1) (2 ^ Fld.ODU_CNT_slip_cnt.w - 1) ∧
         (s.dev.admits (evKey 0x060B b.val) 1 = true → Logged s.dev t.dev 0x060B b.val)
       else
         t.dev.bit .ODU_STAT_adapt_lock b.val = true ∧
         if (s.dev.trib b.val).inFrame then t.dev.trState b.val = 3 ∧ Logged s.dev t.dev 0x0604 b.val
         else t.dev.trState b.val = 2 ∧ t.dev.host = s.dev.host) ∧
   (∀ (b : Trib) (s : State), s.dev.srvUp b.val = true → exec (.tribReacquire b) s = .next s) ∧
   (∀ (b : Trib) (s : State), s.dev.running .trib b.val = true → s.dev.srvUp b.val = false → s.dev.trState b.val = 3 →
     Completes (.tribReacquire b) s fun t =>
       t.dev.trState b.val = 2 ∧ t.dev.bit .ODU_STAT_adapt_lock b.val = false ∧ t.dev.bit .ODU_STAT_lo_oof b.val = true ∧
       (t.dev.trib b.val).inFrame = false ∧
       t.dev.get .ODU_CNT_acq_cnt b.val = min (s.dev.get .ODU_CNT_acq_cnt b.val + 1) (2 ^ Fld.ODU_CNT_acq_cnt.w - 1) ∧
       (s.dev.admits (evKey 0x0605 b.val) 1 = true → Logged s.dev t.dev 0x0605 b.val)) ∧
   (∀ (b : Trib) (s : State), s.dev.running .trib b.val = true → s.dev.srvUp b.val = false → s.dev.trState b.val = 2 →
     Completes (.tribReacquire b) s fun t =>
       t.dev.trState b.val = 2 ∧ t.dev.bit .ODU_STAT_adapt_lock b.val = false ∧
       OnlyRegs [(.ODU_STAT_adapt_lock, b.val)] s t) ∧
   (∀ (b : Trib) (s : State), s.dev.running .trib b.val = true →
     Completes (.elasticSlip b) s fun t =>
       t.dev.get .ODU_CNT_slip_cnt b.val = min (s.dev.get .ODU_CNT_slip_cnt b.val + 1) (2 ^ Fld.ODU_CNT_slip_cnt.w - 1) ∧
       t.dev.trState b.val = (if s.dev.trState b.val = 3 then 2 else s.dev.trState b.val) ∧
       (s.dev.admits (evKey 0x060B b.val) 1 = true → Logged s.dev t.dev 0x060B b.val))) ∧
  ((∀ (n : Chan) (tpn : Byte) (rate : Nat) (s : State),
     s.dev.isMux n.val = true → s.dev.standby = false → s.dev.bit .SL_SRV_CTL_psi_mode n.val = true →
     s.dev.c3Ready n.val 1 = true → s.dev.measured n.val tpn.toNat = true →
     (s.dev.msiSlots n.val tpn.toNat).isEmpty = false → s.dev.tribOfTpn n.val tpn.toNat = none →
     s.dev.bit .GLB_UC_STAT_uc_busy 0 = false →
     Completes (.learnAllocate n tpn rate) s fun t =>
       match inferKind (s.dev.msiSlots n.val tpn.toNat).length rate (s.dev.isCn n.val), s.dev.learnEntry n.val with
       | some k, some x =>
         t.dev.kind x = k.cls ∧ t.dev.get .ODU_CFG_srv_ch x = n.val ∧ t.dev.get .ODU_CFG_tpn x = tpn.toNat ∧
         t.dev.bit .ODU_STAT_learned x = true ∧ t.dev.running .trib x = true ∧ t.dev.trState x = 2
       | some _, none => t.dev.tribs = s.dev.tribs ∧
         (s.dev.admits (evKey 0x0603 n.val) 1 = true → Logged s.dev t.dev 0x0603 (n.val + 256))
       | none, _ => t.dev.tribs = s.dev.tribs ∧ ∀ x, x < 3072 → t.dev.kind x = s.dev.kind x) ∧
   (∀ (x : Trib) (s : State),
     let n := s.dev.get .ODU_CFG_srv_ch x.val
     s.dev.bit .ODU_STAT_learned x.val = true → s.dev.standby = false → s.dev.absentLong x.val = true →
     s.dev.bit .SL_SRV_STAT_msi_acc n = true → s.dev.atsf (s.dev.carried n) 1 = false → s.dev.c3Ready n 1 = true →
     s.dev.bit .GLB_UC_STAT_uc_busy 0 = false → s.dev.freeing x.val = false → s.dev.stopped .trib x.val = false →
     Completes (.learnFree x) s fun t =>
       t.dev.ust .trib x.val = 1 ∧ t.dev.freeing x.val = true ∧ t.dev.kind x.val = s.dev.kind x.val ∧
       t.dev.trState x.val = min (s.dev.trState x.val) 1) ∧
   (∀ (x : Trib) (s : State),
     s.dev.ust .trib x.val = 1 → s.dev.freeing x.val = true →
     Completes (.unitStopped ⟨.trib, x.val⟩) s fun t =>
       t.dev.kind x.val = 0 ∧ t.dev.stopped .trib x.val = true ∧ t.dev.trState x.val = 0 ∧ t.dev.freeing x.val = false ∧
       t.dev.bit .ODU_STAT_learned x.val = false ∧ t.dev.trib x.val = TribSt.init) ∧
   (∀ (n : Chan) (tpn : Byte) (rate : Nat) (s : State),
     s.dev.c3Ready n.val 1 = false ∨ s.dev.measured n.val tpn.toNat = false ∨ s.dev.bit .GLB_UC_STAT_uc_busy 0 = true → exec (.learnAllocate n tpn rate) s = .next s) ∧
   (∀ (x : Trib) (s : State),
     s.dev.c3Ready (s.dev.get .ODU_CFG_srv_ch x.val) 1 = false ∨ s.dev.absentLong x.val = false ∨
       s.dev.bit .GLB_UC_STAT_uc_busy 0 = true →
     exec (.learnFree x) s = .next s))

/-- On R137, R138: dLOFLOM of a tributary that acquires or is LIVE follows its integrated condition while firmware
evaluates the level. dLOOMFI of an ODU4 multiplex follows the OMFI multiframe once it has been lost, or regained, for
3 ms; the 3 ms, which the rule does not give, are the model's choice (log entry 61). On R139: an MSI identical in
three PSI multiframes is accepted, while the home queue sheds nothing: every slot of the server shows whether it is
occupied and by which TPN. Rests in part on the model's own choices and readings, log entries 15, 55 and 61. -/
def Obligations.MappingDefectsAndMsi : Prop :=
  ((∀ (b : Trib) (clr : Bool) (s : State),
     2 ≤ s.dev.trState b.val → s.dev.evaluates (192 + b.val) 1 = true → s.dev.defectCond (192 + b.val) 1 16 clr = true →
     Completes (if clr then .loflomClear b else .loflomDeclare b) s fun t => t.dev.defBit (192 + b.val) 1 16 = !clr) ∧
   (∀ (n : Chan) (clr : Bool) (s : State),
     s.dev.evaluates n.val 1 = true → s.dev.isMux n.val = true → s.dev.isCn n.val = false →
     (s.dev.server n.val).omfi.isSome = true → (s.dev.server n.val).omfiOut = !clr →
     (s.dev.server n.val).omfiSince + msTicks 3 ≤ s.dev.ticks →
     Completes (if clr then .loomfiClear n else .loomfiDeclare n) s fun t =>
       t.dev.bit .SL_SRV_STAT_loomfi n.val = !clr ∧ t.dev.defBit n.val 1 15 = !clr)) ∧
  (∀ (n : Chan) (s : State),
     let inst := if s.dev.isCn n.val then s.dev.groupSize n.val else 1
     s.dev.isMux n.val = true → s.dev.c3Ready n.val 1 = true → 3 ≤ (s.dev.server n.val).psiRun →
     Completes (.msiAccept n) s fun t =>
       t.dev.bit .SL_SRV_STAT_msi_acc n.val = true ∧
       ∀ b, b < s.dev.srvSlots n.val →
         let e := msiSlot (s.dev.server n.val).psiLast inst b (s.dev.isCn n.val)
         t.dev.bit .SL_MSI_ACC_occupied (n.val * 160 + b) = e.1 ∧
         t.dev.get .SL_MSI_ACC_tpn (n.val * 160 + b) = (if e.1 then e.2 else 0) % 2 ^ Fld.SL_MSI_ACC_tpn.w)

/-- On R145–R147: the FlexE calendar switch: CA is noted while a request is out, the transmit calendar switches once
after CA, the peer's CCC ends the switch with event 0x0608, and 100 ms without CA raise event 0x0609. A peer's CR is
answered, and the group's conditions are reported with event 0x060A on a change, aligned only within the deskew
capacity of 10 µs. On R148: a FlexO group identifier and PHY map received alike three times are accepted by the RUN
FlexO unit, a PID for each of its members. Rests in part on the model's own choices and readings, log entry 63. -/
def Obligations.FlexeAndFlexo : Prop :=
  ((∀ (sl : Slice) (j : Fin 8) (s : State), (s.dev.fx (fxKey sl.val j.val)).crOut.isSome = true →
     Completes (.flexeCaReceived sl j) s fun t =>
       t.dev.fx (fxKey sl.val j.val) = { s.dev.fx (fxKey sl.val j.val) with caIn := true } ∧ t.dev.regs = s.dev.regs) ∧
   (∀ (sl : Slice) (j : Fin 8) (s : State) (c : Bool),
     let x := s.dev.fx (fxKey sl.val j.val)
     x.crOut = some c → x.caIn = true → x.switched = false →
     Completes (.flexeTxCalSwitch sl j) s fun t =>
       t.dev.fx (fxKey sl.val j.val) = { x with txSlots := x.nextSlots, switched := true, cccOut := c } ∧
       t.dev.bit .SL_FLXE_GRP_STAT_cal_act (fxKey sl.val j.val) = c ∧
       RegsKept evRegs [(.SL_FLXE_GRP_STAT_cal_act, fxKey sl.val j.val)] s.dev t.dev) ∧
   (∀ (sl : Slice) (j : Fin 8) (s : State),
     let x := s.dev.fx (fxKey sl.val j.val)
     Completes (.flexeCccReceived sl j) s fun t =>
       (t.dev.fx (fxKey sl.val j.val)).rxCal = !x.rxCal ∧
       (∀ c, x.crOut = some c → x.switched = true → x.want = x.txSlots →
         (t.dev.fx (fxKey sl.val j.val)).crOut = none ∧
         t.dev.bit .SL_FLXE_GRP_STAT_cal_busy (fxKey sl.val j.val) = false ∧
         Logged s.dev t.dev 0x0608 (fxArg (fxKey sl.val j.val) + if c then 256 else 0))) ∧
   (∀ (sl : Slice) (j : Fin 8) (s : State),
     let x := s.dev.fx (fxKey sl.val j.val)
     x.crOut.isSome = true → x.caIn = false →
     if x.crAt + msTicks 100 ≤ s.dev.ticks then
       Completes (.flexeCaTimeout sl j) s fun t =>
         Logged s.dev t.dev 0x0609 (fxArg (fxKey sl.val j.val)) ∧
         t.dev.fx (fxKey sl.val j.val) = { x with crAt := s.dev.ticks } ∧ RegsKept evRegs [] s.dev t.dev
     else exec (.flexeCaTimeout sl j) s = .next s) ∧
   (∀ (sl : Slice) (j : Fin 8) (cal : Bool) (s : State),
     s.dev.bit .SL_FLXE_GRP0_grp_en (fxKey sl.val j.val) = true →
     Completes (.flexeCrReceived sl j cal) s fun t =>
       t.dev.fx (fxKey sl.val j.val) = { s.dev.fx (fxKey sl.val j.val) with caOut := some cal } ∧
       t.dev.regs = s.dev.regs) ∧
   (∀ (sl : Slice) (j : Fin 8) (st : BitVec 6) (skew : BitVec 10) (s : State),
     let k := fxKey sl.val j.val
     let v := if st.getLsbD 0 && decide (1000 < skew.toNat) then st.toNat - 1 else st.toNat
     s.dev.bit .SL_FLXE_GRP0_grp_en k = true →
     Completes (.flexeGroupStatus sl j st skew) s fun t =>
       t.dev.get ⟨.SL_FLXE_GRP_STAT, 0, 6⟩ k = v ∧ t.dev.get .SL_FLXE_GRP_STAT_skew k = skew.toNat ∧
       (s.dev.get ⟨.SL_FLXE_GRP_STAT, 0, 6⟩ k ≠ v → Logged s.dev t.dev 0x060A (fxArg k + v * 256)) ∧
       OnlyRegsAndEvents [(⟨.SL_FLXE_GRP_STAT, 0, 6⟩, k), (.SL_FLXE_GRP_STAT_skew, k)] s t)) ∧
  (∀ (n : Chan) (gid : BitVec 20) (pids : List Byte) (s : State),
     let l := s.dev.leader n.val
     isFlexO (s.dev.mode l) = true → s.dev.lineRun l = true →
     Completes (.flexoIdAccept n gid pids) s fun t =>
       (t.dev.server l).accGid = some gid ∧ (t.dev.server l).accPids = pids.take (s.dev.groupSize l) ∧
       (s.dev.evaluates l 0 = true →
         t.dev.defBit l 0 19 = (gid.toNat != s.dev.get .SL_FLXO_EXP0_exp_gid l) ∧
         t.dev.defBit l 0 20 = (pids.take (s.dev.groupSize l) != s.dev.expPids l)))

/-! ### Chapter 07: timing filters -/

/-- On R157, R160, R163, R179: a valid sample of an unchanged input, formed from its parts as in_sel chooses them, enters
the sprint window, saturated to 24 bits, and counts as one more valid sample; an invalid one takes a context that is
SETTLING or LOCKED to HOLDOVER. On R164, R165: a fine output sample runs the loop once; in fine operation the loop's
word is delivered, and in HOLD the delivered word stays. On R164: the word of the loop never leaves the range of 32
signed bits, and the loop's state wraps at 48 bits. Rests in part on the model's own choices and readings, log
entries 8 and 36. -/
def Obligations.FilterSamples : Prop :=
  ((∀ (c : Ctx) (line cn client arrival : Int) (s : State) (p k : Nat),
     s.dev.ctxState c.val ≠ 0 → s.dev.pdOn (domFilt (ctxArray c.val)) = true →
     s.dev.ctxInput c.val = (some (p, k), false) → (s.dev.ctx c.val).input = some (p, k) →
     (s.dev.ctx c.val).signals = s.dev.inputSignals k →
     s.dev.get .FLT_CTX_STAT_in_class c.val = strobeClass (s.dev.srcFrame k) → s.dev.sampleValid c.val k = true →
     (s.dev.ctx c.val).inputNew = false →
     Completes (.filterInputSample c line cn client arrival) s fun t =>
       let e := s.dev.sampleOf c.val k line cn client arrival
       t.dev.bit .FLT_CTX_STAT_in_valid c.val = true ∧
       (t.dev.ctx c.val).lastE = sat24 e ∧
       (t.dev.ctx c.val).sprint = (sat24 e :: (s.dev.ctx c.val).sprint).take 16 ∧
       (t.dev.ctx c.val).validRun = (s.dev.ctx c.val).validRun + 1) ∧
   (∀ (c : Ctx) (line cn client arrival : Int) (s : State) (p k : Nat),
     (s.dev.ctxState c.val = 1 ∨ s.dev.ctxState c.val = 2) → s.dev.pdOn (domFilt (ctxArray c.val)) = true →
     s.dev.ctxInput c.val = (some (p, k), false) → (s.dev.ctx c.val).input = some (p, k) →
     s.dev.get .FLT_CTX_STAT_in_class c.val = strobeClass (s.dev.srcFrame k) → s.dev.sampleValid c.val k = false →
     (s.dev.ctx c.val).chain.isSome = true →
     Completes (.filterInputSample c line cn client arrival) s fun t =>
       t.dev.ctxState c.val = 3 ∧ t.dev.get .FLT_CTX_STAT_nco_src c.val = 2 ∧
       t.dev.bit .FLT_CTX_STAT_in_valid c.val = false ∧ (t.dev.ctx c.val).validRun = 0)) ∧
  (∀ (c : Ctx) (s : State) (x : Chain) (f : Int),
     (s.dev.ctx c.val).chain = some x → x.out = some f →
     Completes (.filterOutputSample c) s fun t =>
       (t.dev.ctx c.val).chain = some (x.loop f).1 ∧
       (s.dev.get .FLT_CTX_STAT_nco_src c.val = 0 → t.dev.ctxWord c.val = (x.loop f).1.word ∧
         t.dev.get .FLT_CTX_WORD_word c.val = un 32 (x.loop f).1.word) ∧
       (s.dev.get .FLT_CTX_STAT_nco_src c.val = 2 →
         t.dev.ctxWord c.val = s.dev.ctxWord c.val ∧
         t.dev.get .FLT_CTX_WORD_word c.val = s.dev.get .FLT_CTX_WORD_word c.val) ∧
       t.pool = s.pool) ∧
  (∀ (x : Chain) (f : Int),
     -(2 ^ 31) ≤ (x.loop f).1.word ∧ (x.loop f).1.word < 2 ^ 31 ∧
     -(2 ^ 47) ≤ (x.loop f).1.phi ∧ (x.loop f).1.phi < 2 ^ 47 ∧
     -(2 ^ 47) ≤ (x.loop f).1.i ∧ (x.loop f).1.i < 2 ^ 47 ∧
     ((x.loop f).2 = false → (x.loop f).1.word = 256 * x.dcEst + (x.loop f).1.v))

/-- On R170, R171: a context whose chain has settled on valid input becomes LOCKED without a step of its delivered word,
with event 0x0702; after 16 valid samples in HOLDOVER it settles again from the word it holds, with event 0x0701,
cause 2. -/
def Obligations.ContextsSettle : Prop :=
  (∀ (c : Ctx) (s : State) (x : Chain),
    (s.dev.ctx c.val).chain = some x → s.dev.ctxState c.val = 1 → x.settleLeft = 0 →
    s.dev.bit .FLT_CTX_STAT_in_valid c.val = true →
    Completes (.filterSettled c) s fun t =>
      t.dev.ctxState c.val = 2 ∧ t.dev.get .FLT_CTX_STAT_nco_src c.val = 0 ∧
      t.dev.ctxWord c.val = s.dev.ctxWord c.val ∧
      t.dev.word .FLT_CTX_WORD c.val = s.dev.word .FLT_CTX_WORD c.val ∧
      (t.dev.ctx c.val).chain = some (x.handOver (s.dev.ctxWord c.val)) ∧ Logged s.dev t.dev 0x0702 c.val) ∧
  (∀ (c : Ctx) (s : State), s.dev.ctxState c.val = 3 → 16 ≤ (s.dev.ctx c.val).validRun →
    Completes (.holdoverExit c) s fun t =>
      t.dev.ctxState c.val = 1 ∧ t.dev.get .FLT_CTX_STAT_nco_src c.val = s.dev.settleSrc c.val ∧
      t.dev.ctxWord c.val = s.dev.ctxWord c.val ∧
      t.dev.word .FLT_CTX_WORD c.val = s.dev.word .FLT_CTX_WORD c.val ∧
      Logged s.dev t.dev 0x0701 (c.val + 2 * 4096))

/-- On R172–R174: a sync command waits for the next tick, or, with out_en, starts the FSYNC_OUT pulse; the pulse ends; an
edge on FSYNC_IN is accepted unless one was accepted within 250 ticks; a sync reset that is the only one due clears
it, notes DTIME, and sends every context of its groups that is SETTLING or LOCKED to SETTLING. On R176–R178: a primed
shadow starts its fade, and at the 64th fade sample becomes the running chain; a bank flips its pages unless its
inactive page is in use. Rests in part on the model's own choices and readings, log entries 13, 36, 67 and 68. -/
def Obligations.SyncSwapsAndBanks : Prop :=
  ((∀ (grps : BitVec 8) (s : State),
     Completes (.syncCommand grps) s fun t =>
       t.dev.bit .FLT_SYNC_CMD_busy 0 = true ∧
       (if s.dev.bit .FLT_SYNC_CTL_out_en 0 then t.dev.sync = { s.dev.sync with outEnd := some (s.dev.ticks + 17) }
         else t.dev.sync = { s.dev.sync with due := s.dev.sync.due ++ [(s.dev.ticks + 1, grps, false)] }) ∧
       RegsKept [] [(.FLT_SYNC_CMD_busy, 0)] s.dev t.dev) ∧
   (∀ (s : State),
     Completes .fsyncOutEnd s fun t =>
       t.dev.sync = { s.dev.sync with outEnd := none } ∧
       t.dev.bit .FLT_SYNC_CMD_busy 0 = s.dev.sync.due.any (fun e => !e.2.2) ∧
       RegsKept [] [(.FLT_SYNC_CMD_busy, 0)] s.dev t.dev) ∧
   (∀ (s : State),
     Completes .fsyncInEdge s fun t =>
       if s.dev.sync.lastEdge.any (fun e => decide (s.dev.ticks < e + 250)) then t = s
       else
         t = { s with dev := { s.dev with sync := { s.dev.sync with
           lastEdge := some s.dev.ticks
           due := s.dev.sync.due ++ [(s.dev.ticks + s.dev.get .FLT_SYNC_CTL_in_dly 0,
             BitVec.ofNat 8 (s.dev.get .FLT_SYNC_CTL_pin_grps 0), true)] } } }) ∧
   (∀ (s : State) (at_ : Nat) (grps : BitVec 8) (pin : Bool), s.dev.sync.due = [(at_, grps, pin)] →
     Completes .syncReset s fun t =>
       t.dev.sync.due = [] ∧ t.dev.get .FLT_SYNC_LAST_dtime 0 = s.dev.now % 2 ^ Fld.FLT_SYNC_LAST_dtime.w ∧
       ∀ c, c < 768 → (s.dev.ctx c).chain.isSome = true → (s.dev.ctxState c = 1 ∨ s.dev.ctxState c = 2) →
         s.dev.bit .FLT_CTX_CTL_sync_en c = true → grps.getLsbD (s.dev.get .FLT_CTX_CTL_sync_grp c) = true →
         t.dev.ctxState c = 1)) ∧
  ((∀ (c : Ctx) (s : State) (x : Chain),
     (s.dev.ctx c.val).shadow = some x → s.dev.get .FLT_CTX_STAT_swap_state c.val = 2 → x.settleLeft = 0 →
     Completes (.swapFadeStart c) s fun t =>
       t.dev.get .FLT_CTX_STAT_swap_state c.val = 3 ∧ t.dev.get .FLT_CTX_STAT_nco_src c.val = 3 ∧
       t.dev.ctx c.val = { s.dev.ctx c.val with fadeI := 0 } ∧ t.dev.host = s.dev.host) ∧
   (∀ (c : Ctx) (s : State) (x : Chain),
     (s.dev.ctx c.val).shadow = some x → s.dev.get .FLT_CTX_STAT_swap_state c.val = 3 → (s.dev.ctx c.val).fadeI = 64 →
     s.dev.bit .FLT_CTX_STAT_pending c.val = false →
     Completes (.swapComplete c) s fun t =>
       (t.dev.ctx c.val).chain = some x ∧ (t.dev.ctx c.val).shadow = none ∧
       t.dev.get .FLT_CTX_STAT_swap_state c.val = 0 ∧ t.dev.get .FLT_CTX_STAT_nco_src c.val = 0 ∧
       t.dev.bit .FLT_CTX_EVT_swap_done c.val = true) ∧
   (∀ (b : Fin 16) (s : State),
     Completes (.bankFlip (BitVec.ofNat 16 (2 ^ b.val))) s fun t =>
       if (s.dev.get .FLT_BANK_BUSY_busy 0).testBit b.val then t = s
       else t.dev.get .FLT_BANK_FLIP_page 0 = s.dev.get .FLT_BANK_FLIP_page 0 ^^^ 2 ^ b.val) ∧
   (∀ (mask : BitVec 16) (b : Nat) (s : State), mask.getLsbD b = false →
     Completes (.bankFlip mask) s fun t =>
       (t.dev.get .FLT_BANK_FLIP_page 0).testBit b = (s.dev.get .FLT_BANK_FLIP_page 0).testBit b))

/-! ### Chapter 08: cell pool and queues -/

/-- On R188, R189, R191, R193, R206: a push below quota with a free cell for the next spare writes its data as one cell;
at quota a STALL push waits with its data. A waiting push that finds room proceeds. The host port's PUSH writes its
112 data words as one cell, and its port is free again. On R193, R194: a STREAM push that finds its queue exactly at
quota succeeds by force-releasing the cell at rel: rel moves by one, forced_cnt counts it, occupancy stays at quota,
and a mark at that cell is lost with cause 0; a reader that stood at rel is moved up to it, counted as an overrun.
Rests in part on the model's own choices and readings, log entries 27, 28 and 71. -/
def Obligations.Pushes : Prop :=
  ((∀ (q : Queue) (data : List Byte) (s : State) (c n : Nat) (p : Pool),
     s.dev.running .queue q.val = true → s.dev.qOcc q.val < s.dev.get .CPL_Q_QUOTA_quota q.val →
     (s.pool.queue q.val).spare = some c → s.pool.alloc = some (n, p) →
     Completes (.push q data) s fun t =>
       Pushed q.val data c n s t ∧
       RegsKept evRegs ([wholeWord .CPL_Q_WR q.val, (.CPL_POOL_FREE_free, 0)] ++ queueFields q.val) s.dev t.dev) ∧
   (∀ (q : Queue) (data : List Byte) (s : State),
     s.dev.qStream q.val = false → s.dev.get .CPL_Q_QUOTA_quota q.val ≤ s.dev.qOcc q.val →
     Completes (.push q data) s fun t =>
       (t.pool.queue q.val).waiting = some data ∧ t.dev.bit .CPL_Q_STAT_prod_wait q.val = true ∧
       (t.pool.queue q.val).cells = (s.pool.queue q.val).cells ∧ t.pool.mem = s.pool.mem ∧
       RegsKept [] [(.CPL_Q_STAT_prod_wait, q.val)] s.dev t.dev) ∧
   (∀ (q : Queue) (data : List Byte) (s : State) (c n : Nat) (p : Pool),
     (s.pool.queue q.val).waiting = some data → s.dev.qStream q.val = false →
     s.dev.running .queue q.val = true → s.dev.qOcc q.val < s.dev.get .CPL_Q_QUOTA_quota q.val →
     (s.pool.queue q.val).spare = some c → s.pool.alloc = some (n, p) →
     Completes (.stallPushProceed q) s fun t =>
       Pushed q.val data c n s t ∧ (t.pool.queue q.val).waiting = none ∧
       t.dev.bit .CPL_Q_STAT_prod_wait q.val = false) ∧
   (∀ (q : Queue) (s : State) (c n : Nat) (p : Pool),
     s.dev.hostOpOk q.val = true → s.dev.bit .CPL_Q_STAT_prod_wait q.val = false →
     s.dev.qOcc q.val < s.dev.get .CPL_Q_QUOTA_quota q.val →
     (s.pool.queue q.val).spare = some c → s.pool.alloc = some (n, p) →
     Completes (.hostPush q) s fun t =>
       Pushed q.val ((List.range 112).flatMap (fun w => leBytes 4 (s.dev.get .CPL_HOST_DATA_data w))) c n s t ∧
       t.dev.bit .CPL_HOST_OP_busy 0 = false)) ∧
  (∀ (q : Queue) (data : List Byte) (s : State) (c : Nat),
     s.dev.running .queue q.val = true → s.dev.qStream q.val = true →
     s.dev.qOcc q.val = s.dev.get .CPL_Q_QUOTA_quota q.val → 0 < s.dev.qOcc q.val →
     (s.pool.queue q.val).spare = some c → s.pool.alloc.isSome = true →
     Completes (.push q data) s fun t =>
       t.dev.qRel q.val = s.dev.qRel q.val + 1 ∧ t.dev.qWr q.val = s.dev.qWr q.val + 1 ∧
       t.dev.qRd q.val = (if s.dev.qRdOff q.val = 0 then s.dev.qRel q.val + 1 else s.dev.qRd q.val) ∧
       (t.pool.queue q.val).cells = (s.pool.queue q.val).cells.drop 1 ++ [c] ∧
       t.dev.get .CPL_Q_CNT_A_forced_cnt q.val =
         min (s.dev.get .CPL_Q_CNT_A_forced_cnt q.val + 1) (2 ^ Fld.CPL_Q_CNT_A_forced_cnt.w - 1) ∧
       t.dev.get .CPL_Q_CNT_B_overrun_cnt q.val = (if s.dev.qRdOff q.val = 0 then
         min (s.dev.get .CPL_Q_CNT_B_overrun_cnt q.val + 1) (2 ^ Fld.CPL_Q_CNT_B_overrun_cnt.w - 1)
         else s.dev.get .CPL_Q_CNT_B_overrun_cnt q.val) ∧
       (s.dev.bit .CPL_Q_STAT_mark_valid q.val = true →
         (t.dev.bit .CPL_Q_STAT_mark_valid q.val = true ↔ s.dev.qMarkOff q.val ≠ 0) ∧
         (s.dev.qMarkOff q.val = 0 → t.dev.get .CPL_Q_STAT_mark_cause q.val = 0)) ∧
       t.pool.data c = (List.range 448).map (byteAt data))

/-- On R191, R200–R202, R206, R222: a pop reads the cell at rd and moves rd, freeing nothing; words it cannot correct
poison the cell; on an empty queue the consumer stalls. The reader of a DELAY queue that has read 8 cells beyond the
frame it delivers reads no further, and otherwise notes which cell it read and whether it was poisoned. A header that
cannot be trusted, or a cell of a lost site, empties the queue: rel, rd and mark go to wr, the mark is lost, the
cells before the fault are free again and the others stranded. A stalled consumer resumes; the host port's POP puts
the cell into its data words, and CANCEL ends what it waits for. Rests in part on the model's own choices and
readings, log entry 70. -/
def Obligations.PopsReadCells : Prop :=
  (∀ (q : Queue) (r : CellRead) (s : State),
    s.dev.running .queue q.val = true → s.dev.qDepth q.val ≠ 0 → r.hdrFault = false →
    s.pool.hole (s.qNext q.val) = false → (∀ g, s.dev.delayGroup q.val = some g → s.dev.readAhead g q.val = false) →
    Completes (.pop q r) s fun t =>
      t.dev.qRd q.val = s.dev.qRd q.val + 1 ∧ t.dev.qRel q.val = s.dev.qRel q.val ∧ t.dev.qWr q.val = s.dev.qWr q.val ∧
      t.dev.bit .CPL_Q_STAT_cons_wait q.val = false ∧
      t.pool.queues = s.pool.queues ∧ t.pool.mem = s.pool.mem ∧
      (t.pool.hdr (s.qNext q.val)).poison = ((s.pool.hdr (s.qNext q.val)).poison || !r.uncorr.isEmpty) ∧
      ∀ g c, s.dev.delayGroup q.val = some g → (s.dev.group g).cellNo (s.dev.qRd q.val) = some c →
        t.dev.group g = (s.dev.group g).readCell c (t.pool.hdr (s.qNext q.val)).poison
          (s.dev.bit .PRT_ALN_STAT_seated g)) ∧
  (∀ (q : Queue) (r : CellRead) (s : State) (g : Nat),
    s.dev.delayGroup q.val = some g → s.dev.readAhead g q.val = true → Completes (.pop q r) s fun t => t = s) ∧
  (∀ (q : Queue) (r : CellRead) (s : State), s.dev.running .queue q.val = true → s.dev.qDepth q.val = 0 →
    (∀ g, s.dev.delayGroup q.val = some g → s.dev.readAhead g q.val = false) →
    Completes (.pop q r) s fun t =>
      t.dev.bit .CPL_Q_STAT_cons_wait q.val = true ∧ OnlyRegs [(.CPL_Q_STAT_cons_wait, q.val)] s t) ∧
  (∀ (q : Queue) (r : CellRead) (s : State),
    s.dev.running .queue q.val = true → s.dev.qDepth q.val ≠ 0 →
    (r.hdrFault = true ∨ s.pool.hole (s.qNext q.val) = true) → (∀ g, s.dev.delayGroup q.val = some g → s.dev.readAhead g q.val = false) →
    Completes (.pop q r) s fun t =>
      let off := s.dev.qRdOff q.val
      t.dev.qRel q.val = s.dev.qWr q.val ∧ t.dev.qRd q.val = s.dev.qWr q.val ∧
      t.dev.qMark q.val = s.dev.qWr q.val ∧ t.dev.qWr q.val = s.dev.qWr q.val ∧
      t.dev.get .CPL_Q_OCC_occ q.val = 0 ∧ t.dev.bit .CPL_Q_STAT_mark_valid q.val = false ∧
      t.dev.get .CPL_Q_STAT_mark_cause q.val = 2 ∧ t.dev.bit .CPL_Q_EVT_chain_fault q.val = true ∧
      (t.pool.queue q.val).cells = [] ∧
      t.pool.stranded = s.pool.stranded ++ (s.pool.queue q.val).cells.drop off ∧
      (∀ c ∈ (s.pool.queue q.val).cells.take off, s.pool.hole c = false →
        (t.pool.site (ptrSite c)).free.contains (ptrIdx c) = true) ∧
      t.dev.get .CPL_POOL_FREE_free 0 = (s.dev.get .CPL_POOL_FREE_free 0 +
        (s.pool.liveOf ((s.pool.queue q.val).cells.take off)).length) % 2 ^ Fld.CPL_POOL_FREE_free.w) ∧
  (∀ (q : Queue) (r : CellRead) (s : State),
    s.dev.bit .CPL_Q_STAT_cons_wait q.val = true → s.dev.running .queue q.val = true → s.dev.qDepth q.val ≠ 0 →
    r.hdrFault = false → s.pool.hole (s.qNext q.val) = false →
    (∀ g, s.dev.delayGroup q.val = some g → s.dev.readAhead g q.val = false) →
    Completes (.popResume q r) s fun t =>
      t.dev.qRd q.val = s.dev.qRd q.val + 1 ∧ t.dev.bit .CPL_Q_STAT_cons_wait q.val = false ∧
      t.pool.mem = s.pool.mem) ∧
  (∀ (q : Queue) (r : CellRead) (s : State),
    s.dev.hostOpOk q.val = true → s.dev.qDepth q.val ≠ 0 → r.hdrFault = false →
    s.pool.hole (s.qNext q.val) = false →
    Completes (.hostPop q r) s fun t =>
      t.dev.qRd q.val = s.dev.qRd q.val + 1 ∧ t.dev.bit .CPL_HOST_OP_busy 0 = false ∧
      (∀ w, w < 112 → t.dev.get .CPL_HOST_DATA_data w = leField (s.pool.data (s.qNext q.val)) (4 * w) 4) ∧
      (r.uncorr ≠ [] → t.dev.bit .CPL_HOST_OP_poison 0 = true) ∧ t.pool.mem = s.pool.mem) ∧
  (∀ (s : State), s.dev.bit .CPL_HOST_OP_busy 0 = true →
    Completes .hostCancel s fun t =>
      let i := s.dev.host.opQueue
      t.dev.bit .CPL_HOST_OP_busy 0 = false ∧ (t.pool.queue i).waiting = none ∧
      (t.pool.queue i).cells = (s.pool.queue i).cells ∧ t.pool.mem = s.pool.mem ∧
      RegsKept [] [(.CPL_HOST_OP_busy, 0), (.CPL_Q_STAT_prod_wait, i), (.CPL_Q_STAT_cons_wait, i)] s.dev t.dev)

/-- On R191, R192: MARK, MARK_AT, REWIND and RELEASE_TO do what the table of R191 gives them, MARK_AT outside rel to wr
and REWIND without a valid mark being refused with cmd_err; lagged release never moves rel backwards and never passes
a valid mark. No byte of the pool changes. On R189: every command on a queue keeps, in every queue, the order rel ≤
rd ≤ wr, with a valid mark between rel and wr. Rests in part on the model's own choices and readings, log entry 69. -/
def Obligations.QueueControlOperations : Prop :=
  (∀ (q : Queue) (s : State),
    Completes (.mark q) s fun t =>
      t.dev.qMark q.val = s.dev.qRd q.val ∧ t.dev.bit .CPL_Q_STAT_mark_valid q.val = true ∧
      OnlyRegs [wholeWord .CPL_Q_MARK q.val, (.CPL_Q_STAT_mark_valid, q.val)] s t) ∧
  (∀ (q : Queue) (p : Word) (s : State),
    Completes (.markAt q p) s fun t =>
      if (p - s.dev.qRel q.val).toNat ≤ (s.dev.qWr q.val - s.dev.qRel q.val).toNat then
        t.dev.qMark q.val = p ∧ t.dev.bit .CPL_Q_STAT_mark_valid q.val = true ∧
        OnlyRegs [wholeWord .CPL_Q_MARK q.val, (.CPL_Q_STAT_mark_valid, q.val)] s t
      else t.dev.bit .CPL_Q_EVT_cmd_err q.val = true ∧ OnlyRegs [(.CPL_Q_EVT_cmd_err, q.val)] s t) ∧
  (∀ (q : Queue) (s : State),
    Completes (.rewind q) s fun t =>
      if s.dev.bit .CPL_Q_STAT_mark_valid q.val then
        t.dev.qRd q.val = s.dev.qMark q.val ∧ OnlyRegs [wholeWord .CPL_Q_RD q.val] s t
      else t.dev.bit .CPL_Q_EVT_cmd_err q.val = true ∧ OnlyRegs [(.CPL_Q_EVT_cmd_err, q.val)] s t) ∧
  (∀ (q : Queue) (p : Word) (s : State), (p - s.dev.qRel q.val).toNat < 2 ^ 31 →
    Completes (.releaseTo q p) s fun t =>
      let n := min (p - s.dev.qRel q.val).toNat (s.dev.qRdOff q.val)
      t.dev.qRel q.val = s.dev.qRel q.val + BitVec.ofNat 32 n ∧ t.dev.qRd q.val = s.dev.qRd q.val ∧
      t.dev.qWr q.val = s.dev.qWr q.val ∧ t.dev.qMark q.val = s.dev.qMark q.val ∧
      (t.pool.queue q.val).cells = (s.pool.queue q.val).cells.drop n ∧
      (s.dev.bit .CPL_Q_STAT_mark_valid q.val = true → s.dev.qMarkOff q.val < n →
        t.dev.bit .CPL_Q_STAT_mark_valid q.val = false ∧ t.dev.get .CPL_Q_STAT_mark_cause q.val = 1) ∧
      t.pool.mem = s.pool.mem) ∧
  (∀ (q : Queue) (s : State), s.dev.bit .CPL_Q_CFG_release_mode q.val = true →
    Completes (.laggedRelease q) s fun t =>
      let m := s.dev.qRdOff q.val - s.dev.get .CPL_Q_LAG_lag q.val
      let n := if s.dev.bit .CPL_Q_STAT_mark_valid q.val then min m (s.dev.qMarkOff q.val) else m
      t.dev.qRel q.val = s.dev.qRel q.val + BitVec.ofNat 32 n ∧
        (t.pool.queue q.val).cells = (s.pool.queue q.val).cells.drop n ∧
        t.dev.qRd q.val = s.dev.qRd q.val ∧ t.dev.qWr q.val = s.dev.qWr q.val ∧ t.dev.qMark q.val = s.dev.qMark q.val ∧
        t.dev.bit .CPL_Q_STAT_mark_valid q.val = s.dev.bit .CPL_Q_STAT_mark_valid q.val ∧ t.pool.mem = s.pool.mem) ∧
  (∀ (q : Queue) (data : List Byte) (r : CellRead) (p : Word) (faults : List (Queue × Nat)) (i : Nat) (c : Instr) (s : State),
    c ∈ [.push q data, .pop q r, .popResume q r, .mark q, .markAt q p, .rewind q, .releaseTo q p, .laggedRelease q,
      .stallPushProceed q, .hostPush q, .hostPop q r, .hostCancel, .poolRebuild, .poolRebuildDone faults] →
    i < 4096 → s.dev.qOrdered i → Completes c s fun t => t.dev.qOrdered i)

/-- On R205: a BAR2 read returns the stored bytes and zeros in holes, and changes no byte; words it cannot correct poison
the cell they belong to. A BAR2 write stores the data bytes of cells that exist and nothing else; a word that it
writes in part is read first, and one it cannot correct poisons its cell. An access that the endpoint does not take
is Unsupported and changes nothing. On R202: a rebuild with every queue STOPPED takes the pool out of service and,
when it ends, empties a queue whose list has a bad header, gives the stranded cells back and puts it into service. On
R203, R279: scrubbing a cell counts what was corrected and moves on to the next cell; where the cell was written
meanwhile the write-backs are dropped and counted. Rests in part on the model's own choices and readings, log entries
27, 29, 70 and 102. -/
def Obligations.PoolWindowAndUpkeep : Prop :=
  (∀ (off : BitVec 30) (len : Nat) (reads : List CellRead) (s : State),
    s.dev.sys.held = false → s.dev.takesMem len = true → s.dev.hostStuck = false →
    Completes (.bar2Read off len reads) s fun t =>
      t.dev.host.bar2Data = (List.range len).map (fun j =>
        let a := s.dev.bar2Addr (off.toNat + j)
        if s.pool.hole (a / 512) then 0 else s.pool.cellByte (a / 512) (a % 512)) ∧
      t.dev.host.completion = .successful ∧ t.pool.mem = s.pool.mem ∧ t.pool.queues = s.pool.queues ∧
      (reads = [] → t.pool = s.pool) ∧
      (∀ r, reads = [r] → 0 < len → s.dev.bar2Addr off.toNat % 512 + len ≤ 512 →
        s.pool.hole (s.dev.bar2Addr off.toNat / 512) = false →
        let a := s.dev.bar2Addr off.toNat
        (t.pool.hdr (a / 512)).poison =
          ((s.pool.hdr (a / 512)).poison || !(wordsTouched a (a + len) (a / 512) r.uncorr).isEmpty)) ∧
      RegsKept (evRegs ++ [.CPL_SITE_CE, .CPL_SITE_UE, .CPL_Q_EVT])
        [(.CPL_BAR2_STAT_hole, 0), (.CPL_BAR2_STAT_poison, 0), (.MTX_CNT_B_down_cnt, 0), (.MTX_EVT_down, 0)] s.dev t.dev) ∧
  (∀ (off : BitVec 30) (data : List Byte) (reads : List CellRead) (s : State),
    s.dev.sys.held = false → s.dev.takesMem data.length = true → s.dev.hostStuck = false → Safe s →
    Completes (.bar2Write off data reads) s fun t =>
      (∀ j, j < data.length →
        let a := s.dev.bar2Addr (off.toNat + j)
        s.pool.hole (a / 512) = false → a % 512 < 448 → memRead t.pool.mem a = byteAt data j) ∧
      (∀ a, (∀ j, j < data.length → s.dev.bar2Addr (off.toNat + j) = a → s.pool.hole (a / 512) = true ∨ 448 ≤ a % 512) →
        memRead t.pool.mem a = memRead s.pool.mem a) ∧
      t.pool.queues = s.pool.queues ∧ t.dev.host.completion = .successful ∧
      (reads = [] → t.pool = { s.pool with mem := t.pool.mem }) ∧
      (∀ r, reads = [r] → 0 < data.length → s.dev.bar2Addr off.toNat % 512 + data.length ≤ 512 →
        s.pool.hole (s.dev.bar2Addr off.toNat / 512) = false →
        let a := s.dev.bar2Addr off.toNat
        (t.pool.hdr (a / 512)).poison =
          ((s.pool.hdr (a / 512)).poison || !(wordsInPart a (a + data.length) (a / 512) r.uncorr).isEmpty)) ∧
      RegsKept (evRegs ++ [.CPL_SITE_CE, .CPL_SITE_UE, .CPL_Q_EVT])
        [(.CPL_BAR2_STAT_hole, 0), (.MTX_CNT_B_down_cnt, 0), (.MTX_EVT_down, 0)] s.dev t.dev) ∧
  (∀ (off : BitVec 30) (len : Nat) (data : List Byte) (reads : List CellRead) (s : State), s.dev.sys.held = false →
    let u := { s with dev := { s.dev with host := { s.dev.host with completion := .unsupported } } }
    (s.dev.takesMem len = false → exec (.bar2Read off len reads) s = .next u) ∧
    (s.dev.takesMem data.length = false → exec (.bar2Write off data reads) s = .next u)) ∧
  (∀ (s : State), s.dev.queuesStopped = true → s.dev.bit .CPL_POOL_STAT_rebuild_busy 0 = false →
    Completes .poolRebuild s fun t =>
      t.dev.bit .CPL_POOL_STAT_pool_ready 0 = false ∧ t.dev.bit .CPL_POOL_STAT_rebuild_busy 0 = true ∧
      t.dev.bit ⟨.GLB_READY_FN, 7, 1⟩ 0 = false ∧ t.pool = s.pool) ∧
  (∀ (faults : List (Queue × Nat)) (s : State), s.dev.bit .CPL_POOL_STAT_rebuild_busy 0 = true →
    Completes (.poolRebuildDone faults) s fun t =>
      t.dev.bit .CPL_POOL_STAT_pool_ready 0 = true ∧ t.dev.bit .CPL_POOL_STAT_rebuild_busy 0 = false ∧
      t.dev.bit ⟨.GLB_READY_FN, 7, 1⟩ 0 = true ∧ t.dev.get .CPL_POOL_STRAND_strand 0 = 0 ∧ t.pool.stranded = [] ∧
      t.pool.mem = s.pool.mem ∧
      ∀ e ∈ faults, e.2 < (s.pool.queue e.1.val).cells.length →
        (t.pool.queue e.1.val).cells = [] ∧ t.dev.qRel e.1.val = s.dev.qWr e.1.val ∧ t.dev.qRd e.1.val = s.dev.qWr e.1.val) ∧
  (∀ (r : CellRead) (raced : Bool) (s : State) (k i : Nat),
    s.dev.get .CHK_SCRUB_CTL_scrub_rate 0 ≠ 0 → s.dev.scanOn = true →
    s.dev.bit .CPL_POOL_STAT_rebuild_busy 0 = false →
    (s.pool.scrubNext s.dev.check.scrubSite s.dev.check.scrubIdx).1 = some (k, i) → i < 2 ^ 25 →
    Completes (.scrubCell r raced) s fun t =>
      t.dev.get .CHK_SCRUB_CNT_wb_cnt 0 = (if raced then s.dev.get .CHK_SCRUB_CNT_wb_cnt 0 else
        min (s.dev.get .CHK_SCRUB_CNT_wb_cnt 0 + r.corrected) (2 ^ Fld.CHK_SCRUB_CNT_wb_cnt.w - 1)) ∧
      (raced = true → r.uncorr = [] → t.dev.get .CHK_SCRUB_CNT_wb_drop 0 =
        min (s.dev.get .CHK_SCRUB_CNT_wb_drop 0 + r.corrected) (2 ^ Fld.CHK_SCRUB_CNT_wb_drop.w - 1)) ∧
      (t.dev.check.scrubSite, t.dev.check.scrubIdx) = (s.pool.scrubNext (k + 1) i).1.getD (0, 0) ∧
      (r.uncorr = [] ∨ raced = true → t.pool.mem = s.pool.mem) ∧
      (raced = false → r.uncorr ≠ [] → s.pool.isFree (k * 2 ^ 25 + i) = true →
        t.dev.get (.CPL_SITE_UE_ue_cnt) k = min (s.dev.get .CPL_SITE_UE_ue_cnt k + r.uncorr.length)
          (2 ^ Fld.CPL_SITE_UE_ue_cnt.w - 1)))

/-! ### Chapter 09: protection and hitless alignment -/

/-- On R214, R215: LO, FS, MS and EXER that are accepted put the command in force and give the local request its code; LO
wants the working signal, FS and MS the signal they name, EXER the one selected. A command to a group that is not
RUN, of a signal above n, or under a higher request is refused, with cmd_refused and event 0x0908, and has no other
effect; so is FS of signal 0. On R215: CLEAR removes the command in force and ends a running WTR; FREEZE and
CLEAR_FREEZE set and clear the frozen bit, and after CLEAR_FREEZE the group decides again; without a FREEZE,
CLEAR_FREEZE is refused. Rests in part on the model's own choices and readings, log entries 15 and 74. -/
def Obligations.CommandsOfAGroup : Prop :=
  ((∀ (g : Group) (s : State),
     s.dev.running .pgroup g.val = true → s.dev.standby = false →
     Completes (.lockoutOfProtection g) s fun t =>
       (t.dev.group g.val).cmd = 2 ∧ t.dev.get .PRT_GRP_STAT_req_local g.val = 0xF ∧ (t.dev.group g.val).want = 0 ∧
       t.pool = s.pool) ∧
   (∀ (g : Group) (sig : BitVec 4) (s : State),
     s.dev.running .pgroup g.val = true → s.dev.standby = false → sig ≠ 0 →
     sig.toNat ≤ s.dev.get .PRT_GRP_CFG_n g.val → s.dev.topReq g.val ≤ 0xD →
     (s.dev.group g.val).condition.1 < 0xD → s.dev.bidir g.val = false →
     Completes (.forcedSwitch g sig) s fun t =>
       (t.dev.group g.val).cmd = 3 ∧ (t.dev.group g.val).cmdSig = sig.toNat ∧
       t.dev.get .PRT_GRP_STAT_req_local g.val = 0xD ∧ (t.dev.group g.val).want = sig.toNat) ∧
   (∀ (g : Group) (sig : BitVec 4) (s : State),
     s.dev.running .pgroup g.val = true → s.dev.standby = false →
     sig.toNat ≤ s.dev.get .PRT_GRP_CFG_n g.val → s.dev.topReq g.val ≤ 0x7 →
     (s.dev.group g.val).condition.1 = 0 → s.dev.bidir g.val = false →
     Completes (.manualSwitch g sig) s fun t =>
       (t.dev.group g.val).cmd = 4 ∧ (t.dev.group g.val).cmdSig = sig.toNat ∧
       t.dev.get .PRT_GRP_STAT_req_local g.val = 0x7 ∧ (t.dev.group g.val).want = sig.toNat) ∧
   (∀ (g : Group) (sig : BitVec 4) (s : State),
     s.dev.running .pgroup g.val = true → s.dev.standby = false →
     sig.toNat ≤ s.dev.get .PRT_GRP_CFG_n g.val → s.dev.topReq g.val ≤ 0x4 →
     (s.dev.group g.val).condition.1 = 0 → (s.dev.group g.val).wtrAt = none → s.dev.bidir g.val = false →
     Completes (.exercise g sig) s fun t =>
       (t.dev.group g.val).cmd = 5 ∧ t.dev.get .PRT_GRP_STAT_req_local g.val = 0x4 ∧
       (t.dev.group g.val).want = s.dev.get .PRT_GRP_STAT_sel_sig g.val) ∧
   (∀ (g : Group) (sig : BitVec 4) (s : State),
     s.dev.standby = false →
     (s.dev.running .pgroup g.val = false →
       exec (.clear g) s = .next (s.refusedCmd g.val 1) ∧ exec (.lockoutOfProtection g) s = .next (s.refusedCmd g.val 2) ∧
       exec (.forcedSwitch g sig) s = .next (s.refusedCmd g.val 3) ∧
       exec (.manualSwitch g sig) s = .next (s.refusedCmd g.val 4) ∧
       exec (.exercise g sig) s = .next (s.refusedCmd g.val 5) ∧ exec (.freeze g) s = .next (s.refusedCmd g.val 6) ∧
       exec (.clearFreeze g) s = .next (s.refusedCmd g.val 7)) ∧
     (s.dev.get .PRT_GRP_CFG_n g.val < sig.toNat →
       exec (.forcedSwitch g sig) s = .next (s.refusedCmd g.val 3) ∧ exec (.manualSwitch g sig) s = .next (s.refusedCmd g.val 4) ∧
       exec (.exercise g sig) s = .next (s.refusedCmd g.val 5)) ∧
     exec (.forcedSwitch g 0) s = .next (s.refusedCmd g.val 3) ∧
     (0xD < s.dev.topReq g.val → exec (.forcedSwitch g sig) s = .next (s.refusedCmd g.val 3)) ∧
     (0x7 < s.dev.topReq g.val → exec (.manualSwitch g sig) s = .next (s.refusedCmd g.val 4)) ∧
     (0x4 < s.dev.topReq g.val → exec (.exercise g sig) s = .next (s.refusedCmd g.val 5)))) ∧
  ((∀ (g : Group) (s : State), s.dev.running .pgroup g.val = true → s.dev.standby = false →
     Completes (.clear g) s fun t =>
       (t.dev.group g.val).cmd = 0 ∧ (t.dev.group g.val).cmdSig = 0 ∧
       ((s.dev.group g.val).wtrAt.isSome = true → (t.dev.group g.val).wtrAt = none) ∧
       t.dev.get .PRT_GRP_STAT_sel_sig g.val = s.dev.get .PRT_GRP_STAT_sel_sig g.val) ∧
   (∀ (g : Group) (s : State), s.dev.running .pgroup g.val = true → s.dev.standby = false →
     Completes (.freeze g) s fun t =>
       t.dev.bit .PRT_GRP_STAT_frozen g.val = true ∧ OnlyRegs [(.PRT_GRP_STAT_frozen, g.val)] s t) ∧
   (∀ (g : Group) (s : State), s.dev.running .pgroup g.val = true → s.dev.bit .PRT_GRP_STAT_frozen g.val = true →
     s.dev.standby = false →
     Completes (.clearFreeze g) s fun t =>
       t.dev.bit .PRT_GRP_STAT_frozen g.val = false ∧ (t.dev.group g.val).changed = true ∧
       RegsKept [] [(.PRT_GRP_STAT_frozen, g.val)] s.dev t.dev) ∧
   (∀ (g : Group) (s : State), s.dev.bit .PRT_GRP_STAT_frozen g.val = false → s.dev.standby = false →
     Completes (.clearFreeze g) s fun t =>
       t.dev.bit .PRT_GRP_EVT_cmd_refused g.val = true ∧ Logged s.dev t.dev 0x0908 (g.val + 7 * 2048) ∧
       OnlyRegsAndEvents [(.PRT_GRP_EVT_cmd_refused, g.val)] s t))

/-- On R216, R218, R230, R231, R236: hold-off that has run turns what is still present into requests; WTR that elapses
reverts the group; a decision of a plain 1+1 group moves its selector to the wanted signal, counted and with event
0x0901; a hitless group switches hitlessly at a switch-safe boundary and otherwise waits; a switch that waits is made
plain, or without a boundary where the new member gives none. Rests in part on the model's own choices and readings,
log entries 4, 37 and 73. -/
def Obligations.TimersAndDecisions : Prop :=
  (∀ (g : Group) (s : State), s.dev.bit .PRT_GRP_STAT_holdoff_run g.val = true →
    timeUp (s.dev.group g.val).holdAt s.dev.now (s.dev.holdTime g.val) = true →
    Completes (.holdOffExpire g) s fun t =>
      (t.dev.group g.val).effSf = (s.dev.group g.val).rawSf ∧ (t.dev.group g.val).effSd = (s.dev.group g.val).rawSd ∧
      (t.dev.group g.val).holdAt = none ∧ t.dev.bit .PRT_GRP_STAT_holdoff_run g.val = false) ∧
  (∀ (g : Group) (s : State), s.dev.bit .PRT_GRP_STAT_wtr_run g.val = true →
    timeUp (s.dev.group g.val).wtrAt s.dev.now (s.dev.wtrTime g.val) = true →
    s.dev.bit .PRT_GRP_CFG_revertive g.val = true →
    s.dev.running .pgroup g.val = true → s.dev.standby = false → s.dev.bidir g.val = false →
    (s.dev.group g.val).condition.1 = 0 → (s.dev.group g.val).cmd = 0 →
    Completes (.wtrExpire g) s fun t =>
      (t.dev.group g.val).want = 0 ∧ (t.dev.group g.val).wtrAt = none ∧ (t.dev.group g.val).changed = true ∧
      t.dev.get .PRT_GRP_STAT_req_local g.val = 0 ∧ t.dev.bit .PRT_GRP_STAT_wtr_run g.val = false) ∧
  (∀ (g : Group) (s : State),
    s.dev.running .pgroup g.val = true → s.dev.standby = false → s.dev.bit .PRT_GRP_STAT_frozen g.val = false →
    s.dev.hlCfg g.val = false → s.dev.onePlusOne g.val = true → (s.dev.group g.val).changed = true →
    (s.dev.group g.val).want < 16 →
    Completes (.selectorDecision g) s fun t =>
      let new := (s.dev.group g.val).want
      t.dev.get .PRT_GRP_STAT_sel_sig g.val = new ∧ t.dev.get .PRT_GRP_STAT_br_sig g.val = 1 ∧
      (t.dev.group g.val).changed = false ∧
      (new ≠ s.dev.get .PRT_GRP_STAT_sel_sig g.val → Logged s.dev t.dev 0x0901 (g.val + new * 4096))) ∧
  (∀ (g : Group) (s : State) (q : Nat),
    s.dev.running .pgroup g.val = true → s.dev.standby = false → s.dev.bit .PRT_GRP_STAT_frozen g.val = false →
    s.dev.hlCfg g.val = true → s.dev.delayQueue g.val = some q → (s.dev.group g.val).changed = true →
    (s.dev.group g.val).want < 16 → (s.dev.group g.val).want ≠ s.dev.get .PRT_GRP_STAT_sel_sig g.val →
    s.dev.hlTaken g.val = false → s.dev.onePlusOne g.val = true →
    Completes (.selectorDecision g) s fun t =>
      let new := (s.dev.group g.val).want
      (s.dev.switchSafe g.val q ((s.dev.group g.val).fl - 1) = true → s.dev.hlState g.val = 2 →
        (s.dev.group g.val).confirmed = none →
        t.dev.get .PRT_GRP_STAT_sel_sig g.val = new ∧
        t.dev.get .PRT_GRP_SW_sw_hitless g.val =
          min (s.dev.get .PRT_GRP_SW_sw_hitless g.val + 1) (2 ^ Fld.PRT_GRP_SW_sw_hitless.w - 1) ∧
        Logged s.dev t.dev 0x0901 (g.val + new * 4096)) ∧
      (s.dev.switchSafe g.val q ((s.dev.group g.val).fl - 1) = false →
        (t.dev.group g.val).decided = some new ∧
        t.dev.get .PRT_GRP_STAT_sel_sig g.val = s.dev.get .PRT_GRP_STAT_sel_sig g.val)) ∧
  (∀ (g : Group) (s : State) (new : Nat),
    s.dev.running .pgroup g.val = true → s.dev.standby = false → s.dev.bit .PRT_GRP_STAT_frozen g.val = false →
    (s.dev.group g.val).changed = false → (s.dev.group g.val).decided = some new → new < 16 →
    s.dev.givesBoundary (s.dev.selectedSrc g.val new) = false →
    Completes (.switchNoBoundary g) s fun t =>
      t.dev.get .PRT_GRP_STAT_sel_sig g.val = new ∧ (t.dev.group g.val).decided = none ∧
      (new ≠ s.dev.get .PRT_GRP_STAT_sel_sig g.val → Logged s.dev t.dev 0x0901 (g.val + new * 4096))) ∧
  (∀ (g : Group) (s : State) (new : Nat),
    s.dev.running .pgroup g.val = true → s.dev.bit .PRT_GRP_STAT_frozen g.val = false →
    (s.dev.group g.val).decided = some new → new < 16 →
    Completes (.plainSwitch g) s fun t =>
      t.dev.get .PRT_GRP_STAT_sel_sig g.val = new ∧ (t.dev.group g.val).decided = none ∧
      t.dev.get .PRT_GRP_SWQ_sw_plain g.val =
        min (s.dev.get .PRT_GRP_SWQ_sw_plain g.val + 1) (2 ^ Fld.PRT_GRP_SWQ_sw_plain.w - 1) ∧
      t.dev.bit .PRT_GRP_EVT_not_hitless g.val = true ∧ Logged s.dev t.dev 0x0901 (g.val + new * 4096))

/-- On R224, R226: laps become valid after three advances and invalid after three breaks; a probe is taken of sixteen
clean early frames, found where the late frames show it, given up where it shows twice or its limit passes; two
expired probes in RECAL lose the alignment with cause 2. Rests in part on the model's own choices and readings, log
entry 37. -/
def Obligations.LapsAndProbes : Prop :=
  (∀ (g : Group) (late valid : Bool) (s : State),
    s.dev.hlState g.val ≠ 0 →
    (let run := if late then (s.dev.group g.val).lapLRun else (s.dev.group g.val).lapERun
     if valid then 3 ≤ run else run ≤ -3) →
    Completes (.lapValid g late valid) s fun t =>
      (if late then (t.dev.group g.val).lapLOk else (t.dev.group g.val).lapEOk) = valid ∧
      (if late then (t.dev.group g.val).lapEOk = (s.dev.group g.val).lapEOk
        else (t.dev.group g.val).lapLOk = (s.dev.group g.val).lapLOk)) ∧
  (∀ (g : Group) (s : State),
    let x := s.dev.group g.val
    let w := (x.early.take 16).reverse
    s.dev.hlState g.val ≠ 0 → s.dev.hlLap g.val = false → x.probe = none → w.length = 16 →
    w.all (fun y => y.inFrame && y.clean) = true → 12 ≤ (w.map (·.sig)).eraseDups.length →
    Completes (.probeTaken g) s fun t => t.dev.group g.val = { x with probe := some ⟨w.map (·.sig), x.fe - 16, 0⟩ }) ∧
  (∀ (g : Group) (s : State) (p : Probe),
    let x := s.dev.group g.val
    s.dev.hlState g.val ≠ 0 → x.probe = some p → (x.late.take 16).reverse.map (·.sig) = p.sigs →
    Completes (.probeFound g) s fun t =>
      t.dev.group g.val = { x with probe := none, cand := some ((x.fl : Int) - 16 - (p.fe : Int), 0) } ∧
      t.dev.get .PRT_ALN_CNT_probe_ok g.val =
        min (s.dev.get .PRT_ALN_CNT_probe_ok g.val + 1) (2 ^ Fld.PRT_ALN_CNT_probe_ok.w - 1)) ∧
  (∀ (g : Group) (s : State) (p : Probe),
    let x := s.dev.group g.val
    x.probe = some p → p.fe + 16 < x.fe → (x.early.take 16).reverse.map (·.sig) = p.sigs →
    Completes (.probeAmbiguous g) s fun t =>
      t.dev.group g.val = { x with probe := none } ∧
      t.dev.get .PRT_ALN_CNT_probe_amb g.val =
        min (s.dev.get .PRT_ALN_CNT_probe_amb g.val + 1) (2 ^ Fld.PRT_ALN_CNT_probe_amb.w - 1)) ∧
  (∀ (g : Group) (s : State) (p : Probe),
    (s.dev.group g.val).probe = some p → s.dev.probeLimit g.val ≤ p.late →
    Completes (.probeExpire g) s fun t =>
      (t.dev.group g.val).probe = none ∧
      (s.dev.hlState g.val = 3 → (s.dev.group g.val).confirmed = none → 1 ≤ (s.dev.group g.val).expired →
        t.dev.hlState g.val = 1 ∧ t.dev.get .PRT_ALN_STAT_cause g.val = 2 ∧
        t.dev.bit .PRT_ALN_STAT_seated g.val = false ∧ Logged s.dev t.dev 0x0904 (g.val + 2 * 4096)) ∧
      (s.dev.hlState g.val ≠ 3 → t.dev.hlState g.val = s.dev.hlState g.val))

/-- On R228, R231: UNALIGNED becomes ALIGNED where 8 frames have matched under the candidate and the delay is within its
limits, Δ taking the candidate, and after an unverified switch the frames it was off by counted, unless laps named it
and the delay is beyond what laps can tell; 8 matches in RECAL or BLIND lead back to ALIGNED, 8 mismatches in ALIGNED
or BLIND to RECAL, 64 late frames that are not distinct to BLIND; Δ is held through all three. Rests in part on the
model's own choices and readings, log entry 37. -/
def Obligations.AlignmentStates : Prop :=
  (∀ (g : Group) (s : State) (q n : Nat) (dl : Int) (f y : FrameSig),
    let x := s.dev.group g.val
    s.dev.hlState g.val = 1 → x.cand = some (dl, n) → 8 ≤ n → s.dev.delayQueue g.val = some q →
    x.late.head? = some f → x.earlyAt ((x.fl : Int) - 1 - dl) = some y →
    s.dev.hlLimit g.val q (f.at_.toNat - y.at_.toNat) = 0 →
    Completes (.alignConfirm g) s fun t =>
      if s.dev.hlLap g.val = true ∧ s.dev.lapLimit g.val (f.at_.toNat - y.at_.toNat) = true then
        t.dev.hlState g.val = 1 ∧ (t.dev.group g.val).cand = none
      else
        t.dev.hlState g.val = 2 ∧ t.dev.get .PRT_ALN_OFFSET_delta g.val = un 32 dl ∧
        (t.dev.group g.val).unverified = false ∧
        t.dev.get .PRT_GRP_HIT_hit_frames g.val = (if x.unverified = true ∧ dl ≠ s.dev.hlDelta g.val then
          min (s.dev.get .PRT_GRP_HIT_hit_frames g.val + (dl - s.dev.hlDelta g.val).natAbs) (2 ^ Fld.PRT_GRP_HIT_hit_frames.w - 1)
          else s.dev.get .PRT_GRP_HIT_hit_frames g.val) ∧
        t.dev.bit .PRT_GRP_EVT_aln_chg g.val = true ∧ Logged s.dev t.dev 0x0903 g.val) ∧
  (∀ (g : Group) (s : State), (s.dev.hlState g.val = 3 ∨ s.dev.hlState g.val = 4) → 8 ≤ (s.dev.group g.val).matchRun →
    Completes (.alignMatchRun g) s fun t =>
      t.dev.hlState g.val = 2 ∧ t.dev.bit .PRT_ALN_STAT_pending g.val = false ∧
      t.dev.hlDelta g.val = s.dev.hlDelta g.val ∧
      (s.dev.hlState g.val = 4 → Logged s.dev t.dev 0x0907 g.val)) ∧
  (∀ (g : Group) (s : State), (s.dev.hlState g.val = 2 ∨ s.dev.hlState g.val = 4) →
    s.dev.get .PRT_ALN_STAT_mm_run g.val = 8 →
    Completes (.alignMismatchRun g) s fun t =>
      t.dev.hlState g.val = 3 ∧ t.dev.hlDelta g.val = s.dev.hlDelta g.val ∧ (t.dev.group g.val).probe = none ∧
      (s.dev.hlState g.val = 4 → Logged s.dev t.dev 0x0907 g.val)) ∧
  (∀ (g : Group) (s : State), (s.dev.hlState g.val = 2 ∨ s.dev.hlState g.val = 3) → s.dev.hlLap g.val = false →
    64 ≤ (s.dev.group g.val).blindRun →
    Completes (.blindEnter g) s fun t =>
      t.dev.hlState g.val = 4 ∧ t.dev.hlDelta g.val = s.dev.hlDelta g.val ∧
      t.dev.bit .PRT_GRP_EVT_blind_chg g.val = true ∧ Logged s.dev t.dev 0x0906 g.val)

/-! ### Chapter 10: relay pair -/

/-- On R243, R245, R251–R253, R257: at a copy epoch boundary an owning device sends the EPOCH of its number and a pacer
frame with its role and epoch, a standby an ACK; a received ACK is noted and, from SYNC with 0, asks for a snapshot;
a valid heartbeat brings its path up with its event, and silence for to_epochs takes the path down, an ACTIVE device
left alone under iso_policy becoming ISOLATED; the baton link follows its lanes. Rests in part on the model's own
choices and readings, log entries 31 and 32. -/
def Obligations.EpochsAndHeartbeats : Prop :=
  (∀ (s : State), s.dev.agentOwns = true → s.dev.batonReady = true →
    Completes .copyEpoch s fun t =>
      t.dev.agent = s.dev.agent ∧ t.dev.word .PAIR_EPOCH_SENT 0 = BitVec.ofNat 32 s.dev.epoch ∧
      (∃ m : BatonMsg, m.bytes s.dev.srcWord ∈ t.dev.pair.txBaton ∧ m.hdr.kind = 1 ∧
        m.hdr.epoch = BitVec.ofNat 64 s.dev.epoch ∧ m.hdr.role = BitVec.ofNat 4 s.dev.agent ∧
        m.trEpoch = m.hdr.epoch ∧ m.trAlive = m.hdr.alive) ∧
      (∃ f : PacerFrame, t.dev.pair.txPacer = some f.bytes ∧ f.role = BitVec.ofNat 4 s.dev.agent ∧
        f.epoch = BitVec.ofNat 16 s.dev.epoch) ∧ t.pool = s.pool) ∧
  (∀ (s : State), s.dev.standby = true → s.dev.batonReady = true →
    Completes .copyEpoch s fun t =>
      ∃ m : BatonMsg, t.dev.pair.txBaton = [m.bytes s.dev.srcWord] ∧ m.hdr.kind = 3 ∧
        m.hdr.epoch = BitVec.ofNat 64 s.dev.epoch) ∧
  (∀ (b : List Byte) (s : State),
    let h := BatonHeader.read b
    s.dev.batonReady = true → s.dev.pair.hdr = some (b.take 64, true) → s.dev.agentOwns = true →
    h.pairId ≠ s.dev.bit .PAIR_CTL_pair_id 0 → discardReason b true 3 none = 0 →
    Completes (.ackReceived b) s fun t =>
      t.dev.word .PAIR_EPOCH_ACK 0 = BitVec.ofNat 32 h.ackEpoch.toNat ∧
      t.dev.pair.ackEpoch = h.ackEpoch.toNat ∧ t.dev.agent = s.dev.agent ∧
      (h.ackEpoch = 0 → h.role = 4 → s.dev.pair.snapOut = [] → s.dev.pair.snapHold = 0 →
        t.dev.pair.snapReq = true)) ∧
  (∀ (b : List Byte) (s : State) (n : Nat),
    let h := BatonHeader.read b
    s.dev.batonReady = true → hcrcOk b = true → (s.dev.pair.rxBaton.judge 32 true h.alive).2 = .accepted n →
    h.pairId ≠ s.dev.bit .PAIR_CTL_pair_id 0 → s.dev.bit .PAIR_STAT_baton_up 0 = false →
    Completes (.batonHeaderReceived b) s fun t =>
      t.dev.bit .PAIR_STAT_baton_up 0 = true ∧ t.dev.bit .PAIR_EVT_path_chg 0 = true ∧
      t.dev.get .PAIR_STAT_partner_state 0 = h.role.toNat ∧ t.dev.pair.hdr = some (b, true) ∧
      t.dev.pair.rxBaton.base = some h.alive ∧ Logged s.dev t.dev 0x0A03 0) ∧
  (∀ (b : List Byte) (s : State) (n : Nat),
    let f := PacerFrame.read b
    pacerCrcOk b = true → f.version = 1 → s.dev.sys.held = false →
    (s.dev.pair.rxPacer.judge 16 true f.alive).2 = .accepted n →
    f.pairId ≠ s.dev.bit .PAIR_CTL_pair_id 0 → s.dev.bit .PAIR_STAT_pacer_up 0 = false →
    Completes (.pacerFrameReceived b) s fun t =>
      t.dev.bit .PAIR_STAT_pacer_up 0 = true ∧ t.dev.get .PAIR_STAT_partner_state 0 = f.role.toNat ∧
      t.dev.pair.rxPacer.base = some f.alive ∧ Logged s.dev t.dev 0x0A05 0) ∧
  (∀ (p : PairPath) (s : State),
    let up : Fld := if p = .baton then .PAIR_STAT_baton_up else .PAIR_STAT_pacer_up
    let other : Fld := if p = .baton then .PAIR_STAT_pacer_up else .PAIR_STAT_baton_up
    s.dev.bit up 0 = true → s.dev.silenceUp (p == .baton) = true →
    Completes (.pathDown p) s fun t =>
      t.dev.bit up 0 = false ∧ Logged s.dev t.dev (if p = .baton then 0x0A02 else 0x0A04) 0 ∧
      (if p = .baton then t.dev.pair.rxBaton else t.dev.pair.rxPacer).fresh = true ∧
      t.dev.agent = (if s.dev.agent = 2 ∧ s.dev.bit other 0 = false ∧ s.dev.bit .PAIR_CTL_iso_policy 0 = true then 7
        else s.dev.agent)) ∧
  (∀ (s : State), s.dev.pdOn domBaton = true →
    exec .batonLinkUp s = .next (s.onDev (·.onPair (fun p => { p with batonLink := true })))) ∧
  (∀ (s : State), exec .batonLinkDown s = .next (s.onDev (·.onPair (fun p => { p with batonLink := false }))))

/-- On R240, R255, R258, R259: the agent's transitions on ARB_REQ, at the end of its windows, on resync, and by
take-over, which makes the device ACTIVE with the take flag and event 0x0A06. Rests in part on the model's own
choices and readings, log entries 13 and 32. -/
def Obligations.AgentTransitions : Prop :=
  (∀ (s : State), s.dev.sys.held = false →
    Completes .arbReqRise s fun t =>
      t.dev.bit .PAIR_STAT_arb_req 0 = true ∧ t.dev.sys.arbPin = true ∧
      t.dev.agent = (if s.dev.agent = 7 ∧ s.dev.hears 2 = false then 2 else s.dev.agent)) ∧
  (∀ (s : State), s.dev.sys.held = false →
    Completes .arbReqFall s fun t =>
      t.dev.bit .PAIR_STAT_arb_req 0 = false ∧ t.dev.sys.arbPin = false ∧
      t.dev.agent = (if s.dev.agent = 2 then 3 else s.dev.agent)) ∧
  (∀ (s : State), s.dev.takeWanted = true → s.dev.bit .PAIR_STAT_arb_req 0 = true → s.dev.unhealthy = false →
    Completes .takeOver s fun t =>
      t.dev.agent = 2 ∧ t.dev.pair.take = true ∧ t.dev.pair.ownTakeover = s.dev.epoch ∧
      t.dev.bit .PAIR_EVT_takeover 0 = true ∧
      Logged s.dev t.dev 0x0A06 (bitNat s.dev.warmNow + (if s.dev.alone then 0 else 1) * 2 + s.dev.mirrorAge * 16)) ∧
  (∀ (s : State),
    s.dev.agent = 1 → s.dev.get .PAIR_CTL_disc_epochs 0 ≤ s.dev.pair.absentEpochs →
    s.dev.bit .PAIR_STAT_arb_req 0 = true →
    Completes .discoverWindowEnd s fun t =>
      t.dev.agent =
        (if s.dev.bit .PAIR_CTL_pair_id 0 = true ∧ s.dev.pair.partnerDisc = some true then 4
         else if s.dev.pair.partnerHeard = false ∨ s.dev.bit .PAIR_CTL_pair_id 0 = false ∨
            s.dev.pair.partnerDisc = some false then 2
         else 1)) ∧
  (∀ (s : State),
    s.dev.agent = 4 → s.dev.get .PAIR_CTL_disc_epochs 0 ≤ s.dev.pair.absentEpochs →
    s.dev.bit .PAIR_STAT_arb_req 0 = true → s.dev.unhealthy = false → s.dev.bit .PAIR_CTL_pair_id 0 = false →
    Completes .syncPartnerAbsent s fun t =>
      t.dev.agent = 2 ∧ t.dev.pair.take = true ∧ Logged s.dev t.dev 0x0A06 (s.dev.mirrorAge * 16)) ∧
  (∀ (s : State), s.dev.agent = 3 → s.dev.get .PAIR_CTL_yield_to 0 ≤ s.dev.pair.absentEpochs →
    Completes .yieldTimeout s fun t =>
      t.dev.agent = (if s.dev.alone then 7 else 4) ∧ t.dev.pair.take = false ∧
      t.dev.bit .PAIR_EVT_yielded 0 = true ∧
      t.dev.get .PAIR_CNT_YIELD_yield_cnt 0 =
        min (s.dev.get .PAIR_CNT_YIELD_yield_cnt 0 + 1) (2 ^ Fld.PAIR_CNT_YIELD_yield_cnt.w - 1)) ∧
  (∀ (s : State), (s.dev.agent = 5 ∨ s.dev.agent = 6) →
    Completes .resync s fun t =>
      t.dev.agent = 4 ∧ t.dev.pair.snapOk = false ∧ t.dev.pair.snapGot = [] ∧ t.dev.pair.snapLater = [] ∧ Logged s.dev t.dev 0x0A0E 0) ∧
  (∀ (s : State), s.dev.agent ≠ 5 → s.dev.agent ≠ 6 → exec .resync s = .next s)

/-- On R243, R246, R250, R263: a valid EPOCH heard in WARM becomes the mirror; a message that R250 discards is counted
and leaves the mirror as it was; SNAP parts are gathered in order, from part 0, and the last one completes the
snapshot, and the changes received since it was cut follow. Rests in part on the model's own choices and readings,
log entry 32. -/
def Obligations.MirrorReceives : Prop :=
  (∀ (b : List Byte) (s : State),
    let m := BatonMsg.read b
    s.dev.batonReady = true → s.dev.pair.hdr = some (b.take 64, true) → s.dev.agent = 5 → s.dev.copying = true →
    m.hdr.pairId ≠ s.dev.bit .PAIR_CTL_pair_id 0 → discardReason b true 1 (some s.dev.pair.lastApplied) = 0 →
    m.hdr.suspended = false → m.hdr.resyncReq = false → m.hdr.final = false →
    Completes (.epochReceived b) s fun t =>
      (∃ x, t.dev.pair.mirror = some x ∧ x.epoch = m.hdr.epoch.toNat ∧ x.cut = m.hdr.cutDtime.toNat ∧ x.sels = m.sels ∧
        x.fails = m.fails ∧ x.filts = m.filts) ∧
      t.dev.pair.lastApplied = m.hdr.epoch.toNat ∧ t.dev.agent = 5 ∧
      t.dev.word .PAIR_EPOCH_APPL 0 = BitVec.ofNat 32 m.hdr.epoch.toNat) ∧
  (∀ (b : List Byte) (ok : Bool) (s : State),
    s.dev.batonReady = true → s.dev.pair.hdr = some (b.take 64, ok) → (s.dev.agent = 4 ∨ s.dev.agent = 5 ∨ s.dev.agent = 6) →
    s.dev.ownMsg b = false → discardReason b ok 1 (some s.dev.pair.lastApplied) ≠ 0 →
    Completes (.epochReceived b) s fun t =>
      t.dev.pair.mirror = s.dev.pair.mirror ∧ t.dev.pair.lastApplied = s.dev.pair.lastApplied ∧
      t.dev.agent = s.dev.agent ∧ t.dev.bit .PAIR_EVT_discard 0 = true ∧
      t.dev.get .PAIR_CNT_DISC_disc_cnt 0 =
        min (s.dev.get .PAIR_CNT_DISC_disc_cnt 0 + 1) (2 ^ Fld.PAIR_CNT_DISC_disc_cnt.w - 1)) ∧
  (∀ (b : List Byte) (s : State),
    let m := BatonMsg.read b
    let k := m.hdr.part.toNat
    let got := m.changes.foldl takeValue (if k = 0 then [] else s.dev.pair.snapGot)
    s.dev.batonReady = true → s.dev.pair.hdr = some (b.take 64, true) → s.dev.agent = 4 → s.dev.pair.snapOk = false →
    s.dev.copying = true → m.hdr.pairId ≠ s.dev.bit .PAIR_CTL_pair_id 0 → discardReason b true 2 none = 0 →
    (k = 0 ∨ (k = s.dev.get .PAIR_SYNC_STAT_parts_rx 0 ∧ m.hdr.epoch.toNat = s.dev.pair.snapCut)) →
    Completes (.snapReceived b) s fun t =>
      t.dev.pair.snapGot = (if m.hdr.parts.toNat ≤ k + 1 then
        (if k = 0 then [] else s.dev.pair.snapLater).foldl takeValue got else got) ∧
      t.dev.pair.snapCut = m.hdr.epoch.toNat ∧
      t.dev.get .PAIR_SYNC_STAT_parts_rx 0 = (k + 1) % 2 ^ Fld.PAIR_SYNC_STAT_parts_rx.w ∧
      t.dev.pair.snapOk = decide (m.hdr.parts.toNat ≤ k + 1))

/-- On R247–R249, R252: the bytes of a baton header, of a selector and a filter entry, of a change record and of a pacer
frame read back as what they were written from, at their lengths and with their CRCs right; an ACK as it is sent is
one that the partner does not discard. -/
def Obligations.PairBytesReadBack : Prop :=
  (∀ h : BatonHeader, h.bytes.length = 64 ∧ BatonHeader.read h.bytes = h ∧ hcrcOk h.bytes = true) ∧
  (∀ f : PacerFrame, f.bytes.length = 16 ∧ PacerFrame.read f.bytes = f ∧ pacerCrcOk f.bytes = true) ∧
  (∀ e : SelEntry, e.g < 2 ^ 16 → e.bytes.length = 48 ∧ SelEntry.read e.bytes = e) ∧
  (∀ e : FiltEntry, e.c < 2 ^ 16 → (∀ v ∈ [e.m, e.i, e.phi], -(2 ^ 47) ≤ v ∧ v < 2 ^ 47) →
    e.bytes.length = 64 ∧ FiltEntry.read e.bytes = e) ∧
  (∀ (src : Nat → Nat) (k l : Nat) (v : List Byte), src k < 2 ^ 16 → srcOfWord (src k) = k → l < 256 → v.length = 64 →
    (Change.bytes src (.tti k l v)).length = 72 ∧ Change.read (Change.bytes src (.tti k l v)) = some (.tti k l v)) ∧
  (∀ (src : Nat → Nat) (k l : Nat) (v : Byte) (w : Word), src k < 2 ^ 16 → srcOfWord (src k) = k → l < 256 →
    Change.read (Change.bytes src (.pt k v)) = some (.pt k v) ∧
    Change.read (Change.bytes src (.aps k l w)) = some (.aps k l w)) ∧
  (∀ (src : Nat → Nat) (n : Nat) (tpn : List Byte) (occ : List Bool), n < 2 ^ 16 → tpn.length = 160 → occ.length = 160 →
    (Change.bytes src (.msi n tpn occ)).length = 184 ∧
    Change.read (Change.bytes src (.msi n tpn occ)) = some (.msi n tpn occ)) ∧
  (∀ (src : Nat → Nat) (t : Nat) (cfg : Word) (ts : List Word) (c : Bool), t < 2 ^ 16 → ts.length = 5 →
    Change.read (Change.bytes src (.learned t cfg ts)) = some (.learned t cfg ts) ∧
    Change.read (Change.bytes src (.freed t)) = some (.freed t) ∧
    Change.read (Change.bytes src (.flexeCal t c)) = some (.flexeCal t c)) ∧
  (∀ (src : Nat → Nat) (h : BatonHeader), h.kind = 3 → h.version = 1 → h.nsec = 0 → h.length = 80 →
    ((wholeMsg h).bytes src).length = 80 ∧ BatonMsg.read ((wholeMsg h).bytes src) = wholeMsg h ∧
    discardReason ((wholeMsg h).bytes src) true 3 none = 0)

/-! ### Chapter 11: check units -/

/-- On R267–R270: INIT, PRESET, DIN, DIN8 and a RUN load do to the running value and the byte count of their engine what
R268 to R270 give, RES follows the running value, and while a scan job owns the engine each of them is refused with
event 0x0B08 and nothing else. Chosen by the model where a width outside 1 to 64 is set (log entry 2): those widths
are left out. -/
def Obligations.CrcEngines : Prop :=
  (∀ (k : CkEng) (s : State),
    s.dev.scanOn = true → s.dev.bit .CHK_CK_STAT_scan_owned k.val = false → s.dev.ckWidthOk k.val = true →
    Completes (.init k) s fun t =>
      let v := (s.dev.ckParams k.val).init
      t.dev.pairVal .CHK_CK_RUN_LO .CHK_CK_RUN_HI k.val = v ∧ t.dev.get .CHK_CK_BYTES_bytes k.val = 0 ∧
      t.dev.pairVal .CHK_CK_RES_LO .CHK_CK_RES_HI k.val = crcResult (s.dev.ckParams k.val) v) ∧
  (∀ (k : CkEng) (p : BitVec 3) (c : CrcParams) (s : State),
    s.dev.scanOn = true → s.dev.bit .CHK_CK_STAT_scan_owned k.val = false → crcPreset p.toNat = some c →
    Completes (.preset k p) s fun t =>
      t.dev.ckParams k.val = c ∧ t.dev.pairVal .CHK_CK_RUN_LO .CHK_CK_RUN_HI k.val = c.init ∧
      t.dev.get .CHK_CK_BYTES_bytes k.val = 0 ∧
      t.dev.pairVal .CHK_CK_RES_LO .CHK_CK_RES_HI k.val = crcResult c c.init) ∧
  (∀ (k : CkEng) (w : Word) (s : State),
    s.dev.scanOn = true → s.dev.bit .CHK_CK_STAT_scan_owned k.val = false → s.dev.ckWidthOk k.val = true →
    Completes (.ckDin k w) s fun t =>
      t.dev.pairVal .CHK_CK_RES_LO .CHK_CK_RES_HI k.val =
        crcResult (s.dev.ckParams k.val) (t.dev.pairVal .CHK_CK_RUN_LO .CHK_CK_RUN_HI k.val) ∧
      t.dev.pairVal .CHK_CK_RUN_LO .CHK_CK_RUN_HI k.val = crcBytes (s.dev.ckParams k.val)
        (s.dev.pairVal .CHK_CK_RUN_LO .CHK_CK_RUN_HI k.val)
        [w.setWidth 8, (w >>> 8).setWidth 8, (w >>> 16).setWidth 8, (w >>> 24).setWidth 8] % 2 ^ 64 ∧
      t.dev.get .CHK_CK_BYTES_bytes k.val = (s.dev.get .CHK_CK_BYTES_bytes k.val + 4) % 2 ^ Fld.CHK_CK_BYTES_bytes.w) ∧
  (∀ (k : CkEng) (b : Byte) (s : State),
    s.dev.scanOn = true → s.dev.bit .CHK_CK_STAT_scan_owned k.val = false → s.dev.ckWidthOk k.val = true →
    Completes (.ckDin8 k b) s fun t =>
      t.dev.pairVal .CHK_CK_RES_LO .CHK_CK_RES_HI k.val =
        crcResult (s.dev.ckParams k.val) (t.dev.pairVal .CHK_CK_RUN_LO .CHK_CK_RUN_HI k.val) ∧
      t.dev.pairVal .CHK_CK_RUN_LO .CHK_CK_RUN_HI k.val = crcByte (s.dev.ckParams k.val)
        (s.dev.pairVal .CHK_CK_RUN_LO .CHK_CK_RUN_HI k.val) b % 2 ^ 64 ∧
      t.dev.get .CHK_CK_BYTES_bytes k.val = (s.dev.get .CHK_CK_BYTES_bytes k.val + 1) % 2 ^ Fld.CHK_CK_BYTES_bytes.w) ∧
  (∀ (k : CkEng) (hi : Word) (s : State),
    let v := (Table.get s.dev.check.runLo k.val 0).toNat + hi.toNat * 2 ^ 32
    s.dev.scanOn = true → s.dev.bit .CHK_CK_STAT_scan_owned k.val = false →
    Completes (.ckRunLoad k hi) s fun t =>
      if v < 2 ^ s.dev.get .CHK_CK_CFG_width k.val then
        t.dev.pairVal .CHK_CK_RUN_LO .CHK_CK_RUN_HI k.val = v ∧
        (s.dev.ckWidthOk k.val = true →
          t.dev.pairVal .CHK_CK_RES_LO .CHK_CK_RES_HI k.val = crcResult (s.dev.ckParams k.val) v)
      else t.dev.bit .CHK_CK_STAT_ck_err k.val = true ∧ Logged s.dev t.dev 0x0B08 k.val) ∧
  (∀ (k : CkEng) (w : Word) (b : Byte) (p : BitVec 3) (s : State), s.dev.scanOn = true →
    s.dev.bit .CHK_CK_STAT_scan_owned k.val = true →
    ∀ c ∈ [Instr.init k, .preset k p, .ckDin k w, .ckDin8 k b, .ckRunLoad k w],
      Completes c s fun t =>
        t.dev.bit .CHK_CK_STAT_ck_err k.val = true ∧ Logged s.dev t.dev 0x0B08 k.val ∧
        OnlyRegsAndEvents [(.CHK_CK_STAT_ck_err, k.val)] s t)

/-- On R271, R272: GO starts a well-formed job from its first element and owns its engine; a malformed one is refused
with outcome 2; a job that reads its last element ends with outcome 0, one that STOP ends with outcome 1 at the
element it had reached; its engine is released, with event 0x0B04, and has been fed the bytes of the elements read; a
scrub job likewise ends at its last element, counts the corrected words it writes back and changes no byte where no
word was uncorrectable, and waits while a rebuild runs. On R276, R277, R282: a table block whose value equals both
references is left alone, a differing reference is repaired, and a block that neither matches is marked; an injection
inverts bit 0 of the copies it names. Rests in part on the model's own choices and readings, log entries 9, 47 and
75. -/
def Obligations.ScansAndTables : Prop :=
  (∀ (s : State), s.dev.scanOn = true → s.dev.bit .CHK_SCAN_CMD_busy 0 = false →
    Completes .go s fun t =>
      if s.dev.scanOk then
        t.dev.bit .CHK_SCAN_CMD_busy 0 = true ∧ t.dev.get .CHK_SCAN_POS_pos 0 = 0 ∧
        t.dev.check.scanJob = some s.dev.scanSet ∧
        (s.dev.scanSet.scrub = false → t.dev.bit .CHK_CK_STAT_scan_owned s.dev.scanSet.ck = true)
      else
        t.dev.get .CHK_SCAN_CMD_outcome 0 = 2 ∧ t.dev.bit .CHK_SCAN_CMD_busy 0 = false ∧ Logged s.dev t.dev 0x0B04 2) ∧
  (∀ (data : List Byte) (ue : Nat) (reads : List CellRead) (raced : List Nat) (s : State) (j : ScanJob),
    let pos := s.dev.get .CHK_SCAN_POS_pos 0
    s.dev.check.scanJob = some j → j.scrub = false → pos ≤ j.count →
    Completes (.scanJobEnd data ue reads raced) s fun t =>
      t.dev.check.scanJob = none ∧
      (s.dev.ckWidthOk j.ck = true → t.dev.pairVal .CHK_CK_RUN_LO .CHK_CK_RUN_HI j.ck =
        crcBytes (s.dev.ckParams j.ck) (s.dev.pairVal .CHK_CK_RUN_LO .CHK_CK_RUN_HI j.ck)
          (s.scanBytes j ((List.range (j.count - pos)).map (fun i => j.start + (pos + i) * j.stride)) data) % 2 ^ 64) ∧
      t.dev.bit .CHK_SCAN_CMD_busy 0 = false ∧ t.dev.get .CHK_SCAN_CMD_outcome 0 = 0 ∧
      t.dev.get .CHK_SCAN_POS_pos 0 = j.count % 2 ^ Fld.CHK_SCAN_POS_pos.w ∧
      t.dev.bit .CHK_CK_STAT_scan_owned j.ck = false ∧ Logged s.dev t.dev 0x0B04 0 ∧ t.pool = s.pool) ∧
  (∀ (data : List Byte) (ue : Nat) (reads : List CellRead) (raced : List Nat) (s : State) (j : ScanJob),
    s.dev.check.scanJob = some j → j.scrub = true → s.dev.bit .CPL_POOL_STAT_rebuild_busy 0 = true →
    exec (.scanJobEnd data ue reads raced) s = .next s) ∧
  (∀ (data : List Byte) (ue : Nat) (reads : List CellRead) (raced : List Nat) (s : State) (j : ScanJob),
    s.dev.check.scanJob = some j → j.scrub = true → s.dev.bit .CPL_POOL_STAT_rebuild_busy 0 = false →
    s.dev.get .CHK_SCAN_POS_pos 0 ≤ j.count →
    Completes (.scanJobEnd data ue reads raced) s fun t =>
      t.dev.check.scanJob = none ∧ t.dev.bit .CHK_SCAN_CMD_busy 0 = false ∧ t.dev.get .CHK_SCAN_CMD_outcome 0 = 0 ∧
      t.dev.get .CHK_SCAN_POS_pos 0 = j.count % 2 ^ Fld.CHK_SCAN_POS_pos.w ∧
      ((∀ r ∈ reads, r.uncorr = []) → t.pool.mem = s.pool.mem)) ∧
  (∀ (data : List Byte) (ue : Nat) (r : CellRead) (s : State) (j : ScanJob),
    let a := j.start + s.dev.get .CHK_SCAN_POS_pos 0 * j.stride
    s.dev.check.scanJob = some j → j.scrub = true → s.dev.bit .CPL_POOL_STAT_rebuild_busy 0 = false →
    j.count = s.dev.get .CHK_SCAN_POS_pos 0 + 1 → (a + j.elem - 1) / 512 = a / 512 → s.pool.hole (a / 512) = false →
    r.uncorr = [] →
    Completes (.scanJobEnd data ue [r] []) s fun t =>
      t.dev.get .CHK_SCRUB_CNT_wb_cnt 0 =
        min (s.dev.get .CHK_SCRUB_CNT_wb_cnt 0 + r.corrected) (2 ^ Fld.CHK_SCRUB_CNT_wb_cnt.w - 1) ∧
      t.dev.get .CHK_SCRUB_CNT_wb_drop 0 = s.dev.get .CHK_SCRUB_CNT_wb_drop 0) ∧
  (∀ (pos : Nat) (data : List Byte) (ue : Nat) (reads : List CellRead) (raced : List Nat) (s : State) (j : ScanJob),
    s.dev.check.scanJob = some j → j.scrub = false →
    s.dev.get .CHK_SCAN_POS_pos 0 ≤ pos → pos ≤ j.count →
    Completes (.scanStop pos data ue reads raced) s fun t =>
      (s.dev.ckWidthOk j.ck = true → t.dev.pairVal .CHK_CK_RUN_LO .CHK_CK_RUN_HI j.ck =
        crcBytes (s.dev.ckParams j.ck) (s.dev.pairVal .CHK_CK_RUN_LO .CHK_CK_RUN_HI j.ck)
          (s.scanBytes j ((List.range (pos - s.dev.get .CHK_SCAN_POS_pos 0)).map
            (fun i => j.start + (s.dev.get .CHK_SCAN_POS_pos 0 + i) * j.stride)) data) % 2 ^ 64) ∧
      t.dev.check.scanJob = none ∧ t.dev.bit .CHK_SCAN_CMD_busy 0 = false ∧ t.dev.get .CHK_SCAN_CMD_outcome 0 = 1 ∧
      t.dev.get .CHK_SCAN_POS_pos 0 = pos % 2 ^ Fld.CHK_SCAN_POS_pos.w ∧
      t.dev.bit .CHK_CK_STAT_scan_owned j.ck = false ∧ Logged s.dev t.dev 0x0B04 1 ∧ t.pool = s.pool) ∧
  (∀ (fault : Option Word) (s : State), s.dev.bit .CHK_TBL_CTL_tbl_en 0 = true → s.dev.scanOn = true →
    s.dev.check.nextBlock < 912 →
    Completes (.tableCheckBlock fault) s fun t =>
      let b := s.dev.check.nextBlock
      let v := fault.getD (s.dev.blockValue b)
      let ra := s.dev.word .CHK_REF_A b
      let rb := s.dev.word .CHK_REF_B b
      t.dev.check.nextBlock = (if b + 1 = 912 then 0 else b + 1) ∧
      ((v = ra ∨ v = rb) → t.dev.word .CHK_REF_A b = v ∧ t.dev.word .CHK_REF_B b = v ∧ t.dev.check.bad = s.dev.check.bad) ∧
      (v = ra → v ≠ rb → Logged s.dev t.dev 0x0B01 (b + 1024)) ∧
      (v ≠ ra → v = rb → Logged s.dev t.dev 0x0B01 b) ∧
      (v ≠ ra → v ≠ rb → b ∈ t.dev.check.bad ∧ t.dev.word .CHK_REF_A b = ra ∧ t.dev.word .CHK_REF_B b = rb)) ∧
  (∀ (b : BitVec 10) (refA refB : Bool) (s : State), s.dev.scanOn = true → b.toNat < 912 →
    Completes (.referenceInject b refA refB) s fun t =>
      t.dev.word .CHK_REF_A b.toNat = s.dev.word .CHK_REF_A b.toNat ^^^ (if refA then 1 else 0) ∧
      t.dev.word .CHK_REF_B b.toNat = s.dev.word .CHK_REF_B b.toNat ^^^ (if refB then 1 else 0) ∧
      OnlyRegs [wholeWord .CHK_REF_A b.toNat, wholeWord .CHK_REF_B b.toNat] s t)

/-! ### Chapter 12: control matrix -/

/-- On R287, R290, R291, R294, R295, R297, R298: a request of a master that may issue is refused where the matrix does
not join it to its target in NORMAL mode, held back where R295 says so, stalled in its miss slot where nothing
decodes it, completed DOWN where its part has no power, and otherwise outstanding, a burst to T7 as single beats; a
held request is issued when nothing holds it any longer, over the bridge those that arrived first, in the order of
its arbitration; the completions that the matrix itself gives carry their status and, for a read, zeros; a target is
granted to no other master while a burst passes, and arbitration grants a waiting request of the highest priority, or
of a master that has lost 64 times; a response ends the oldest granted transaction of its ID, and the bridge takes
the next beat of a split burst. Rests in part on the model's own choices and readings, log entries 33, 76 and 77. -/
def Obligations.MatrixRequests : Prop :=
  (∀ (m : MMaster) (r : MxReq) (s : State),
    let tg := addrTarget r.addr
    s.dev.bit .MTX_MSTAT_rst_busy m.val = false → (∀ p, mxMasterDom m.val = some p → s.dev.pdOn p = true) →
    (mxConnected m.val tg = false → s.dev.mxLayered = false → Table.find s.dev.matrix.miss m.val = none →
      Completes (.matrixRequest m r) s fun t =>
        t.dev.matrix = { s.dev.matrix with answers := t.dev.matrix.answers } ∧
        Table.find t.dev.matrix.answers m.val =
          some ⟨r.id, .refused, if r.write then [] else List.replicate (32 * r.beats) 0⟩ ∧
        t.dev.bit .MTX_EVT_refused 0 = true ∧
        t.dev.get .MTX_CNT_B_refused_cnt 0 =
          min (s.dev.get .MTX_CNT_B_refused_cnt 0 + 1) (2 ^ Fld.MTX_CNT_B_refused_cnt.w - 1)) ∧
    ((mxConnected m.val tg = true ∨ s.dev.mxLayered = true ∨ (Table.find s.dev.matrix.miss m.val).isSome = true) →
      s.dev.mxHeldBack m.val r = true →
      Completes (.matrixRequest m r) s fun t =>
        t.dev.matrix = { s.dev.matrix with held := s.dev.matrix.held ++ [⟨m.val, r, s.dev.ticks⟩] } ∧
        t.dev.get .MTX_CNT_C_hold_cnt 0 =
          min (s.dev.get .MTX_CNT_C_hold_cnt 0 + 1) (2 ^ Fld.MTX_CNT_C_hold_cnt.w - 1) ∧
        t.dev.bit .MTX_MSTAT_held m.val = true) ∧
    (mxConnected m.val tg = true → s.dev.mxHolds m.val r = false → tg = 7 → 0 < r.beats →
      s.dev.periphHit (addrOff r.addr) = false →
      Completes (.matrixRequest m r) s fun t =>
        (∃ x, Table.find t.dev.matrix.miss m.val = some x ∧ x.req = { r with beats := 1 }) ∧
        t.dev.matrix.txns = s.dev.matrix.txns ∧
        t.dev.bit .MTX_MSTAT_stalled m.val = true ∧ Logged s.dev t.dev 0x0C03 (m.val + 7 * 16)) ∧
    (mxConnected m.val tg = true → s.dev.mxHolds m.val r = false →
      (tg = 7 → r.beats = 1 ∧ s.dev.periphHit (addrOff r.addr) = true) →
      (∃ p, s.dev.addrDom r.addr = some p ∧ s.dev.pdOn p = false) →
      Completes (.matrixRequest m r) s fun t =>
        t.dev.matrix = { s.dev.matrix with answers := t.dev.matrix.answers } ∧
        Table.find t.dev.matrix.answers m.val =
          some ⟨r.id, .down, if r.write then [] else List.replicate (32 * r.beats) 0⟩ ∧
        t.dev.bit .MTX_EVT_down 0 = true) ∧
    ((mxConnected m.val tg = true ∨ s.dev.mxLayered = true) → s.dev.mxHeldBack m.val r = false →
      (tg = 7 → r.beats = 1) →
      (if mxConnected m.val tg then tg = 7 → s.dev.periphHit (addrOff r.addr) = true
        else s.dev.bridgeHit r.addr = true) →
      (∀ p, s.dev.addrDom r.addr = some p → s.dev.pdOn p = true) →
      Completes (.matrixRequest m r) s fun t =>
        ∃ x, t.dev.matrix.txns = s.dev.matrix.txns ++ [x] ∧ x.master = m.val ∧ x.req = r ∧ x.target = tg ∧
          x.layered = !mxConnected m.val tg ∧ x.issuedAt = s.dev.dtime ∧ x.passed = 0 ∧
          x.granted = (!mxConnected m.val tg ||
            (!s.dev.matrix.txns.any (fun y => y.target == tg && !y.layered) &&
              Table.find s.dev.matrix.parked tg == some m.val))) ∧
    (mxConnected m.val tg = true → s.dev.mxHolds m.val r = false → tg = 7 →
      (∀ i, i < r.beats → let a := r.addr + BitVec.ofNat 44 (32 * i)
        addrTarget a = 7 ∧ s.dev.periphHit (addrOff a) = true ∧ ∀ p, s.dev.addrDom a = some p → s.dev.pdOn p = true) →
      Completes (.matrixRequest m r) s fun t =>
        ∃ xs, t.dev.matrix.txns = s.dev.matrix.txns ++ xs ∧ xs.length = r.beats ∧
          (∀ i, i < r.beats → (xs[i]?).map (·.req) =
            some { r with addr := r.addr + BitVec.ofNat 44 (32 * i), beats := 1 }) ∧
          ∀ x ∈ xs, x.master = m.val ∧ x.target = 7 ∧ x.layered = false ∧ x.issuedAt = s.dev.dtime)) ∧
  (∀ (m : MMaster) (pre post : List Held) (h : Held) (s : State),
    let r := mxFilled h.req
    s.dev.matrix.held = pre ++ h :: post → h.master = m.val → s.dev.mxHolds m.val r = false →
    (∀ g ∈ pre, g.master = m.val → s.dev.mxHolds m.val (mxFilled g.req) = true) →
    mxConnected m.val (addrTarget r.addr) = true →
    (addrTarget r.addr = 7 → r.beats = 1 ∧ s.dev.periphHit (addrOff r.addr) = true) →
    (∀ p, s.dev.addrDom r.addr = some p → s.dev.pdOn p = true) →
    Completes (.heldRequestIssue m) s fun t =>
      t.dev.matrix.held = pre ++ post ∧
      ∃ x, t.dev.matrix.txns = s.dev.matrix.txns ++ [x] ∧ x.master = m.val ∧ x.req = r) ∧
  (∀ (m : MMaster) (pre post : List Held) (h : Held) (s : State),
    let g0 := { h with req := mxFilled h.req }
    let d := s.dev.onMx (fun x => { x with held := pre ++ g0 :: post })
    s.dev.matrix.held = pre ++ h :: post → h.master = m.val → s.dev.mxHolds m.val g0.req = false →
    (∀ g ∈ pre, g.master = m.val → s.dev.mxHolds m.val (mxFilled g.req) = true) →
    mxConnected m.val (addrTarget h.req.addr) = false →
    Completes (.heldRequestIssue m) s fun t =>
      ∃ n, d.mxPick 10 d.bridgePrio d.bridgeWaiting = some n ∧ ∃ g, d.bridgeReq n = some g ∧ g ∈ d.bridgeFront ∧
        t.dev.matrix.held = (pre ++ g0 :: post).erase g ∧
        ((addrTarget g.req.addr = 7 → g.req.beats = 1) → s.dev.bridgeHit g.req.addr = true →
          (∀ p, s.dev.addrDom g.req.addr = some p → s.dev.pdOn p = true) →
          ∃ x, t.dev.matrix.txns = s.dev.matrix.txns ++ [x] ∧ x.master = g.master ∧ x.req = g.req ∧ x.layered = true)) ∧
  (∀ (d : Dev) (h : Held) (l : List Held), d.bridgeQueue = h :: l → ∀ (g : Held), (g ∈ d.bridgeFront ↔ g = h ∨ (g ∈ l ∧ g.at_ = h.at_))) ∧
  (∀ (tg : MTarget) (m : Nat) (s : State), s.dev.mxWinner tg.val = some m →
    s.dev.pathHeld tg.val = false →
    Completes (.targetArbitration tg) s fun t =>
      t.dev.matrix.txns = grantFirst m tg.val s.dev.ticks s.dev.matrix.txns ∧ Table.find t.dev.matrix.parked tg.val = some m ∧
      Table.find t.dev.matrix.lastGrant tg.val = some m ∧ t = { s with dev := { s.dev with matrix := t.dev.matrix } }) ∧
  (∀ (tg : MTarget) (x : Txn) (s : State),
    x ∈ s.dev.matrix.txns → x.target = tg.val → x.layered = false → x.passing = true →
    x.beatsBy s.dev.ticks < x.req.beats →
    Completes (.targetArbitration tg) s fun t =>
      t.dev.matrix.lastGrant = s.dev.matrix.lastGrant ∧
      t.dev.matrix.txns.map (·.granted) = s.dev.matrix.txns.map (·.granted)) ∧
  (∀ (d : Dev) (tg m : Nat), d.mxWinner tg = some m →
    m ∈ d.mxWaiting tg ∧
    ((∃ n ∈ d.mxWaiting tg, 64 ≤ d.mxLost tg n) → 64 ≤ d.mxLost tg m) ∧
    ((∀ n ∈ d.mxWaiting tg, d.mxLost tg n < 64) → ∀ n ∈ d.mxWaiting tg, d.mxPrio tg n ≤ d.mxPrio tg m)) ∧
  (∀ (d : Dev) (tg : Nat), d.mxWinner tg = none ↔ d.mxWaiting tg = []) ∧
  (∀ (m : MMaster) (id : BitVec 4) (x : Txn) (pre post : List Txn) (s : State),
    s.dev.matrix.txns = pre ++ x :: post → (∀ y ∈ pre, ¬(y.master = m.val ∧ y.req.id = id)) →
    x.master = m.val → x.req.id = id → x.granted = true →
    Completes (.transactionComplete m id) s fun t =>
      t.dev.matrix.txns = bridgeNext s.dev.ticks (pre ++ post) ∧
      (s.dev.bit .MTX_MSTAT_rst_busy m.val = true →
        (t.dev.bit .MTX_MSTAT_rst_busy m.val = true ↔ ∃ y ∈ pre ++ post, y.master = m.val)))

/-- On R289, R296, R299: changes of mode, with event 0x0C05 when one comes into force and 0x0C06 when one is refused; a
transaction that has reached hang_lim is recorded where no record is held, counted, and raises event 0x0C01; a master
reset drops what the master had waiting, lets its outstanding bursts finish, with event bit rst_burst where beats
were still to pass, and unparks its targets; M1 has none. Rests in part on the model's own choices and readings, log
entries 2 and 33. -/
def Obligations.MatrixModesHangsResets : Prop :=
  (∀ (s : State), s.dev.mxLayered = false →
    Completes .modeToLayered s fun t =>
      t.dev.mxLayered = true ∧ t.dev.bit .MTX_MODE_mode_req 0 = true ∧ t.dev.bit ⟨.GLB_READY_FN, 10, 1⟩ 0 = false ∧
      Logged s.dev t.dev 0x0C05 1 ∧ t.pool = s.pool) ∧
  (∀ (s : State), s.dev.mxLayered = true → s.dev.mxBusy = false →
    Completes .modeToNormal s fun t =>
      t.dev.mxLayered = true ∧ t.dev.mxBusy = true ∧
      t.dev.matrix = { s.dev.matrix with modeSince := s.dev.ticks } ∧ t.pool = s.pool ∧
      RegsKept [] [(.MTX_MODE_mode_req, 0), (.MTX_MODE_mode_busy, 0)] s.dev t.dev) ∧
  (∀ (s : State), s.dev.mxBusy = true → s.dev.bridgeBusy = false →
    Completes .normalSwitch s fun t =>
      t.dev.mxLayered = false ∧ t.dev.mxBusy = false ∧ t.dev.bit ⟨.GLB_READY_FN, 10, 1⟩ 0 = true ∧
      (∀ e ∈ t.dev.matrix.held, mxConnected e.master (addrTarget e.req.addr) = true ∨
        (Table.find s.dev.matrix.miss e.master).isSome = true) ∧
      (∀ e ∈ s.dev.matrix.held, mxConnected e.master (addrTarget e.req.addr) = false →
        Table.find s.dev.matrix.miss e.master = none →
        ∃ a, Table.find t.dev.matrix.answers e.master = some a ∧ a.status = .refused) ∧
      (s.dev.matrix.held = [] → Logged s.dev t.dev 0x0C05 0)) ∧
  (∀ (s : State), s.dev.mxBusy = true → s.dev.bridgeBusy = true → s.dev.hangReached s.dev.matrix.modeSince = true →
    Completes .modeChangeRefused s fun t =>
      t.dev.mxBusy = false ∧ t.dev.bit .MTX_MODE_mode_req 0 = true ∧ t.dev.mxLayered = s.dev.mxLayered ∧
      Logged s.dev t.dev 0x0C06 0) ∧
  (∀ (m : MMaster) (id : BitVec 4) (x : Txn) (s : State),
    Table.find s.dev.matrix.miss m.val = none →
    s.dev.matrix.txns.find? (fun y => y.master == m.val && y.req.id == id && !y.hung
      && s.dev.hangReached y.tick) = some x →
    Completes (.hangDetect m id) s fun t =>
      t.dev.bit .MTX_EVT_hang 0 = true ∧ t.dev.bit .MTX_STAT_hang_recent 0 = true ∧
      t.dev.bit .MTX_HANG_REC_rec_valid 0 = true ∧
      t.dev.get .MTX_CNT_A_hang_cnt 0 = min (s.dev.get .MTX_CNT_A_hang_cnt 0 + 1) (2 ^ Fld.MTX_CNT_A_hang_cnt.w - 1) ∧
      t.dev.word .MTX_HANG_ADDR_LO 0 = (if s.dev.bit .MTX_HANG_REC_rec_valid 0 then s.dev.word .MTX_HANG_ADDR_LO 0
        else BitVec.ofNat 32 x.req.addr.toNat) ∧
      Logged s.dev t.dev 0x0C01 (m.val + x.target * 16 + 256)) ∧
  (∀ (m : MMaster) (x : Txn) (s : State),
    Table.find s.dev.matrix.miss m.val = some x → x.hung = false → s.dev.hangReached x.tick = true →
    Completes (.hangDetect m x.req.id) s fun t =>
      t.dev.bit .MTX_EVT_hang 0 = true ∧ Table.find t.dev.matrix.miss m.val = some { x with hung := true } ∧
      Logged s.dev t.dev 0x0C01 (x.master + x.target * 16)) ∧
  (∀ (s : State), timeUp s.dev.matrix.hangAt s.dev.dtime.toNat (10 ^ 9) = true →
    Completes .hangRecentClear s fun t =>
      t.dev.bit .MTX_STAT_hang_recent 0 = false ∧ t.dev.matrix = s.dev.matrix ∧
      RegsKept [] [(.MTX_STAT_hang_recent, 0)] s.dev t.dev) ∧
  (∀ (m : MMaster) (s : State), m.val = 1 → exec (.masterReset m) s = .next s) ∧
  (∀ (m : MMaster) (s : State), m.val ≠ 1 →
    Completes (.masterReset m) s fun t =>
      t.dev.matrix.held = s.dev.matrix.held.filter (fun h => h.master != m.val) ∧
      Table.find t.dev.matrix.miss m.val = none ∧ (∀ e ∈ t.dev.matrix.parked, e.2 ≠ m.val) ∧
      t.dev.matrix.txns.map (fun x => { x with passed := 0 }) = s.dev.matrix.txns.map (fun x => { x with passed := 0 }) ∧
      ((∃ x ∈ s.dev.matrix.txns, x.master = m.val ∧ x.passed < x.req.beats ∧
          (x.granted = false ∨ x.beatsBy s.dev.ticks < x.req.beats)) → t.dev.bit .MTX_EVT_rst_burst 0 = true) ∧
      (t.dev.bit .MTX_MSTAT_rst_busy m.val = true ↔ s.dev.mxOut m.val ≠ []) ∧
      ((Table.find s.dev.matrix.miss m.val).isSome = true → t.dev.bit .MTX_EVT_released 0 = true))

/-! ### Chapter 13: recorder and capture -/

/-- On R303, R304, R308, R313, R316: a producer's record enters the early ring while it has room and is dropped and
counted otherwise; the event ring's next entry follows where no engine record waits; a page that is full or has no
room for the next record, a page due for a flush and the last page of a segment are written; the commit takes its
steps in the order of R308, one command after another, and COMMITTED is reached with event 0x0D05 behind the last
Flush; a drive whose command fails is reset once and FAILED at the second failure within 60 s; the SMART log is read
every 60 s and taken. Rests in part on the model's own choices and readings, log entries 34 and 79. -/
def Obligations.RecorderWrites : Prop :=
  (∀ (reads : List CellRead) (s : State) (r : Rec) (rest : List Rec),
    s.dev.early = true → s.dev.bit .REC_STAT_ready 0 = false →
    s.dev.recr.dropped = [] → s.dev.recr.outbox = r :: rest → s.dev.recr.bootDue = false →
    Completes (.recordStage reads) s fun t =>
      if s.dev.earlyBytes + r.size ≤ 2 ^ 21 then
        t.dev.recr = { s.dev.recr with outbox := rest, staged := s.dev.recr.staged ++ [⟨r, 0, 0⟩] } ∧ t.pool = s.pool
      else
        t.dev.recr = { s.dev.recr with outbox := rest, dropped := [(4, (1, r.at_))] } ∧
        t.dev.get .REC_CNT_drops 0 = min (s.dev.get .REC_CNT_drops 0 + 1) (2 ^ Fld.REC_CNT_drops.w - 1)) ∧
  (∀ (reads : List CellRead) (s : State) (e : EvRec),
    s.dev.early = true → s.dev.bit .REC_STAT_ready 0 = false →
    s.dev.recr.outbox = [] → s.dev.recr.bootDue = false → s.dev.word .GLB_EVT_WR 0 ≠ BitVec.ofNat 32 s.dev.recr.ringPos →
    (s.dev.word .GLB_EVT_WR 0 - BitVec.ofNat 32 s.dev.recr.ringPos).toNat ≤ 4096 →
    Table.find s.dev.host.ring (s.dev.recr.ringPos % 4096) = some e →
    s.dev.earlyBytes + Rec.size ⟨e.at_, 1, false, evBytes e⟩ ≤ 2 ^ 21 →
    Completes (.recordStage reads) s fun t =>
      t.dev.recr = { s.dev.recr with
        staged := s.dev.recr.staged ++ [⟨⟨e.at_, 1, false, evBytes e⟩, 0, 0⟩]
        ringPos := (s.dev.recr.ringPos + 1) % 2 ^ 32, evWait := false }) ∧
  (∀ (reads : List CellRead) (s : State) (g : Segment),
    let need := match s.dev.nextStaged with | some e => (encodeRec e.r g.base (s.dev.recr.content e.r).1 (s.dev.recr.content e.r).2).length | none => 16
    s.dev.recr.seg = some g → g.page.isEmpty = false → g.pageIdx < 16381 →
    s.dev.bit .REC_STAT_ready 0 = true → s.dev.bit .REC_STAT_committing 0 = false →
    s.dev.bit .GLB_THERM_STAT_therm 0 = false →
    4096 < g.used + need →
    Completes (.pageWrite reads) s fun t =>
      t.dev.recr.nvme = (s.dev.recr.issue
        ⟨s.dev.segDrive, .page g.pageIdx, s.dev.slotBlock g.slot g.pageIdx, g.pageBytes, s.dev.ticks⟩).nvme ∧
      ∃ h, t.dev.recr.seg = some h ∧ h.pageIdx = g.pageIdx + 1 ∧ h.seq = g.seq ∧ h.slot = g.slot) ∧
  (∀ (s : State) (g : Segment),
    s.dev.recr.pageAt + msTicks (1000 * s.dev.get .REC_CTL_rec_flush 0) ≤ s.dev.ticks →
    s.dev.recr.seg = some g → g.pageDirty = true → s.dev.bit .REC_STAT_ready 0 = true →
    s.dev.bit .REC_STAT_committing 0 = false →
    Completes .flushInterval s fun t =>
      (let p := s.dev.recr.issue ⟨s.dev.segDrive, .page g.pageIdx, s.dev.slotBlock g.slot g.pageIdx, g.pageBytes, s.dev.ticks⟩
       t.dev.recr.nvme = (if s.dev.bit .REC_DRV_STAT_vwc s.dev.segDrive then
         p.issue ⟨s.dev.segDrive, .flushPage, none, [], s.dev.ticks⟩ else p).nvme) ∧
      ∃ h, t.dev.recr.seg = some h ∧ h.pageDirty = false ∧ h.pageIdx = g.pageIdx) ∧
  (∀ (reads : List CellRead) (s : State) (g : Segment),
    s.dev.recr.seg = some g → s.dev.recr.staged = [] → s.dev.recr.closing = true →
    s.dev.bit .REC_STAT_ready 0 = true → s.dev.bit .REC_STAT_committing 0 = false →
    Completes (.segmentCommit reads) s fun t =>
      t.dev.bit .REC_STAT_committing 0 = true ∧ t.dev.recr.closing = false ∧
      t.dev.recr.nvme = ((if g.pageDirty then s.dev.recr.issue
          ⟨s.dev.segDrive, .page g.pageIdx, s.dev.slotBlock g.slot g.pageIdx, g.pageBytes, s.dev.ticks⟩ else s.dev.recr).issue
        ⟨s.dev.segDrive, .flushA, none, [], s.dev.ticks⟩).nvme) ∧
  (∀ (k : Drive) (w next : NvmePurpose) (pre post : List NvmeCmd) (x : NvmeCmd) (s : State) (g : Segment),
    (w, next) ∈ [(.flushA, .trailerA), (.trailerA, .flushTrA), (.flushTrA, .trailerB), (.trailerB, .flushTrB)] →
    s.dev.recr.nvme = pre ++ x :: post → x.drive = k.val → x.what = w →
    (∀ c ∈ pre, c.drive = k.val → c.what = .read) → s.dev.recr.seg = some g →
    Completes (.nvmeCompletion k .ok) s fun t =>
      t.pool = s.pool ∧
      let b := s.dev.slotBlock g.slot (if next = .trailerA then 16382 else 16383)
      let tb := trailerBBytes s.dev.recr.ringId g.seq g.alive (sealOf (s.dev.trailerA g)) s.dev.now
      let data := if next = .trailerA then s.dev.trailerA g else if next = .trailerB then tb else []
      t.dev.recr.nvme = ((s.dev.recr.drop x s.dev.ticks).issue
        ⟨s.dev.segDrive, next, (if next = .trailerA ∨ next = .trailerB then b else none), data, s.dev.ticks⟩).nvme) ∧
  (∀ (r : RecSt) (c x : NvmeCmd) (now : Nat),
    ((∀ y ∈ r.nvme, y.what ≠ .read) → (r.issue c).nvme = r.nvme ++ [c]) ∧
    (∀ (y : NvmeCmd), y ∈ (r.issue c).nvme ↔ y ∈ r.nvme ∨ y = c) ∧
    (r.nvme.length ≤ 15 → (r.drop x now).nvme = r.nvme.erase x)) ∧
  (∀ (k : Drive) (pre post : List NvmeCmd) (x : NvmeCmd) (s : State) (g : Segment),
    s.dev.recr.nvme = pre ++ x :: post → x.drive = k.val → x.what = .flushTrB →
    (∀ c ∈ pre, c.drive = k.val → c.what = .read) →
    s.dev.recr.seg = some g →
    Completes (.nvmeCompletion k .ok) s fun t =>
      (Table.get t.dev.recr.index g.slot .init).st = 3 ∧ t.dev.bit .REC_EVT_seg_commit 0 = true ∧
      t.dev.recr.anchorSeq = s.dev.recr.anchorSeq + 1 ∧ Logged s.dev t.dev 0x0D05 (g.slot % 65536)) ∧
  (∀ (k : Drive) (pct warn : Byte) (duw : BitVec 64) (pre post : List NvmeCmd) (x : NvmeCmd) (s : State),
    s.dev.recr.nvme = pre ++ x :: post → x.drive = k.val → x.what = .smart →
    (∀ c ∈ pre, c.drive = k.val → c.what = .read) →
    Completes (.nvmeCompletion k (.smart pct warn duw)) s fun t =>
      t.dev.get .REC_DRV_STAT_pct_used k.val = pct.toNat ∧ t.dev.get .REC_DRV_STAT_crit_warn k.val = warn.toNat) ∧
  (∀ (k : Drive) (s : State),
    s.dev.drvState k.val = 2 →
    (∃ c ∈ s.dev.recr.posted k.val false, c.tick + msTicks 5000 ≤ s.dev.ticks) →
    Completes (.nvmeTimeout k) s fun t =>
      (Table.find s.dev.recr.resets k.val = none →
        Table.find t.dev.recr.resets k.val = some s.dev.ticks ∧ t.dev.drvState k.val = 2) ∧
      (∀ x, Table.find s.dev.recr.resets k.val = some x → s.dev.ticks < x + msTicks 60000 →
        t.dev.drvState k.val = 1 ∧ t.dev.bit .REC_EVT_drive_chg 0 = true ∧ Logged s.dev t.dev 0x0D03 k.val)) ∧
  (∀ (k : Drive) (s : State), s.dev.drvState k.val = 2 → s.dev.pdOn domRecEng = true →
    Table.get s.dev.recr.smartAt k.val 0 + msTicks 60000 ≤ s.dev.ticks →
    exec (.smartPoll k) s = .next (s.onDev (·.onRec (fun x => { x.issue ⟨k.val, .smart, none, [], s.dev.ticks⟩ with
      smartAt := Table.ins x.smartAt k.val s.dev.ticks }))))

/-- On R317, R318, R320, R322: discovery takes what it finds on each link of the root port and leaves DISCOVER; FORMAT,
RESCAN and REBUILD of a STOPPED recorder begin a new ring of an identity no drive carries, discovery and a rebuild,
and FORMAT is refused otherwise; CLOSE makes the open segment due for commit unless its commit is in progress; READ
and ANCHOR issue their Read to the drive, and it ends with status 0 and the blocks in the aperture or with the
drive's status, LOOKUP answers from the index, and CANCEL ends it with status 4. Rests in part on the model's own
choices and readings, log entries 2, 34, 78 and 79. -/
def Obligations.RecorderCommands : Prop :=
  (∀ (found : List (Option DriveInfo)) (s : State),
    s.dev.get .REC_STAT_rec_state 0 = 1 → s.dev.pdOn domRecPort = true → s.dev.pdOn domRecEng = true → found.length = 4 →
    Completes (.recorderDiscovery found) s fun t =>
      t.dev.get .REC_STAT_rec_state 0 ∈ [2, 3, 4, 5] ∧
      (∀ k, k < s.dev.rpLinks → s.dev.drvState k ≠ 1 → ∀ i, found[k]? = some (some i) →
        (Table.find t.dev.recr.drives k).map (fun j => { j with anchor := [] }) =
          some { usedDrive i with idx := [], segs := [], anchor := [] }) ∧
      (∀ k, k < 4 → s.dev.drvState k ≠ 1 → (s.dev.rpLinks ≤ k ∨ found[k]? = some none) → t.dev.drvState k = 0)) ∧
  (∀ (s : State), s.dev.recIdle = true → s.dev.rings.length + s.dev.recr.scans.length < 2 ^ 63 →
    Completes (.format 0x464D) s fun t =>
      t.dev.get .REC_STAT_rec_state 0 = (if t.dev.noRing then 5 else 4) ∧ t.dev.recr.seg = none ∧
      t.dev.recr.ringId ∉ s.dev.rings ∧ (∀ e ∈ s.dev.recr.scans, segRing e.2 ≠ t.dev.recr.ringId) ∧
      (∀ k, k < 4 → 2 ≤ s.dev.drvState k → t.dev.drvState k = 2) ∧
      (∀ j, j < s.dev.ringSlots → (Table.get t.dev.recr.index j .init).st =
        if (s.dev.slotDrive j).any (fun k => decide (k < 4) && s.dev.drvState k == 1) then 6 else 0) ∧
      t.dev.recr.anchorSeq = s.dev.recr.anchorSeq + 1 ∧
      t.dev.word .REC_RING_ID_LO 0 = t.dev.recr.ringId.setWidth 32 ∧ Logged s.dev t.dev 0x0D0F 0) ∧
  (∀ (key : BitVec 16) (s : State), (s.dev.recIdle = false ∨ key ≠ 0x464D) →
    Completes (.format key) s fun t => t.dev.bit .REC_EVT_cmd_err 0 = true ∧ OnlyRegs [(.REC_EVT_cmd_err, 0)] s t) ∧
  (∀ (s : State), s.dev.recIdle = true →
    Completes .rescan s fun t =>
      t.dev.get .REC_STAT_rec_state 0 = 1 ∧ t.dev.recr.resets = [] ∧ ∀ k, k < 4 → t.dev.drvState k ≠ 1) ∧
  (∀ (s : State), s.dev.recIdle = true → s.dev.noRing = true →
    Completes .rebuild s fun t => t.dev.get .REC_STAT_rec_state 0 = 5 ∧ t.dev.recr = s.dev.recr) ∧
  (∀ (s : State), s.dev.recIdle = true → s.dev.noRing = false →
    s.dev.presentDrives.any (fun k => !(s.dev.batchOn 0 k).isEmpty) = true →
    Completes .rebuild s fun t =>
      t.dev.get .REC_STAT_rec_state 0 = 2 ∧ t.dev.bit .REC_REBUILD_rb_busy 0 = true ∧
      t.dev.recr.rebuilding = some 0 ∧ t.dev.get .REC_REBUILD_rb_slot 0 = 0 ∧
      (∀ k ∈ s.dev.presentDrives, s.dev.batchOn 0 k ≠ [] →
        t.dev.recr.nvme.any (fun c => c.drive == k && c.what == .rebuildRead 0) = true) ∧
      (s.dev.bit ⟨.GLB_READY_FN, 8, 1⟩ 0 = false → Logged s.dev t.dev 0x0D07 0)) ∧
  (∀ (s : State), s.dev.get .REC_STAT_rec_state 0 = 3 → s.dev.running .recorder 0 = true →
    exec .close s = .next (s.onDev (·.onRec (fun x => { x with
      closing := x.closing || !s.dev.bit .REC_STAT_committing 0 })))) ∧
  (∀ (s : State) (k : Nat), s.dev.bit .REC_RD_CMD_busy 0 = false →
    s.dev.get .REC_RD_ARG0_arg0 0 < s.dev.ringSlots → s.dev.slotDrive (s.dev.get .REC_RD_ARG0_arg0 0) = some k →
    s.dev.driveKnown k = true →
    Completes .read s fun t =>
      t.dev.recr.rdOp = some 1 ∧ t.dev.bit .REC_RD_CMD_busy 0 = true ∧
      t.dev.recr.nvme = (s.dev.recr.issue ⟨k, .read,
        s.dev.slotBlock (s.dev.get .REC_RD_ARG0_arg0 0) (s.dev.get .REC_RD_ARG1_arg1 0), [], s.dev.ticks⟩).nvme ∧
      ∀ w, w < 4 → t.dev.word .REC_RD_BAD w = 0) ∧
  (∀ (s : State),
    let k := s.dev.get .REC_RD_ARG0_arg0 0
    s.dev.bit .REC_RD_CMD_busy 0 = false → s.dev.driveKnown k = true →
    Completes .anchor s fun t => t.dev.recr.rdOp = some 2 ∧ t.dev.bit .REC_RD_CMD_busy 0 = true ∧
      t.dev.recr.nvme = (s.dev.recr.issue ⟨k, .read, s.dev.anchorBlock k (s.dev.get .REC_RD_ARG1_arg1 0), [], s.dev.ticks⟩).nvme) ∧
  (∀ (s : State), s.dev.bit .REC_RD_CMD_busy 0 = false →
    Completes .lookup s fun t =>
      let a := s.dev.get .REC_RD_ARG0_arg0 0
      let hit := s.dev.recr.index.find? (fun e => 1 ≤ e.2.st && e.2.st ≤ 5 && e.2.st != 4 && e.2.first ≤ a && a ≤ e.2.last)
      t.dev.bit .REC_RD_RES_found 0 = hit.isSome ∧
      (∀ e, hit = some e → t.dev.get .REC_RD_RES_slot 0 = e.1 % 2 ^ Fld.REC_RD_RES_slot.w) ∧
      t.dev.get .REC_RD_CMD_status 0 = 0 ∧ t.dev.bit .REC_EVT_read_done 0 = true) ∧
  (∀ (s : State), s.dev.bit .REC_RD_CMD_busy 0 = true →
    Completes .readCancel s fun t =>
      t.dev.bit .REC_RD_CMD_busy 0 = false ∧ t.dev.get .REC_RD_CMD_status 0 = 4 ∧ t.dev.recr.rdOp = none) ∧
  (∀ (blocks : List (List Byte)) (sc : BitVec 16) (s : State) (op : Nat) (c : NvmeCmd),
    s.dev.recr.rdOp = some op → s.dev.readOut = some c →
    Completes (.readComplete blocks sc) s fun t =>
      t.dev.bit .REC_RD_CMD_busy 0 = false ∧ t.dev.recr.rdOp = none ∧
      (sc = 0 → t.dev.get .REC_RD_CMD_status 0 = 0 ∧
        t.dev.recr.aper = blocks.take (min (s.dev.get .REC_RD_CMD_count 0) 128) ++
          s.dev.recr.aper.drop (blocks.take (min (s.dev.get .REC_RD_CMD_count 0) 128)).length) ∧
      (sc ≠ 0 → t.dev.get .REC_RD_CMD_status 0 = 2 ∧ t.dev.get .REC_RD_CMD_sc 0 = sc.toNat) ∧
      (sc.getLsbD 14 = true → s.dev.drvState c.drive = 2 → Table.find s.dev.recr.resets c.drive = none →
        Table.find t.dev.recr.resets c.drive = some s.dev.ticks))

/-- On R323–R326: the life of a capture slot: ARM to WAIT, admission to FILLING (with `pre` 0 to ARMED), frames counted
into it and ARMED after `pre` of them, a trigger to POST, POST to COPYING with the queue rewound to its mark, or to
the first whole frame left where the mark was lost, and the header with its fragment count and the frames due for
staging, the last fragment to DONE, and DISARM to DONE at once or, in COPYING, after the copy. Rests in part on the
model's own choices and readings, log entries 35 and 100. -/
def Obligations.CaptureSlots : Prop :=
  (∀ (k : CapSlot) (s : State), (s.dev.cs k.val = 0 ∨ s.dev.cs k.val = 6) → s.dev.running .cslot k.val = true →
    s.dev.bit .REC_CS_CFG_en k.val = true → s.dev.pdOn domCapt = true →
    Completes (.arm k) s fun t => t.dev.cs k.val = 1 ∧ t.pool = s.pool) ∧
  (∀ (k : CapSlot) (s : State), s.dev.cs k.val = 1 →
    Completes (.captureAdmit k) s fun t =>
      if s.dev.capCauses k.val = 0 then
        t.dev.cs k.val = (if s.dev.get .REC_CS_DEPTH_pre k.val = 0 then 3 else 2) ∧ (t.dev.cap k.val).frames = 0 ∧
        (t.dev.cap k.val).size = s.dev.capBytes (s.dev.capChan k.val) ∧ t.dev.get .REC_CS_STAT_cause k.val = 0
      else t.dev.cs k.val = 1 ∧ t.dev.cap k.val = s.dev.cap k.val) ∧
  (∀ (k : CapSlot) (data : List Byte) (s : State) (q : Nat),
    (s.dev.cs k.val = 2 ∨ s.dev.cs k.val = 3 ∨ s.dev.cs k.val = 4) → s.dev.running .cslot k.val = true →
    s.dev.bit .REC_CS_CFG_en k.val = true → s.dev.capCauses k.val = 0 → s.dev.capQueue k.val = some q →
    s.dev.pdOn domCapt = true →
    Completes (.captureFrame k data) s fun t =>
      (t.dev.cap k.val).frames = (s.dev.cap k.val).frames + 1 ∧
      (t.dev.cap k.val).wbuf.length = ((s.dev.cap k.val).wbuf.length + (s.dev.cap k.val).size) % 448 ∧
      t.dev.cs k.val = (if s.dev.cs k.val = 2 ∧ s.dev.get .REC_CS_DEPTH_pre k.val ≤ (s.dev.cap k.val).frames + 1 then 3
        else s.dev.cs k.val)) ∧
  (∀ (k : CapSlot) (at_ : DTime) (s : State) (q : Nat),
    s.dev.running .cslot k.val = true → s.dev.bit .REC_CS_CFG_en k.val = true → s.dev.capCauses k.val = 0 →
    s.dev.capQueue k.val = some q → (s.dev.cs k.val = 2 ∨ s.dev.cs k.val = 3) →
    (s.dev.capTriggers k.val at_ = true →
      Completes (.captureTrigger k at_) s fun t =>
        t.dev.cs k.val = 4 ∧ (t.dev.cap k.val).trig = (s.dev.cap k.val).frameAt at_ ∧ (t.dev.cap k.val).trigAt = at_ ∧
        t.dev.bit .REC_EVT_capture 0 = true ∧ Logged s.dev t.dev 0x0D0C k.val) ∧
    (s.dev.get .REC_CS_CFG_trig_kind k.val = 0 →
      Completes (.trigger k) s fun t =>
        t.dev.cs k.val = 4 ∧ (t.dev.cap k.val).trig = (s.dev.cap k.val).frameAt s.dev.dtime ∧
        (t.dev.cap k.val).trigAt = s.dev.dtime ∧ t.dev.bit .REC_EVT_capture 0 = true ∧
        Logged s.dev t.dev 0x0D0C k.val)) ∧
  (∀ (k : CapSlot) (s : State) (q : Nat),
    s.dev.cs k.val = 4 → (s.dev.cap k.val).trig + s.dev.get .REC_CS_DEPTH_post k.val < (s.dev.cap k.val).frames →
    s.dev.capQueue k.val = some q → q < 4096 →
    Completes (.capturePostDone k) s fun t =>
      let c := s.dev.cap k.val
      let lost := !s.dev.bit .CPL_Q_STAT_mark_valid q
      let first := if lost then max c.first (s.dev.capWhole k.val q c.size) else c.first
      let n := if c.size = 0 then 0 else min (c.trig + s.dev.get .REC_CS_DEPTH_post k.val + 1) c.frames - first
      let poison := t.capPoison k.val q c.size n
      let h := s.dev.capHeader k.val (s.dev.get .REC_CS_LAST_pre_got k.val) (2 * bitNat lost + 4 * bitNat poison) (BitVec.ofNat 32 (s.dev.capFrags n c.size))
      t.dev.cs k.val = 5 ∧ (s.dev.bit .CPL_Q_STAT_mark_valid q = true → t.dev.qRd q = s.dev.qMark q) ∧
      (t.dev.cap k.val).first = first ∧ t.dev.bit .REC_CS_LAST_truncated k.val = false ∧
      t.dev.bit .REC_CS_LAST_poison k.val = poison ∧
      t.dev.recr.capBox = s.dev.recr.capBox ++ CopyItem.header k.val h :: (t.dev.capFrames k.val n).map CopyItem.frame) ∧
  (∀ (k : CapSlot) (s : State),
    s.dev.cs k.val = 5 →
    s.dev.recr.capBox.any (fun i => match i with | .header j _ => j == k.val | .frame f => f.slot == k.val) = false →
    Completes (.captureCopyDone k) s fun t =>
      t.dev.bit .REC_EVT_capture 0 = true ∧
      t.dev.get .REC_CS_CNT_captures k.val =
        min (s.dev.get .REC_CS_CNT_captures k.val + 1) (2 ^ Fld.REC_CS_CNT_captures.w - 1) ∧
      ((s.dev.cap k.val).after = none → s.dev.bit .REC_CS_CFG_rearm k.val = false →
        s.dev.running .cslot k.val = true → s.dev.bit .REC_CS_CFG_en k.val = true → s.dev.capFails k.val = 0 →
        t.dev.cs k.val = 6)) ∧
  (∀ (k : CapSlot) (s : State), s.dev.running .cslot k.val = true → s.dev.bit .REC_CS_CFG_en k.val = true →
    s.dev.pdOn domCapt = true →
    Completes (.disarm k) s fun t =>
      (s.dev.cs k.val ≠ 4 → s.dev.cs k.val ≠ 5 → t.dev.cs k.val = 6) ∧
      (s.dev.cs k.val = 5 → t.dev.cs k.val = 5 ∧ (t.dev.cap k.val).after = some 6))

/-! ### Chapter 14: host port, unit control -/

/-- On R13, R331, R332, R337: a 4-byte write sets RW bits, clears the W1C bits written as 1, puts RWS bits into the
shadow and leaves every other bit of the device alone; a read returns the word and its RC bits to their reset value;
a read of a _LO half latches its _HI half, which the next read of that half returns; an access of 8 bytes is two of
4; one of another size or alignment or in D3hot, or one that finds the host port stalled, does nothing but complete.
Rests in part on the model's own choices and readings, log entries 14, 18 and 103. -/
def Obligations.HostAccesses : Prop :=
  (∀ (off : BitVec 26) (v : BitVec 64) (s : State) (r : Reg) (i : Nat),
    s.dev.reaches off.toNat r i → r.absent i = false → actingRegs.contains r = false →
    Completes (.registerWrite (.bar0 off 4) v) s fun t =>
      t = { s with dev := { s.dev with
        regs := t.dev.regs, shadow := t.dev.shadow, host := { s.dev.host with completion := .successful } } } ∧
      RegsKept [] [wholeWord r i] s.dev t.dev ∧
      (∀ (q : Reg) (j : Nat), j < 2 ^ 20 → q ≠ r ∨ j ≠ i → t.dev.shWord q j = s.dev.shWord q j) ∧
      ∀ b, b < 32 →
        (t.dev.word r i).getLsbD b = (if (r.bitsOf .w1c).getLsbD b && v.getLsbD b then false
          else if (r.bitsOf .rw).getLsbD b then v.getLsbD b else (s.dev.word r i).getLsbD b) ∧
        (t.dev.shWord r i).getLsbD b =
          (if (r.bitsOf .rws).getLsbD b then v.getLsbD b else (s.dev.shWord r i).getLsbD b)) ∧
  (∀ (off : BitVec 26) (n : Nat) (v : BitVec 64) (s : State), s.dev.sys.held = false →
    (barSize off.toNat n = false ∨ s.dev.takesMem n = false) →
    exec (.registerWrite (.bar0 off n) v) s = .next (s.onDev (·.complete .unsupported)) ∧
    exec (.readClear off n) s = .next (s.onDev (·.returned 0 .unsupported))) ∧
  (∀ (off : BitVec 26) (n : Nat) (v : BitVec 64) (s : State), s.dev.sys.held = false → barSize off.toNat n = true →
    s.dev.takesMem n = true → s.dev.hostAborts off.toNat = true →
    exec (.registerWrite (.bar0 off n) v) s = .next (s.onDev (·.complete .aborted)) ∧
    exec (.readClear off n) s = .next (s.onDev (·.returned 0 .aborted))) ∧
  (∀ (v : BitVec 64) (s : State), s.dev.sys.held = false →
    Completes (.registerWrite .busMasterEnable v) s fun t =>
      t.dev.bit .GLB_HOST_STAT_bme 0 = v.getLsbD 0 ∧ t.pool = s.pool ∧
      RegsKept [.GLB_MSIX_PBA] [(.GLB_HOST_STAT_bme, 0)] s.dev t.dev) ∧
  (∀ (c : WriteTarget) (v : BitVec 64) (s : State), s.dev.sys.held = false →
    c ∈ [WriteTarget.bar0Base, .bar2Base, .powerState, .maxPayload, .aerStatus] →
    Completes (.registerWrite c v) s fun t =>
      t.dev.host.cfg = s.dev.host.cfg.write c v ∧ t.pool = s.pool ∧ RegsKept [.GLB_MSIX_PBA] [] s.dev t.dev) ∧
  (∀ (off : BitVec 26) (v : BitVec 64) (s : State) (r r' : Reg) (i i' : Nat),
    off.toNat % 8 = 0 → s.dev.reaches off.toNat r i → s.dev.reaches (off.toNat + 4) r' i' →
    r.absent i = false → r'.absent i' = false → actingRegs.contains r = false → actingRegs.contains r' = false →
    Completes (.registerWrite (.bar0 off 4) v) s fun t =>
      exec (.registerWrite (.bar0 off 8) v) s = exec (.registerWrite (.bar0 (off + 4) 4) (v >>> 32)) t) ∧
  (∀ (off : BitVec 26) (s : State) (r r' : Reg) (i i' : Nat),
    off.toNat % 8 = 0 → s.dev.reaches off.toNat r i → s.dev.reaches (off.toNat + 4) r' i' →
    Completes (.readClear off 4) s fun t => Completes (.readClear (off + 4) 4) t fun u =>
      exec (.readClear off 8) s =
        .next (u.onDev (·.returned (t.dev.host.rdata ||| (u.dev.host.rdata <<< 32)) .successful))) ∧
  (∀ (off : BitVec 26) (s : State) (r : Reg) (i : Nat),
    s.dev.reaches off.toNat r i → Table.find s.dev.host.latched (r.key i) = none →
    Completes (.readClear off 4) s fun t =>
      t.dev.host.rdata = (s.dev.readWord r i).setWidth 64 ∧ t.dev.host.completion = .successful ∧
      t = { s with dev := { s.dev with regs := t.dev.regs, host := t.dev.host } } ∧
      RegsKept [] [wholeWord r i] s.dev t.dev ∧
      ∀ b, b < 32 → (t.dev.word r i).getLsbD b =
        (if (r.bitsOf .rc).getLsbD b then (r.resetWord i).getLsbD b else (s.dev.word r i).getLsbD b)) ∧
  (∀ (off : BitVec 26) (s : State) (r h : Reg) (i : Nat),
    s.dev.reaches off.toNat r i → Table.find s.dev.host.latched (r.key i) = none → r.hiOf = some h →
    Completes (.readLoLatch off) s fun t =>
      t.dev.host.rdata = (s.dev.readWord r i).setWidth 64 ∧
      Table.find t.dev.host.latched (h.key i) = some (s.dev.readWord h i)) ∧
  (∀ (off : BitVec 26) (s : State) (r : Reg) (i : Nat) (v : Word),
    s.dev.reaches off.toNat r i → Table.find s.dev.host.latched (r.key i) = some v →
    Completes (.readClear off 4) s fun t =>
      t.dev.host.rdata = v.setWidth 64 ∧ Table.find t.dev.host.latched (r.key i) = none)

/-- On R332–R336, R347: a moderation time ends not before its time, and then an event that arrived in it leaves as one
message, or as a pending bit where the vector is masked; an access without a response within host_to aborts, sets
host_stalled and is logged; PERST and a Function Level Reset return the HOST registers to reset, the latter with the
link up; the link's state and its events; the I2C target, at its address alone, reads registers without effect on
them and takes writes at 0x0034 alone. Rests in part on the model's own choices and readings, log entries 14, 18, 19
and 103. -/
def Obligations.HostPortEvents : Prop :=
  (∀ (v : Fin 64) (s : State), s.dev.moderated v.val = true → exec (.msixModerationEnd v) s = .next s) ∧
  (∀ (v : Fin 64) (s : State), Table.get s.dev.host.modWait v.val false = true → s.dev.moderated v.val = false →
    s.dev.bit .GLB_HOST_STAT_bme 0 = true → s.dev.bit .GLB_HOST_STAT_msix_en 0 = true →
    Completes (.msixModerationEnd v) s fun t =>
      Table.get t.dev.host.modWait v.val false = false ∧
      (s.dev.host.cfg.d3hot = true → t.dev.host.msixSent = s.dev.host.msixSent) ∧
      (s.dev.host.cfg.d3hot = false → s.dev.host.fnMask = false → (s.dev.word .GLB_MSIX_TABLE (v.val * 4 + 3)).getLsbD 0 = false →
        Table.get t.dev.host.msixSent v.val 0 = Table.get s.dev.host.msixSent v.val 0 + 1 ∧
        (t.dev.word .GLB_MSIX_PBA (v.val / 32)).getLsbD (v.val % 32) = false ∧
        RegsKept [] [(⟨.GLB_MSIX_PBA, v.val % 32, 1⟩, v.val / 32)] s.dev t.dev) ∧
      (s.dev.host.cfg.d3hot = false → (s.dev.word .GLB_MSIX_TABLE (v.val * 4 + 3)).getLsbD 0 = true →
        t.dev.host.msixSent = s.dev.host.msixSent ∧
        (t.dev.word .GLB_MSIX_PBA (v.val / 32)).getLsbD (v.val % 32) = true)) ∧
  (∀ (v : Fin 64) (s : State), Table.get s.dev.host.modWait v.val false = false → s.dev.moderated v.val = false →
    Completes (.msixModerationEnd v) s fun t =>
      t.dev.host.msixSent = s.dev.host.msixSent ∧ t.dev.regs = s.dev.regs ∧
      Table.get t.dev.host.modUntil v.val 0 = 0) ∧
  (∀ (x : BitVec 4) (s : State), s.dev.hostOverdue x.toNat = true →
    Completes (.hostAccessTimeout x) s fun t =>
      t.dev.host.completion = .aborted ∧ t.dev.bit .GLB_HOST_STAT_host_stalled 0 = true ∧
      Logged s.dev t.dev 0x0E07 x.toNat ∧ OnlyRegsAndEvents [(.GLB_HOST_STAT_host_stalled, 0)] s t) ∧
  (∀ (s : State), s.dev.sys.held = false →
    Completes .perst s fun t =>
      Logged s.dev t.dev 0x0E06 0 ∧ t.pool.mem = s.pool.mem ∧ t.dev.host.cfg = .init ∧
      ∀ (r : Reg) (i : Nat), i < 2 ^ 20 → r.info.dom = .host → evRegs.contains r = false → t.dev.word r i = r.resetWord i) ∧
  (∀ (s : State), s.dev.sys.held = false →
    Completes .functionLevelReset s fun t =>
      t.dev.bit .GLB_HOST_STAT_link_up 0 = s.dev.bit .GLB_HOST_STAT_link_up 0 ∧
      t.dev.bit .GLB_HOST_STAT_host_stalled 0 = false ∧ t.dev.bit .GLB_HOST_STAT_bme 0 = false ∧ t.pool.mem = s.pool.mem ∧
      t.dev.host.cfg = { PciCfg.init with mps := s.dev.host.cfg.mps } ∧
      (s.dev.mxOut 0 = [] → Table.find s.dev.matrix.miss 0 = none → Logged s.dev t.dev 0x0E08 0) ∧
      ∀ (r : Reg) (i : Nat), i < 2 ^ 20 → r.info.dom = .host → evRegs.contains r = false → r ≠ .GLB_HOST_STAT →
        t.dev.word r i = r.resetWord i) ∧
  (∀ (speed : BitVec 3) (width : BitVec 2) (s : State), s.dev.sys.held = false →
    Completes (.pcieLinkUp speed width) s fun t =>
      t.dev.bit .GLB_HOST_STAT_link_up 0 = true ∧ t.dev.get .GLB_HOST_STAT_speed 0 = speed.toNat ∧
      t.dev.get .GLB_HOST_STAT_width 0 = width.toNat ∧ Logged s.dev t.dev 0x0E05 (speed.toNat + width.toNat * 16) ∧
      OnlyRegsAndEvents [(.GLB_HOST_STAT_link_up, 0), (.GLB_HOST_STAT_speed, 0), (.GLB_HOST_STAT_width, 0),
        (.GLB_CLK_STAT_host_lock, 0)] s t) ∧
  (∀ (s : State), s.dev.bit .GLB_HOST_STAT_link_up 0 = true →
    Completes .pcieLinkDown s fun t =>
      t.dev.bit .GLB_HOST_STAT_link_up 0 = false ∧ Logged s.dev t.dev 0x0E06 0 ∧
      OnlyRegsAndEvents [(.GLB_HOST_STAT_link_up, 0), (.GLB_HOST_STAT_speed, 0), (.GLB_HOST_STAT_width, 0)] s t) ∧
  (∀ (p : BitVec 5) (s : State),
    Completes (.pcieUncorrectableError p) s fun t =>
      t.dev.host.cfg = { s.dev.host.cfg with
        aerStatus := s.dev.host.cfg.aerStatus ||| BitVec.ofNat 32 (2 ^ p.toNat), aerFirst := p } ∧ OnlyRegsAndEvents [] s t ∧
      (if s.dev.admits (evKey 0x0E09 0) 1 then Logged s.dev t.dev 0x0E09 p.toNat else t.dev.regs = s.dev.regs)) ∧
  (∀ (adr : BitVec 7) (n : Nat) (off : BitVec 16) (data : List Byte) (s : State),
    (s.dev.sys.held = true ∨ adr.toNat ≠ 0x58 + s.dev.sys.mgtAddr.toNat) →
    exec (.i2cRead adr n) s = .next s ∧ exec (.i2cWrite adr off data) s = .next s) ∧
  (∀ (adr : BitVec 7) (n : Nat) (s : State), s.dev.i2cMine adr = true →
    Completes (.i2cRead adr n) s fun t =>
      t.dev.host.i2cOut.length = n ∧ t.dev.regs = s.dev.regs ∧ t.dev.host.i2cNack = false ∧ t.pool = s.pool ∧
      (n = 4 → s.dev.host.i2cOff % 4 = 0 → s.dev.host.i2cOff < 0x200 → s.dev.host.i2cOff ≠ 0x24 →
        t.dev.host.i2cOut = leBytes 4 (s.dev.i2cWord s.dev.host.i2cOff).toNat) ∧
      (n = 4 → s.dev.host.i2cOff % 4 = 0 → 0x200 ≤ s.dev.host.i2cOff → t.dev.host.i2cOut = [0, 0, 0, 0]) ∧
      (n = 8 → s.dev.host.i2cOff = 0x20 →
        t.dev.host.i2cOut = leBytes 4 (s.dev.i2cWord 0x20).toNat ++ leBytes 4 (s.dev.i2cWord 0x24).toNat)) ∧
  (∀ (adr : BitVec 7) (off : BitVec 16) (data : List Byte) (s : State), s.dev.i2cMine adr = true →
    Completes (.i2cWrite adr off data) s fun t =>
      t.dev.host.i2cOff = off.toNat ∧ t.pool = s.pool ∧
      (off = 0x34 → data.length = 4 → t.dev.host.i2cRd =
          (leVal data + ((s.dev.word .GLB_EVT_WR 0 - BitVec.ofNat 32 (leVal data)).toNat - 4096)) % 2 ^ 32 ∧ t.dev.host.i2cNack = false) ∧
      (data = [] → t.dev.host.i2cRd = s.dev.host.i2cRd ∧ t.dev.host.i2cNack = false) ∧
      (off ≠ 0x34 → data ≠ [] → t.dev.host.i2cNack = true ∧
        (s.dev.admits (evKey 0x0E0A 0) 1 = true → Logged s.dev t.dev 0x0E0A off.toNat)))

/-- On R33, R338, R340, R341, R342: STOP and START take a unit out of RUN and out of STOPPED, COMMIT of a STOPPED unit
copies its shadow words to the active ones, or is rejected with its reason and changes none; an operation on a unit
that does not exist, on a bond member, at the wrong state, or while the device stops the unit itself, shows its
result and does nothing more; GLB_UC_CMD puts an operation to the engine, which discards another while it is busy;
UNIT_STOPPED and UNIT_RUN end STOPPING and STARTING with event 0x0E01. Rests in part on the model's own choices and
readings, log entries 23 and 24. -/
def Obligations.UnitOperations : Prop :=
  (∀ (u : UnitId) (s : State),
    s.dev.takesOp 1 u = true → s.dev.unitExists u false = true → s.dev.memberOp u = false →
    Completes (.stop u) s fun t =>
      t.dev.get .GLB_UC_STAT_result 0 = 0 ∧
      ((s.dev.ust u.cls u.idx = 0 ∨ s.dev.ust u.cls u.idx = 3) →
        (waitsToStop u.cls = true → t.dev.ust u.cls u.idx = 1) ∧
        (waitsToStop u.cls = false → t.dev.ust u.cls u.idx = 1 ∨ t.dev.ust u.cls u.idx = 2) ∧
        (u.cls = .fctx → t.dev.ust u.cls u.idx = 2 ∧ Logged s.dev t.dev 0x0E01 (unitArg u.cls u.idx))) ∧
      (s.dev.ust u.cls u.idx = 1 ∨ s.dev.ust u.cls u.idx = 2 → t.dev.ust u.cls u.idx = s.dev.ust u.cls u.idx ∧
        t.pool = s.pool)) ∧
  (∀ (u : UnitId) (s : State),
    (s.dev.takesOp 1 u = true → s.dev.unitExists u false = false →
      Completes (.stop u) s fun t => t.dev.get .GLB_UC_STAT_result 0 = 3 ∧ UcRefused u s t) ∧
    (s.dev.takesOp 2 u = true → s.dev.unitExists u true = false →
      Completes (.commit u) s fun t => t.dev.get .GLB_UC_STAT_result 0 = 3 ∧ UcRefused u s t) ∧
    (s.dev.takesOp 3 u = true → s.dev.unitExists u false = false →
      Completes (.start u) s fun t => t.dev.get .GLB_UC_STAT_result 0 = 3 ∧ UcRefused u s t)) ∧
  (∀ (u : UnitId) (s : State), s.dev.unitExists u false = true → s.dev.memberOp u = true →
    (s.dev.takesOp 1 u = true → Completes (.stop u) s fun t =>
      t.dev.get .GLB_UC_STAT_result 0 = 4 ∧ t.dev.get .GLB_UC_STAT_reason 0 = 0x0A ∧ UcRefused u s t) ∧
    (s.dev.takesOp 2 u = true → Completes (.commit u) s fun t =>
      t.dev.get .GLB_UC_STAT_result 0 = 4 ∧ t.dev.get .GLB_UC_STAT_reason 0 = 0x0A ∧
      Logged s.dev t.dev 0x020F (u.idx + 0xA00) ∧ OnlyRegsAndEvents (ucFields u) s t) ∧
    (s.dev.takesOp 3 u = true → Completes (.start u) s fun t =>
      t.dev.get .GLB_UC_STAT_result 0 = 4 ∧ t.dev.get .GLB_UC_STAT_reason 0 = 0x0A ∧ UcRefused u s t)) ∧
  (∀ (u : UnitId) (s : State), s.dev.ucBusy = true →
    (s.dev.host.ucOp ≠ some (1, u) → Completes (.stop u) s fun t =>
      t.dev.bit .GLB_UC_STAT_uc_overrun 0 = true ∧ OnlyRegs [(.GLB_UC_STAT_uc_overrun, 0)] s t) ∧
    (s.dev.host.ucOp ≠ some (2, u) → Completes (.commit u) s fun t =>
      t.dev.bit .GLB_UC_STAT_uc_overrun 0 = true ∧ OnlyRegs [(.GLB_UC_STAT_uc_overrun, 0)] s t) ∧
    (s.dev.host.ucOp ≠ some (3, u) → Completes (.start u) s fun t =>
      t.dev.bit .GLB_UC_STAT_uc_overrun 0 = true ∧ OnlyRegs [(.GLB_UC_STAT_uc_overrun, 0)] s t)) ∧
  (∀ (u : UnitId) (s : State), s.dev.devBusy u = true →
    (s.dev.ucTakes 1 u = true → Completes (.stop u) s fun t => t.dev.get .GLB_UC_STAT_result 0 = 2 ∧ UcRefused u s t) ∧
    (s.dev.ucTakes 2 u = true → Completes (.commit u) s fun t => t.dev.get .GLB_UC_STAT_result 0 = 2 ∧ UcRefused u s t) ∧
    (s.dev.ucTakes 3 u = true → Completes (.start u) s fun t => t.dev.get .GLB_UC_STAT_result 0 = 2 ∧ UcRefused u s t)) ∧
  (∀ (off : BitVec 26) (v : BitVec 64) (s : State),
    let op := Fld.GLB_UC_CMD_op.of (v.setWidth 32)
    let cls := Fld.GLB_UC_CMD_class.of (v.setWidth 32)
    let idx := Fld.GLB_UC_CMD_index.of (v.setWidth 32)
    s.dev.reaches off.toNat .GLB_UC_CMD 0 → op ≠ 0 →
    Completes (.registerWrite (.bar0 off 4) v) s fun t =>
      (s.dev.ucBusy = true → t.dev.host.ucOp = s.dev.host.ucOp ∧ t.dev.bit .GLB_UC_STAT_uc_overrun 0 = true ∧
        OnlyRegsAndEvents [(.GLB_UC_STAT_uc_overrun, 0)] s t) ∧
      (s.dev.ucBusy = false → ∀ c, uclassOfCode cls = some c →
        t.dev.host.ucOp = some (op, ⟨c, idx⟩) ∧ t.dev.ucBusy = true ∧ OnlyRegsAndEvents [(.GLB_UC_STAT_uc_busy, 0)] s t) ∧
      (s.dev.ucBusy = false → uclassOfCode cls = none →
        t.dev.get .GLB_UC_STAT_result 0 = 3 ∧ Logged s.dev t.dev 0x0E03 (cls * 4096 + idx))) ∧
  (∀ (u : UnitId) (s : State),
    let p := s.dev.pin u
    s.dev.takesOp 2 u = true → s.dev.unitExists u true = true → s.dev.memberOp u = false → s.dev.unitStopped u = true →
    p.unitCheck (p.candidate u) u = none →
    Completes (.commit u) s fun t =>
      t.dev.get .GLB_UC_STAT_result 0 = 0 ∧ t.dev.ust u.cls u.idx = 2 ∧
      (u.cls ≠ .queue → (u.cls = .trib → s.dev.shGet .ODU_CFG_kind u.idx ≠ 0) →
        ∀ (r : Reg) (i : Nat), i < 2 ^ 20 → r.info.dom = .unit → s.dev.ownsWord u (s.dev.lineSet u) r i = true →
          t.dev.word r i = s.dev.shWord r i) ∧
      (u.cls = .queue →
        t.dev.get .CPL_Q_QUOTA_quota u.idx = s.dev.shGet .CPL_Q_QUOTA_quota u.idx ∧
        t.dev.get .CPL_Q_CFG_en u.idx = s.dev.shGet .CPL_Q_CFG_en u.idx ∧ t.dev.get .CPL_Q_CFG_flush u.idx = 0) ∧
      (u.cls = .trib → s.dev.shGet .ODU_CFG_kind u.idx = 0 → t.dev.trState u.idx = 0 ∧ t.dev.kind u.idx = 0) ∧
      ((u.cls = .cslot ∨ u.cls = .recorder ∨ u.cls = .pairagent) →
        Logged s.dev t.dev 0x0E02 (unitArg u.cls u.idx))) ∧
  (∀ (u : UnitId) (s : State) (c : Nat),
    let p := s.dev.pin u
    s.dev.takesOp 2 u = true → s.dev.unitExists u true = true → s.dev.memberOp u = false → s.dev.unitStopped u = true →
    p.unitCheck (p.candidate u) u = some c →
    Completes (.commit u) s fun t =>
      t.dev.get .GLB_UC_STAT_result 0 = 4 ∧ t.dev.get .GLB_UC_STAT_reason 0 = c % 2 ^ Fld.GLB_UC_STAT_reason.w ∧
      (u.cls = .trib → Logged s.dev t.dev 0x0606 u.idx) ∧ OnlyRegsAndEvents (ucFields u) s t) ∧
  (∀ (u : UnitId) (s : State),
    s.dev.takesOp 2 u = true → s.dev.unitExists u true = true → s.dev.memberOp u = false → s.dev.unitStopped u = false →
    Completes (.commit u) s fun t => t.dev.get .GLB_UC_STAT_result 0 = 1 ∧ UcRefused u s t) ∧
  (∀ (u : UnitId) (s : State),
    s.dev.takesOp 3 u = true → s.dev.unitExists u false = true → s.dev.memberOp u = false →
    Completes (.start u) s fun t =>
      (s.dev.ust u.cls u.idx = 2 → t.dev.get .GLB_UC_STAT_result 0 = 0 ∧
        t.dev.ust u.cls u.idx = (match u.cls with
          | .channel => 3
          | .bond => 3
          | .queue => if s.dev.bit .CPL_POOL_STAT_pool_ready 0 then 0 else 3
          | .trib => 0 | .pgroup => 0 | .fctx => 0 | .cslot => 0 | .recorder => 0 | .pairagent => 0) ∧
        ((u.cls = .pgroup ∨ u.cls = .fctx ∨ u.cls = .cslot ∨ u.cls = .recorder ∨ u.cls = .pairagent) →
          Logged s.dev t.dev 0x0E01 (unitArg u.cls u.idx))) ∧
      (s.dev.ust u.cls u.idx = 1 → t.dev.get .GLB_UC_STAT_result 0 = 1 ∧ UcRefused u s t) ∧
      (s.dev.ust u.cls u.idx = 0 → t.dev.get .GLB_UC_STAT_result 0 = 0 ∧ t.dev.ust u.cls u.idx = 0 ∧ t.pool = s.pool)) ∧
  (∀ (u : UnitId) (s : State), u.idx < uclassCount u.cls → s.dev.ust u.cls u.idx = 1 → s.dev.stopDone u = true →
    (s.dev.boot.begun = true ∨ (s.dev.inStage 8 = false ∧ s.dev.inStage 9 = false) ∨ (u.cls ≠ .recorder ∧ u.cls ≠ .pairagent)) →
    Completes (.unitStopped u) s fun t =>
      t.dev.ust u.cls u.idx = 2 ∧ Logged s.dev t.dev 0x0E01 (unitArg u.cls u.idx)) ∧
  (∀ (u : UnitId) (s : State), u.cls = .queue → u.idx < 4096 → s.dev.ust .queue u.idx = 3 →
    s.dev.bit .CPL_POOL_STAT_pool_ready 0 = true →
    Completes (.unitRun u) s fun t => t.dev.ust .queue u.idx = 0 ∧ Logged s.dev t.dev 0x0E01 (unitArg .queue u.idx)) ∧
  (∀ (u : UnitId) (s : State), (u.cls = .channel ∨ u.cls = .bond) → u.idx < 192 → s.dev.lineUnit u.idx = u →
    s.dev.lineUst u.idx = 3 → (s.dev.chan u.idx).domReady = true → (s.dev.unitQuads u.idx).all s.dev.quadLocked = true →
    Completes (.unitRun u) s fun t => t.dev.ust u.cls u.idx = 0 ∧ Logged s.dev t.dev 0x0E01 (unitArg u.cls u.idx))

/-! ### Chapter 15: start-up -/

/-- On R357–R361: each stage ends where its condition holds and opens the next one: S0 on a locked root PLL, S1 with the
fused key hash, the host PLL and the event ring, S2 with the image chosen, or a halt once none is left, S3 with the
firmware of the image or an internal system reset, S4 with its ready bit, S5 and S6 with their batches and sites
done, S7 with the pool ready, S8 with the recorder's state known, S9 with start_done; S0 stays open without the lock.
Rests in part on the model's own choices and readings, log entries 13, 21, 22 and 104. -/
def Obligations.StagesEnd : Prop :=
  (∀ (w : StageWork) (s : State), s.dev.inStage 0 = true → w.jnlFail = false →
    Completes (.stageEnd w) s fun t =>
      (s.dev.rootState = 1 → t.dev.inStage 1 = true ∧ t.dev.get .BOOT_AON_last_stage 0 = 1 ∧
        t.dev.bit .BOOT_AON_last_done 0 = false ∧ Logged s.dev t.dev 0x0102 0) ∧
      (s.dev.rootState ≠ 1 → t = s)) ∧
  (∀ (w : StageWork) (s : State), s.dev.inStage 1 = true → w.jnlFail = false →
    Completes (.stageEnd w) s fun t =>
      t.dev.ringUsable = true ∧ t.dev.host.early = [] ∧ t.dev.boot.keyHash = w.fusedHash ∧
      t.dev.bit .GLB_CLK_STAT_host_lock 0 = true ∧ t.dev.stage = 2 ∧
      (w.avsOk = true → t.dev.get .GLB_AVS_STAT_vdd_cmd 0 = w.avs % 2 ^ Fld.GLB_AVS_STAT_vdd_cmd.w) ∧
      (flashSizeOk w.flashSize = true → t.dev.inStage 2 = true ∧ t.dev.boot.flashSize = w.flashSize) ∧
      (flashSizeOk w.flashSize = false → t.dev.boot.open_ = false ∧ t.dev.get .BOOT_STAT_state 0 = 2)) ∧
  (∀ (w : StageWork) (s : State), s.dev.inStage 2 = true → w.jnlFail = false →
    Completes (.stageEnd w) s fun t =>
      (∀ (slot : Nat) (i : Image), s.dev.candidates.head? = some slot → s.dev.readImage slot = .ok i →
        t.dev.inStage 3 = true ∧ t.dev.boot.image = some i ∧ t.dev.bit ⟨.GLB_READY_FN, 2, 1⟩ 0 = true) ∧
      (∀ slot, s.dev.boot.image = none → s.dev.candidates = [slot] → ∀ r, s.dev.readImage slot = .error r →
        t.dev.boot.open_ = false ∧ t.dev.get .BOOT_STAT_state 0 = 2 ∧ t.dev.boot.image = none ∧
        (t.dev.get .BOOT_IMG_BAD_bad 0).testBit slot = true) ∧
      (s.dev.candidates = [] → s.dev.boot.image = none →
        t.dev.boot.open_ = false ∧ t.dev.get .BOOT_STAT_state 0 = 2)) ∧
  (∀ (w : StageWork) (s : State) (i : Image) (f : ImgRec),
    s.dev.inStage 3 = true → w.jnlFail = false → s.dev.boot.image = some i → i.recs = [f] → f.ty = 3 →
    Completes (.stageEnd w) s fun t =>
      (w.ok = true → f.arg0 % 256 = 1 →
        t.dev.inStage 4 = true ∧ t.dev.get .STR_FW_VER_model 0 = 1 ∧ t.dev.bit ⟨.GLB_READY_FN, 3, 1⟩ 0 = true) ∧
      (w.ok = false ∨ f.arg0 % 256 ≠ 1 →
        t.dev.inStage 0 = true ∧ t.dev.get .BOOT_AON_reset_cause 0 = 3 ∧ t.dev.rootState = 0)) ∧
  (∀ (w : StageWork) (s : State), s.dev.inStage 4 = true → w.jnlFail = false → w.ok = true →
    s.dev.bootStalled = false → s.dev.sys.pdServing = none → s.dev.boot.starts = [] →
    Table.get s.dev.boot.actions 5 0 = 0 →
    Completes (.stageEnd w) s fun t => t.dev.inStage 5 = true ∧ t.dev.bit ⟨.GLB_READY_FN, 4, 1⟩ 0 = true) ∧
  (∀ (w : StageWork) (s : State), s.dev.inStage 5 = true → w.jnlFail = false → s.dev.boot.batch = [] →
    s.dev.boot.quadsLeft = [] → Table.get s.dev.boot.actions 6 0 = 0 →
    Completes (.stageEnd w) s fun t =>
      t.dev.inStage 6 = true ∧ Logged s.dev t.dev 0x0102 (5 + s.dev.itemResult * 16)) ∧
  (∀ (w : StageWork) (s : State), s.dev.inStage 6 = true → w.jnlFail = false → s.dev.boot.site = none →
    s.dev.get .CPL_POOL_STAT_sites_live 0 ≠ 0 → Table.get s.dev.boot.actions 7 0 = 0 →
    Completes (.stageEnd w) s fun t =>
      t.dev.inStage 7 = true ∧ t.dev.bit ⟨.GLB_READY_FN, 6, 1⟩ 0 = true ∧
      Logged s.dev t.dev 0x0102 (6 + s.dev.itemResult * 16)) ∧
  (∀ (w : StageWork) (s : State), s.dev.inStage 7 = true → w.jnlFail = false → w.ok = true → s.dev.boot.starts = [] →
    Completes (.stageEnd w) s fun t =>
      t.dev.bit .CPL_POOL_STAT_pool_ready 0 = true ∧ t.dev.bit ⟨.GLB_READY_FN, 7, 1⟩ 0 = true ∧ t.pool.mem = [] ∧
      Logged s.dev t.dev 0x080C 0) ∧
  (∀ (w : StageWork) (s : State), s.dev.inStage 8 = true → w.jnlFail = false → w.drives = 0 → s.dev.boot.begun = true →
    s.dev.get .REC_STAT_rec_state 0 ≠ 1 → s.dev.boot.starts = [] → Table.get s.dev.boot.actions 9 0 = 0 →
    Completes (.stageEnd w) s fun t => t.dev.inStage 9 = true) ∧
  (∀ (w : StageWork) (s : State), s.dev.inStage 9 = true → w.jnlFail = false → w.ok = true → s.dev.s9Over = true →
    Completes (.stageEnd w) s fun t =>
      t.dev.boot.open_ = false ∧ t.dev.bit .GLB_STAT_start_done 0 = true ∧ t.dev.get .BOOT_STAT_state 0 = 1 ∧
      Logged s.dev t.dev 0x0102 9)

/-- On R358, R366: a batch of S5 that is up is followed by the next 8 quads; a site that trains is live with what
training found, one without a device is absent; a quad without lock for 2 ms or a site that fails is tried once more,
and then its policy action is taken: REPEAT tries again, ALT runs a quad on its secondary VCO setting and trains all
sites 4 Gbit/s lower, SKIP leaves the item off, HALT halts. On R358, R364, R365, R369, R382: the watchdog, once the
open stage has lasted its limit, and RESTART, unless the device is held, restart the device at S0 with their reset
cause, with DTIME and the journal kept and the pool's contents gone; the journal erases ahead; CLEAR_HISTORY writes a
marker behind which no entry counts, with event 0x010E. Rests in part on the model's own choices and readings, log
entries 13, 21, 22 and 105. -/
def Obligations.StartUpItemsAndRestarts : Prop :=
  ((∀ (s : State), s.dev.inStage 5 = true → s.dev.boot.batch.all s.dev.quadReady = true → s.dev.boot.starts = [] →
     Completes .quadBatchDone s fun t =>
       t.dev.boot.batch = s.dev.boot.quadsLeft.take 8 ∧ t.dev.boot.quadsLeft = s.dev.boot.quadsLeft.drop 8 ∧
       t.dev.inStage 5 = true) ∧
   (∀ (k : Site) (clam : Bool) (density : BitVec 3) (s : State),
     s.dev.inStage 6 = true → s.dev.boot.site = some k.val → s.dev.pdOn (domSite k.val) = true →
     (Completes (.siteTrainingDone k .trained clam density) s fun t =>
       t.dev.get .CPL_SITE_STAT_site_state k.val = 2 ∧ t.dev.bit .CPL_SITE_STAT_clamshell k.val = clam ∧
       t.dev.get .CPL_SITE_STAT_density k.val = density.toNat ∧
       (t.dev.get .CPL_POOL_STAT_sites_live 0).testBit k.val = true ∧ t.dev.boot.site ≠ some k.val) ∧
     (Completes (.siteTrainingDone k .absent clam density) s fun t =>
       t.dev.get .CPL_SITE_STAT_site_state k.val = 0 ∧ t.dev.boot.site ≠ some k.val ∧ t.dev.siteExcl = s.dev.siteExcl ∧
       t.dev.get .CPL_POOL_STAT_sites_live 0 = s.dev.get .CPL_POOL_STAT_sites_live 0) ∧
     (s.dev.boot.siteTried = 0 →
       exec (.siteTrainingDone k .failed clam density) s = .next (s.onDev (·.onBoot (fun b => { b with siteTried := 1 })))) ∧
     (s.dev.boot.siteTried ≠ 0 →
       Completes (.siteTrainingDone k .failed clam density) s fun t =>
         (s.dev.failAction 6 k.val = 0 → t.dev.boot.siteTried = 0 ∧ t.dev.boot.site = some k.val ∧ t.dev.inStage 6 = true) ∧
         (s.dev.failAction 6 k.val = 1 → s.dev.canLower = true →
           t.dev.pinRate = s.dev.pinRate - 4 ∧ t.dev.inStage 6 = true ∧ t.dev.boot.attempt = s.dev.boot.attempt + 1 ∧
           (∀ j, j < 16 → t.dev.get .CPL_SITE_STAT_site_state j ≠ 2) ∧
           t.dev.word .GLB_READY_SITE 0 = s.dev.word .GLB_READY_SITE 0 ∧ Logged s.dev t.dev 0x0102 0x26) ∧
         ((s.dev.failAction 6 k.val = 2 ∨ (s.dev.failAction 6 k.val = 1 ∧ s.dev.canLower = false)) →
           t.dev.siteExcl.testBit k.val = true ∧ t.dev.get .CPL_SITE_STAT_site_state k.val = 1 ∧
           t.dev.boot.site ≠ some k.val ∧ Logged s.dev t.dev 0x0106 (6 + k.val * 16)) ∧
         (s.dev.failAction 6 k.val = 3 →
           t.dev.boot.open_ = false ∧ t.dev.get .BOOT_STAT_state 0 = 2 ∧ Logged s.dev t.dev 0x0102 0x46))) ∧
   (∀ (q : Quad) (s : State),
     s.dev.inStage 5 = true → s.dev.boot.batch.contains q.val = true → s.dev.pdOn (domQuad q.val) = true →
     s.dev.quadLocked q.val = false → s.dev.ticksPast (Table.get s.dev.boot.quadAt q.val 0) 2000000 = true →
     (Table.get s.dev.boot.quadTried q.val 0 = 0 →
       exec (.quadPllLockTimeout q) s =
         .next (s.onDev (fun d => d.onBoot (fun b => { b with
           quadAt := Table.ins b.quadAt q.val d.ticks, quadTried := Table.ins b.quadTried q.val 1 })))) ∧
     (Table.get s.dev.boot.quadTried q.val 0 ≠ 0 →
       Completes (.quadPllLockTimeout q) s fun t =>
         (s.dev.failAction 5 q.val = 0 → Table.get t.dev.boot.quadTried q.val 0 = 0 ∧ t.dev.boot.batch = s.dev.boot.batch) ∧
         (s.dev.failAction 5 q.val = 1 → Nat.testBit t.dev.qalt q.val = true ∧ t.dev.boot.batch = s.dev.boot.batch ∧
           Logged s.dev t.dev 0x0107 (5 + q.val * 16)) ∧
         (s.dev.failAction 5 q.val = 2 → Nat.testBit t.dev.qskip q.val = true ∧ t.dev.boot.batch.contains q.val = false ∧
           Logged s.dev t.dev 0x0106 (5 + q.val * 16)) ∧
         (s.dev.failAction 5 q.val = 3 → t.dev.boot.open_ = false ∧ t.dev.get .BOOT_STAT_state 0 = 2))) ∧
   (∀ (q : Quad) (s : State), s.dev.quadLocked q.val = true ∨
     s.dev.ticksPast (Table.get s.dev.boot.quadAt q.val 0) 2000000 = false → exec (.quadPllLockTimeout q) s = .next s)) ∧
  ((∀ (s : State),
     (s.dev.sys.held = true → exec .restart s = .next s) ∧
     (s.dev.sys.held = false → Completes .restart s fun t =>
       t.dev.inStage 0 = true ∧ t.dev.get .BOOT_AON_reset_cause 0 = 4 ∧ t.dev.rootState = 0 ∧ t.dev.sys.held = false ∧
       t.dev.dtime = s.dev.dtime ∧ t.dev.boot.journal = s.dev.boot.journal ∧ t.pool = Pool.init) ∧
     (s.dev.boot.open_ = true → s.dev.bit .BOOT_CTL_wd_en 0 = true →
       s.dev.ticksPast s.dev.boot.openedAt (stageLimit s.dev.stage * 1000000) = true →
       Completes .startWatchdog s fun t =>
         t.dev.inStage 0 = true ∧ t.dev.get .BOOT_AON_reset_cause 0 = 2 ∧ t.dev.rootState = 0 ∧
         t.dev.dtime = s.dev.dtime ∧ t.dev.boot.journal = s.dev.boot.journal ∧ t.pool = Pool.init) ∧
     (s.dev.boot.open_ = false ∨ s.dev.bit .BOOT_CTL_wd_en 0 = false ∨
       s.dev.ticksPast s.dev.boot.openedAt (stageLimit s.dev.stage * 1000000) = false → exec .startWatchdog s = .next s)) ∧
   (∀ (ok : Bool) (s : State),
     s.dev.get .BOOT_STAT_state 0 = 1 → s.dev.boot.erased < 32 → s.dev.bit .BOOT_STAT_jnl_err 0 = false →
     Completes (.journalErase ok) s fun t =>
       let j := s.dev.get .BOOT_JSEQ_jseq 0 + s.dev.boot.erased
       (ok = true → t = s.onDev (·.onBoot (fun b => { b with
         erased := b.erased + 1, journal := b.journal.filter (fun e => e.jseq % 256 != j % 256) }))) ∧
       (ok = false → t.dev.bit .BOOT_STAT_jnl_err 0 = true ∧ t.dev.boot.cur = none ∧
         Logged s.dev t.dev 0x010B (j % 256))) ∧
   (∀ (ok : Bool) (s : State), s.dev.boot.flashSize ≠ 0 → s.dev.bit .BOOT_STAT_jnl_err 0 = false →
     Completes (.clearHistory ok) s fun t =>
       (ok = true → Logged s.dev t.dev 0x010E 0 ∧
         (∃ e ∈ t.dev.boot.journal, e.stage = 0x0F ∧ e.jseq = s.dev.get .BOOT_JSEQ_jseq 0) ∧
         ∀ e ∈ liveEntries t.dev.boot.journal, s.dev.get .BOOT_JSEQ_jseq 0 < e.jseq) ∧
       (ok = false → t.dev.bit .BOOT_STAT_jnl_err 0 = true ∧ t.dev.boot.cur = none ∧
         Logged s.dev t.dev 0x010B (s.dev.get .BOOT_JSEQ_jseq 0 % 256))))

/-- On R348, R369: READ, ERASE and PROGRAM start at the flash address in BOOT_FLASH_ADDR, PROGRAM with the words of
BOOT_FLASH_DATA, are refused where R369 says so, with event 0x010F, and are ignored while one is in progress; at its
end READ brings 256 bytes into the buffer, ERASE leaves a sector of erased bytes and PROGRAM clears bits of 256
bytes, each changing no other byte; a failure sets f_err. Rests in part on the model's own choices and readings, log
entries 16 and 17. -/
def Obligations.FlashCommands : Prop :=
  (∀ (s : State) (c : Instr) (op : Nat),
    (c, op) ∈ [(.flashRead, 1), (.flashErase, 2), (.flashProgram, 3)] →
    Completes c s fun t =>
      let a := s.dev.get .BOOT_FLASH_ADDR_addr 0
      (s.dev.bit .BOOT_FLASH_CMD_busy 0 = true → t = s) ∧
      (s.dev.bit .BOOT_FLASH_CMD_busy 0 = false → s.dev.flashRefused op a = true →
        t.dev.bit .BOOT_FLASH_CMD_refused 0 = true ∧ Logged s.dev t.dev 0x010F (op + 8) ∧
        OnlyRegsAndEvents [(.BOOT_FLASH_CMD_refused, 0)] s t) ∧
      (s.dev.bit .BOOT_FLASH_CMD_busy 0 = false → s.dev.flashRefused op a = false →
        t.dev.bit .BOOT_FLASH_CMD_busy 0 = true ∧
        t.dev.boot = { s.dev.boot with flashOp := some (op, a,
          if op = 3 then (List.range 64).flatMap (fun k => leBytes 4 (s.dev.get .BOOT_FLASH_DATA_data k)) else []) } ∧
        RegsKept [] [(.BOOT_FLASH_CMD_busy, 0)] s.dev t.dev)) ∧
  (∀ (s : State) (op a : Nat) (data : List Byte), s.dev.boot.flashOp = some (op, a, data) →
    Completes (.flashCommandEnd true) s fun t =>
      t.dev.bit .BOOT_FLASH_CMD_busy 0 = false ∧ t.dev.bit .BOOT_FLASH_CMD_f_err 0 = true ∧
      t.dev.boot.flashOp = none ∧ t.dev.boot.flash = s.dev.boot.flash ∧ Logged s.dev t.dev 0x010F (op + 4)) ∧
  (∀ (s : State) (a : Nat) (data : List Byte), s.dev.boot.flashOp = some (1, a, data) → s.dev.boot.torn = [] →
    Completes (.flashCommandEnd false) s fun t =>
      t.dev.bit .BOOT_FLASH_CMD_busy 0 = false ∧ Logged s.dev t.dev 0x010F 1 ∧ t.dev.boot.flash = s.dev.boot.flash ∧
      ∀ k, k < 64 → t.dev.word .BOOT_FLASH_DATA k = wordAt (flashAt s.dev.boot.flash a 256) k) ∧
  (∀ (s : State) (a : Nat) (data : List Byte), s.dev.boot.flashOp = some (2, a, data) → flashWf s.dev.boot.flash = true →
    Completes (.flashCommandEnd false) s fun t =>
      flashWf t.dev.boot.flash = true ∧ Logged s.dev t.dev 0x010F 2 ∧
      ∀ x, flashAt t.dev.boot.flash x 1 = if a ≤ x ∧ x < a + 4096 then [0xFF] else flashAt s.dev.boot.flash x 1) ∧
  (∀ (s : State) (a : Nat) (data : List Byte), s.dev.boot.flashOp = some (3, a, data) → data.length = 256 →
    flashWf s.dev.boot.flash = true →
    Completes (.flashCommandEnd false) s fun t =>
      flashWf t.dev.boot.flash = true ∧ Logged s.dev t.dev 0x010F 3 ∧
      ∀ x, flashAt t.dev.boot.flash x 1 =
        if a ≤ x ∧ x < a + 256 then [byteAt data (x - a) &&& byteAt (flashAt s.dev.boot.flash x 1) 0]
        else flashAt s.dev.boot.flash x 1)

/-! ### Chapter 16: clocks, device time, resets, power, temperature -/

/-- On R371–R374: the root PLL's transitions: a bad selected reference leads to a switch or to HOLDOVER, a good one out
of HOLDOVER, lock to LOCKED with root_pll, no lock to the other reference, revert to the preferred one, the range
limit to UNLOCKED, where every transmitter is off (R23); a write of ref_auto = 1 in HOLDOVER lets a reference that is
good end it; a PHY PLL that unlocks is logged, and a site is lost with its PLL. Rests in part on the model's own
choices and readings, log entries 13, 39 and 81. -/
def Obligations.ReferencesAndPlls : Prop :=
  (∀ (b : Bool) (s : State), s.dev.refOk b = true →
    Completes (.refclkBad b) s fun t =>
      t.dev.refOk b = false ∧ t.dev.refOk (!b) = s.dev.refOk (!b) ∧ Logged s.dev t.dev 0x0F01 (bitNat b) ∧
      (s.dev.rootState = 1 → s.dev.refSel = b →
        (s.dev.refOk (!b) = true → s.dev.bit .GLB_CLK_CTL_ref_auto 0 = true →
          t.dev.rootState = 1 ∧ t.dev.refSel = !b) ∧
        (s.dev.refOk (!b) = false ∨ s.dev.bit .GLB_CLK_CTL_ref_auto 0 = false →
          t.dev.rootState = 2 ∧ t.dev.refSel = b)) ∧
      (s.dev.rootState ≠ 1 ∨ s.dev.refSel ≠ b → t.dev.rootState = s.dev.rootState ∧ t.dev.refSel = s.dev.refSel)) ∧
  (∀ (b : Bool) (s : State), s.dev.refOk b = false →
    Completes (.refclkGood b) s fun t =>
      t.dev.refOk b = true ∧ Logged s.dev t.dev 0x0F02 (bitNat b) ∧
      Table.get t.dev.sys.refAt (bitNat b) 0 = s.dev.ticks ∧
      (s.dev.rootState = 2 → t.dev.rootState = 1 ∧
        t.dev.refSel = (if s.dev.refPref = b ∨ s.dev.refOk s.dev.refPref = true then s.dev.refPref else b)) ∧
      (s.dev.rootState ≠ 2 → t.dev.rootState = s.dev.rootState ∧ t.dev.refSel = s.dev.refSel)) ∧
  (∀ (off : BitVec 26) (v : BitVec 64) (s : State), s.dev.reaches off.toNat .GLB_CLK_CTL 0 →
    Completes (.registerWrite (.bar0 off 4) v) s fun t =>
      t.dev.word .GLB_CLK_CTL 0 = v.setWidth 32 &&& 0x7 ∧
      (s.dev.rootState = 2 → t.dev.bit .GLB_CLK_CTL_ref_auto 0 = true →
        s.dev.refOk false = true ∨ s.dev.refOk true = true →
        t.dev.rootState = 1 ∧ t.dev.refSel = (if s.dev.refOk t.dev.refPref = true then t.dev.refPref else !t.dev.refPref) ∧
        Logged s.dev t.dev 0x0F04 0) ∧
      (s.dev.rootState ≠ 2 ∨ t.dev.bit .GLB_CLK_CTL_ref_auto 0 = false ∨
        (s.dev.refOk false = false ∧ s.dev.refOk true = false) →
        t = { s with dev := { s.dev with regs := t.dev.regs, host := { s.dev.host with completion := .successful } } } ∧
        RegsKept [] [wholeWord .GLB_CLK_CTL 0] s.dev t.dev)) ∧
  (∀ (s : State), s.dev.rootState = 0 → s.dev.sys.rootOn = true → s.dev.sys.held = false →
    (Completes .rootPllLock s fun t =>
      t.dev.rootState = 1 ∧ t.dev.refSel = (s.dev.refPref != s.dev.sys.tryOther) ∧
      t.dev.bit .BOOT_AON_ref_b 0 = t.dev.refSel ∧ t.dev.bit ⟨.GLB_READY_FN, 0, 1⟩ 0 = true) ∧
    (s.dev.ticksPast s.dev.sys.acquireAt 2000000 = true → exec .rootPllAcquireTimeout s =
      .next (s.onDev (fun d => { d with sys := { d.sys with tryOther := !d.sys.tryOther, acquireAt := d.ticks } }))) ∧
    (s.dev.ticksPast s.dev.sys.acquireAt 2000000 = false → exec .rootPllAcquireTimeout s = .next s)) ∧
  (∀ (s : State), s.dev.rootState = 3 → (s.dev.refOk false = true ∨ s.dev.refOk true = true) →
    Completes .rootPllLock s fun t =>
      t.dev.rootState = 1 ∧ t.dev.bit ⟨.GLB_READY_FN, 0, 1⟩ 0 = true ∧ s.dev.refOk t.dev.refSel = true) ∧
  (∀ (s : State), s.dev.rootState = 1 → s.dev.bit .GLB_CLK_CTL_rev_en 0 = true → s.dev.refOk s.dev.refPref = true →
    s.dev.refSel ≠ s.dev.refPref →
    s.dev.ticksPast (Table.get s.dev.sys.refAt (bitNat s.dev.refPref) 0) (10 ^ 10) = true →
    Completes .referenceRevert s fun t =>
      t.dev.refSel = s.dev.refPref ∧ t.dev.rootState = 1 ∧ Logged s.dev t.dev 0x0F03 (bitNat s.dev.refPref) ∧
      OnlyRegsAndEvents [(.GLB_CLK_STAT_ref_sel, 0)] s t) ∧
  (∀ (s : State), (s.dev.rootState = 1 ∨ s.dev.rootState = 2) →
    Completes .rootPllUnlock s fun t =>
      t.dev.rootState = 3 ∧ t.dev.bit ⟨.GLB_READY_FN, 0, 1⟩ 0 = false ∧
      (s.dev.bit ⟨.GLB_READY_FN, 0, 1⟩ 0 = false → Logged s.dev t.dev 0x0F05 0) ∧
      (∀ e ∈ s.dev.chans, e.1 < 192 → t.dev.bit .CH_SDS_STAT_tx_on e.1 = false ∧ (t.dev.chan e.1).egressOn = false) ∧
      t = { s with dev := { s.dev with regs := t.dev.regs, host := t.dev.host, chans := t.dev.chans } } ∧
      RegsKept evRegs ([(.GLB_CLK_STAT_root_state, 0), (⟨.GLB_READY_FN, 0, 1⟩, 0)]
        ++ (List.range 192).map (fun n => (.CH_SDS_STAT_tx_on, n))) s.dev t.dev) ∧
  (∀ (i : Fin 19) (s : State), s.dev.phyLocked i.val = false → exec (.phyPllUnlocked i) s = .next s) ∧
  (∀ (i : Fin 19) (s : State), s.dev.phyLocked i.val = true →
    Completes (.phyPllUnlocked i) s fun t =>
      Logged s.dev t.dev 0x0F10 i.val ∧
      (i.val < 16 → (t.dev.get .GLB_GDDR_PLL_g_lock 0).testBit i.val = false ∧
        (s.dev.get .CPL_SITE_STAT_site_state i.val = 2 → t.pool.site i.val = .init ∧ t.dev.get .CPL_SITE_STAT_site_state i.val = 1 ∧
          (t.dev.get .CPL_POOL_STAT_sites_live 0).testBit i.val = false)) ∧
      (16 ≤ i.val → t.pool = s.pool ∧
        t.dev.bit (if i.val = 16 then .GLB_CLK_STAT_host_lock else if i.val = 17 then .GLB_CLK_STAT_rec_lock
          else .GLB_CLK_STAT_baton_lock) 0 = false))

/-- On R375–R378, R380: the first PPS edge makes PPS valid, event 0x0F07; the offset e of an accepted edge, where PPS is
followed, sets time_lock, a fine or a coarse slew or a step, as the table of R378 has it; slew and step act on DTIME
at the ticks, unless no source corrects it; an edge outside ±10 µs is ignored; a source without a measurement for 2 s
is no longer valid, event 0x0F06; a load sets DTIME at once under load_now, waits for the next edge otherwise, and is
refused below DTIME; FP_OUT goes high where DTIME mod fp_period equals fp_phase, and low after fp_width ticks. Rests
in part on the model's own choices and readings, log entries 13, 36, 82, 106 and 110. -/
def Obligations.DeviceTime : Prop :=
  (∀ (s : State) (k e : Int),
    (∀ x, s.dev.sys.lastPps = some x → s.dev.sys.ppsValid = true →
      x + 10 ^ 9 ≤ s.dev.now + 10000 ∧ s.dev.now ≤ x + 10 ^ 9 + 10000) →
    s.dev.sys.loadArmed = false →
    (s.dev.now : Int) - (s.dev.get .GLB_PPS_DLY_pps_dly 0 : Nat) = k * 10 ^ 9 + e → -(5 * 10 ^ 8) ≤ e → e < 5 * 10 ^ 8 →
    Completes .ppsEdge s fun t =>
      let thr : Int := (1000 * s.dev.get .GLB_TIME_CTL_step_thr 0 : Nat)
      let mode := s.dev.get .GLB_TIME_CTL_step_mode 0
      let step : Bool := decide (mode = 1) || (decide (mode = 0) && !s.dev.sys.ppsValid)
      t.dev.sys.ppsValid = true ∧ t.dev.sys.lastPps = some s.dev.now ∧ t.dev.sys.ppsAt = s.dev.ticks ∧
      t.dev.dtime = s.dev.dtime ∧ t.pool = s.pool ∧
      (s.dev.sys.ppsValid = false → Logged s.dev t.dev 0x0F07 1) ∧
      (s.dev.sys.ppsValid = true → t.dev.host = s.dev.host) ∧
      (s.dev.followsPps = false → RegsKept evRegs [(.GLB_TIME_STAT_src_valid, 0)] s.dev t.dev ∧
        t.dev.sys.slewLeft = s.dev.sys.slewLeft ∧ t.dev.sys.stepDue = s.dev.sys.stepDue) ∧
      (s.dev.followsPps = true →
        sx 32 (t.dev.get .GLB_TIME_ERR_e 0) = e ∧
        (t.dev.bit .GLB_TIME_STAT_time_lock 0 = true ↔ e.natAbs ≤ 4) ∧
        (e.natAbs ≤ 4 → t.dev.get .GLB_TIME_STAT_slew 0 = 0 ∧ t.dev.sys.slewLeft = 0 ∧ t.dev.sys.stepDue = none) ∧
        (4 < e.natAbs → (e.natAbs : Int) < thr →
          t.dev.get .GLB_TIME_STAT_slew 0 = 1 ∧ t.dev.sys.slewLeft = e ∧ t.dev.sys.stepDue = none) ∧
        (4 < e.natAbs → e ≤ -thr → e < 0 → step = true →
          t.dev.get .GLB_TIME_STAT_slew 0 = 0 ∧ t.dev.sys.slewLeft = 0 ∧ t.dev.sys.stepDue = some e) ∧
        (4 < e.natAbs → (e ≤ -thr ∧ e < 0 ∧ step = false) ∨ (thr ≤ e ∧ 0 < e) →
          t.dev.get .GLB_TIME_STAT_slew 0 = 2 ∧ t.dev.sys.slewLeft = e ∧ t.dev.sys.stepDue = none))) ∧
  (∀ (s : State), s.dev.sys.held = false → s.dev.sys.rootOn = true →
    let thr : Int := (1000 * s.dev.get .GLB_TIME_CTL_step_thr 0 : Nat)
    let left := s.dev.sys.slewLeft
    (s.dev.corrects = false →
      s.tick.dev.dtime = s.dev.dtime + 4 ∧ s.tick.dev.get .GLB_TIME_STAT_slew 0 = 0 ∧ s.tick.dev.sys.stepDue = none) ∧
    (s.dev.corrects = true → s.dev.sys.stepDue = none → s.dev.get .GLB_TIME_STAT_slew 0 = 1 →
      (s.dev.ticks % 2500 ≠ 0 → s.tick.dev.dtime = s.dev.dtime + 4 ∧ s.tick.dev.sys.slewLeft = left) ∧
      (s.dev.ticks % 2500 = 0 → 0 < left → s.tick.dev.dtime = s.dev.dtime + 3 ∧ s.tick.dev.sys.slewLeft = left - 1) ∧
      (s.dev.ticks % 2500 = 0 → left < 0 → s.tick.dev.dtime = s.dev.dtime + 5 ∧ s.tick.dev.sys.slewLeft = left + 1) ∧
      (s.tick.dev.get .GLB_TIME_STAT_slew 0 = 0 ↔ s.tick.dev.sys.slewLeft = 0)) ∧
    (s.dev.corrects = true → s.dev.sys.stepDue = none → s.dev.get .GLB_TIME_STAT_slew 0 = 2 →
      (0 < left → s.tick.dev.dtime = s.dev.dtime + 3 ∧ s.tick.dev.sys.slewLeft = left - 1) ∧
      (left < 0 → s.tick.dev.dtime = s.dev.dtime + 5 ∧ s.tick.dev.sys.slewLeft = left + 1) ∧
      (thr ≤ (s.tick.dev.sys.slewLeft.natAbs : Int) → s.tick.dev.get .GLB_TIME_STAT_slew 0 = 2) ∧
      ((s.tick.dev.sys.slewLeft.natAbs : Int) < thr → s.tick.dev.sys.slewLeft ≠ 0 →
        s.tick.dev.get .GLB_TIME_STAT_slew 0 = 1)) ∧
    (∀ (e : Int), s.dev.sys.stepDue = some e → s.dev.corrects = true → s.dev.get .GLB_TIME_STAT_slew 0 = 0 →
      s.tick.dev.dtime = s.dev.dtime + 4 + BitVec.ofNat 64 e.natAbs ∧ s.tick.dev.sys.stepDue = none)) ∧
  (∀ (s : State) (x : Nat), s.dev.sys.ppsValid = true → s.dev.sys.lastPps = some x →
    (x + 10 ^ 9 + 10000 < s.dev.now ∨ s.dev.now + 10000 < x + 10 ^ 9) → exec .ppsEdge s = .next s) ∧
  (∀ (s : State),
    (∀ x, s.dev.sys.lastPps = some x → s.dev.sys.ppsValid = true →
      x + 10 ^ 9 ≤ s.dev.now + 10000 ∧ s.dev.now ≤ x + 10 ^ 9 + 10000) →
    s.dev.sys.loadArmed = true →
    let v := (s.dev.word .GLB_DTIME_LOAD_LO 0).toNat + (s.dev.word .GLB_DTIME_LOAD_HI 0).toNat * 2 ^ 32
    Completes .ppsEdge s fun t =>
      t.dev.sys.loadArmed = false ∧ t.dev.sys.ppsValid = true ∧
      (s.dev.now ≤ v → t.dev.now = v ∧ t.dev.bit .GLB_TIME_STAT_dtime_err 0 = s.dev.bit .GLB_TIME_STAT_dtime_err 0) ∧
      (v < s.dev.now → t.dev.now = s.dev.now ∧ t.dev.bit .GLB_TIME_STAT_dtime_err 0 = true ∧ Logged s.dev t.dev 0x0F09 0)) ∧
  (∀ (s : State),
    Completes .timeSourceLost s fun t =>
      let pps := s.dev.sys.ppsValid && s.dev.ticksPast s.dev.sys.ppsAt (2 * 10 ^ 9)
      let partner := s.dev.sys.partnerValid && s.dev.ticksPast s.dev.sys.partnerAt (2 * 10 ^ 9)
      (pps = true → t.dev.sys.ppsValid = false ∧ t.dev.sys.lastPps = none ∧ Logged s.dev t.dev 0x0F06 1) ∧
      (partner = true → t.dev.sys.partnerValid = false ∧ (pps = false → Logged s.dev t.dev 0x0F06 2)) ∧
      (pps = false → t.dev.sys.ppsValid = s.dev.sys.ppsValid ∧ t.dev.sys.lastPps = s.dev.sys.lastPps) ∧
      (partner = false → t.dev.sys.partnerValid = s.dev.sys.partnerValid) ∧
      (pps = false → partner = false → t = s)) ∧
  (∀ (hi : Word) (s : State), s.dev.sys.held = false →
    let v := (s.dev.word .GLB_DTIME_LOAD_LO 0).toNat + hi.toNat * 2 ^ 32
    Completes (.dtimeLoad hi) s fun t =>
      t.dev.word .GLB_DTIME_LOAD_HI 0 = hi ∧
      (s.dev.bit .GLB_TIME_CTL_load_now 0 = true → s.dev.now ≤ v → t.dev.now = v ∧ t.dev.sys.loadArmed = false) ∧
      (s.dev.bit .GLB_TIME_CTL_load_now 0 = true → v < s.dev.now →
        t.dev.now = s.dev.now ∧ t.dev.bit .GLB_TIME_STAT_dtime_err 0 = true ∧ Logged s.dev t.dev 0x0F09 0) ∧
      (s.dev.bit .GLB_TIME_CTL_load_now 0 = false → t.dev.now = s.dev.now ∧ t.dev.sys.loadArmed = true)) ∧
  (∀ (k : Fin 2) (s : State),
    (Completes (.fpPulse k) s fun t =>
      (s.dev.bit .GLB_FP_CTL_fp_en k.val = true → s.dev.fpDue k.val = true →
        (s.dev.sys.held = false → 0 < s.dev.get .GLB_FP_CTL_fp_width k.val → t.dev.fpOut k.val = true) ∧
        t = s.onDev (fun d => { d with sys := { d.sys with
          fpEnd := Table.ins d.sys.fpEnd k.val (d.ticks + d.get .GLB_FP_CTL_fp_width k.val) } })) ∧
      (s.dev.bit .GLB_FP_CTL_fp_en k.val = false ∨ s.dev.fpDue k.val = false → t = s)) ∧
    (Completes (.fpPulseEnd k) s fun t =>
      (s.dev.fpRuns k.val = true → t = s) ∧
      (s.dev.fpRuns k.val = false → t.dev.fpOut k.val = false ∧ t.dev.regs = s.dev.regs ∧ t.pool = s.pool)))

/-- On R381, R382, R417: PWRON_L resets every register but keeps the board's flash and loads the TAP with IDCODE, whose
fields are those of R416; SYS_RST_L and a disturbing TAP instruction hold the device with its always-on registers,
the thermal trip and DTIME kept, the drives and the memory sites in reset, OWN_L high-impedance, FP_OUT low, THERM_L
released (R397) and the pool's contents gone; its release opens S0 with reset cause 1, unless the other still holds
the device. Rests in part on the model's own choices and readings, log entries 14, 46, 66, 83 and 108. -/
def Obligations.ResetsOfTheDevice : Prop :=
  (∀ (mgt : BitVec 2) (s : State),
    Completes (.pwron mgt) s fun t =>
      t.dev.dtime = 0 ∧ t.dev.sys.thermTripPin = false ∧ t.dev.sys.held = false ∧ t.dev.inStage 0 = true ∧
      t.dev.boot.flash = s.dev.boot.flash ∧ t.dev.boot.journal = s.dev.boot.journal ∧ t.pool = State.reset.pool ∧
      t.pending = s.pending ∧ t.dev.sys.mgtAddr = mgt ∧ t.dev.sys.tapIr = .idcode ∧
      idcode.extractLsb' 28 4 = 1 ∧ idcode.extractLsb' 12 16 = 0x9192 ∧ idcode.extractLsb' 0 1 = 1 ∧
      ∀ (r : Reg) (i : Nat), i < 2 ^ 20 → r ≠ .PAIR_STAT → t.dev.word r i = State.reset.dev.word r i) ∧
  (∀ (s : State) (c : Instr) (i : TapInstr), (c = .systemReset .assert ∨ (c = .tapDisturb i ∧ i.disturbs = true)) →
    Completes c s fun t =>
      t.dev.sys.held = true ∧ t.dev.rootState = 0 ∧ t.dev.dtime = s.dev.dtime ∧ t.pool = Pool.init ∧
      t.dev.bit .GLB_THERM_STAT_trip 0 = s.dev.bit .GLB_THERM_STAT_trip 0 ∧
      t.dev.sys.thermTripPin = s.dev.sys.thermTripPin ∧
      t.dev.ownL 0 = none ∧ t.dev.pinLevel .recorderPerst = .low ∧ (∀ k : Site, t.dev.pinLevel (.gddrReset k) = .low) ∧
      t.dev.pinLevel .therm = .off ∧ (∀ k : Fin 2, t.dev.pinLevel (.fpOut k) = .low) ∧
      t.dev.pinLevel .thermTrip = (if s.dev.sys.thermTripPin then .low else .off) ∧
      t.dev.boot.journal = s.dev.boot.journal ∧ t.dev.boot.flash = s.dev.boot.flash ∧
      (c = .systemReset .assert → t.dev.sys.rstPin = true) ∧ (c = .tapDisturb i → t.dev.sys.tap = true ∧ t.dev.sys.tapIr = i) ∧
      ∀ (r : Reg) (i : Nat), i < 2 ^ 20 → r ≠ .GLB_CLK_STAT → r ≠ .GLB_GDDR_PLL → r ≠ .GLB_THERM_STAT →
        t.dev.word r i = if r.info.dom = .aon then s.dev.word r i else r.resetWord i) ∧
  (∀ (s : State), s.dev.sys.rstPin = true → s.dev.sys.tap = false →
    Completes (.systemReset .release) s fun t =>
      t.dev.sys.held = false ∧ t.dev.sys.rootOn = true ∧ t.dev.inStage 0 = true ∧
      t.dev.get .BOOT_AON_reset_cause 0 = 1) ∧
  (∀ (i : TapInstr) (s : State), i.disturbs = false → s.dev.sys.tap = false →
    exec (.tapRelease i) s = .next (s.onDev (fun d => { d with sys := { d.sys with tapIr := i } }))) ∧
  (∀ (i : TapInstr) (s : State), i.disturbs = false → s.dev.sys.tap = true → s.dev.sys.rstPin = false →
    Completes (.tapRelease i) s fun t =>
      t.dev.sys.held = false ∧ t.dev.sys.rootOn = true ∧ t.dev.inStage 0 = true ∧
      t.dev.get .BOOT_AON_reset_cause 0 = 1 ∧ t.dev.sys.tap = false) ∧
  (∀ (i : TapInstr) (s : State), i.disturbs = false → s.dev.sys.tap = true → s.dev.sys.rstPin = true → s.dev.sys.held = true →
    (Completes (.tapRelease i) s fun t => t.dev.sys.held = true ∧ t.dev.sys.tap = false) ∧
    (Completes (.systemReset .release) s fun t => t.dev.sys.held = true ∧ t.dev.sys.rstPin = false))

/-- On R383–R386: a request for a domain is served at once by a free controller, waits behind the one in service, is
complete where the domain is as asked and refused where R385 says so, event 0x0F0B; at the end of the sequence the
domain is on or off. A domain reset needs its key and the conditions of R385, a unit reset its key and a STOPPED
unit, and returns the unit's fields, active and shadow, to reset. Rests in part on the model's own choices and
readings, log entries 13, 23, 25, 65 and 80. -/
def Obligations.DomainsAndResets : Prop :=
  (∀ (x : Dom) (on : Bool) (s : State),
    let c : Instr := if on then .pdSwitchOn x else .pdSwitchOff x
    s.dev.sys.pdQueue = [] →
    Completes c s fun t =>
      (s.dev.sys.pdServing = none → s.dev.pdOn x.val ≠ on → (on = true ∨ s.dev.pdRefused x.val = false) →
        t.dev.sys.pdServing = some (x.val, on) ∧ t.dev.sys.pdQueue = [] ∧ t.dev.bit .GLB_PD_CMD_pd_busy 0 = true ∧
        (∀ h : Fin 16, x.val = domHeat h.val → on = false → t.dev.get .STR_HEAT_CTL_heat_en h.val =
          if 2 ≤ s.dev.heatState h.val then 0 else s.dev.get .STR_HEAT_CTL_heat_en h.val) ∧
        RegsKept [] [(.GLB_PD_CMD_pd_busy, 0), (.STR_HEAT_CTL_heat_en, x.val - 48)] s.dev t.dev) ∧
      (s.dev.sys.pdServing = none → s.dev.pdOn x.val = on →
        t.dev.sys.pdServing = none ∧ t.dev.sys.pdQueue = [] ∧ t.dev.bit .GLB_PD_CMD_pd_busy 0 = false ∧
        OnlyRegs [(.GLB_PD_CMD_pd_busy, 0)] s t) ∧
      (s.dev.sys.pdServing = none → s.dev.pdOn x.val = true → on = false → s.dev.pdRefused x.val = true →
        t.dev.sys.pdServing = none ∧ t.dev.bit .GLB_PD_CMD_pd_refused 0 = true ∧ Logged s.dev t.dev 0x0F0B x.val ∧
        OnlyRegsAndEvents [(.GLB_PD_CMD_pd_busy, 0), (.GLB_PD_CMD_pd_refused, 0)] s t) ∧
      (∀ p, s.dev.sys.pdServing = some p → t.dev.sys.pdServing = some p ∧ t.dev.sys.pdQueue = [(x.val, on)])) ∧
  (∀ (x : Dom) (on : Bool) (s : State),
    s.dev.sys.pdServing = some (x.val, on) → s.dev.sys.pdQueue = [] → s.dev.pdMayEnd x.val on = true →
    Completes (.pdSwitchDone x) s fun t =>
      t.dev.pdOn x.val = on ∧ t.dev.sys.pdServing = none ∧
      (∀ k : Fin 16, x.val = domSite k.val → on = true → s.dev.inStage 6 = false →
        t.dev.get .CPL_SITE_STAT_site_state k.val = 1) ∧
      (x.val = domTrace → on = true → Logged s.dev t.dev 0x0F0A (95 + 128))) ∧
  (∀ (x : BitVec 7) (key : BitVec 16) (s : State),
    (key ≠ 0x5253 → exec (.domainReset x key) s = .next s) ∧
    (x.toNat < 96 → s.dev.pdRefused x.toNat = true →
      Completes (.domainReset x 0x5253) s fun t =>
        t.dev.bit .GLB_PD_CMD_pd_refused 0 = true ∧ Logged s.dev t.dev 0x0F0B x.toNat ∧
        OnlyRegsAndEvents [(.GLB_PD_CMD_pd_refused, 0)] s t) ∧
    (93 ≤ x.toNat → x.toNat < 95 → s.dev.pdRefused x.toNat = false → s.dev.pdOn x.toNat = true →
      Completes (.domainReset x 0x5253) s fun t =>
        t.dev.pdOn x.toNat = true ∧
        ∀ (r : Reg) (i : Nat), i < 2 ^ 20 →
          (r.info.dom = .unit → t.dev.word r i = s.dev.word r i) ∧
          (r.info.dom = .pd (if x.toNat = 93 then .scan else .capt) → t.dev.word r i = r.resetWord i))) ∧
  (∀ (cls : BitVec 4) (idx : BitVec 12) (key : BitVec 16) (s : State),
    (key ≠ 0x5253 → exec (.unitReset cls idx key) s = .next s) ∧
    (uclassOfCode cls.toNat = none →
      Completes (.unitReset cls idx 0x5253) s fun t =>
        t.dev.get .GLB_UC_STAT_result 0 = 3 ∧ Logged s.dev t.dev 0x0E03 (cls.toNat * 4096 + idx.toNat)) ∧
    (∀ (c : UClass), uclassOfCode cls.toNat = some c → s.dev.unitExists ⟨c, idx.toNat⟩ false = true →
      s.dev.memberOp ⟨c, idx.toNat⟩ = false →
      Completes (.unitReset cls idx 0x5253) s fun t =>
        (s.dev.devBusy ⟨c, idx.toNat⟩ = true → t.dev.get .GLB_UC_STAT_result 0 = 2 ∧
          UcRefused ⟨c, idx.toNat⟩ s t) ∧
        (s.dev.devBusy ⟨c, idx.toNat⟩ = false → s.dev.unitStopped ⟨c, idx.toNat⟩ = false → t.dev.get .GLB_UC_STAT_result 0 = 1 ∧ t.pool = s.pool ∧
          Logged s.dev t.dev 0x0E03 (cls.toNat * 4096 + idx.toNat)) ∧
        (s.dev.devBusy ⟨c, idx.toNat⟩ = false → s.dev.unitStopped ⟨c, idx.toNat⟩ = true → t.dev.get .GLB_UC_STAT_result 0 = 0 ∧
          ∀ (r : Reg) (i : Nat), i < 2 ^ 20 → r.info.dom = .unit →
            s.dev.ownsWord ⟨c, idx.toNat⟩ (s.dev.lineSet ⟨c, idx.toNat⟩) r i = true →
            t.dev.word r i = r.resetWord i ∧ t.dev.shWord r i = r.resetWord i)))

/-- On R387, R389–R391: an answered voltage command, at most one in a ms, moves VDD to its next step, an unanswered one
leaves it and raises avs_fault; a thermal sample, unless the device is held, shows each sensor, the highest reading
and the peaks, and asserts THERM_L at the limit and releases it below the hysteresis; a thermal trip latches, turns
every transmitter off and lets OWN_L go. Rests in part on the model's own choices and readings, log entries 13 and
26. -/
def Obligations.VoltageAndTemperature : Prop :=
  (∀ (up : Option Bool) (s : State),
    s.dev.bit .GLB_AVS_CTL_avs_en 0 = true → s.dev.avsDue = true → s.dev.avsNext up ≠ s.dev.get .GLB_AVS_STAT_vdd_cmd 0 →
    (Completes (.avsAdjust up true) s fun t =>
      t.dev.get .GLB_AVS_STAT_vdd_cmd 0 = s.dev.avsNext up ∧ t.dev.bit .GLB_AVS_STAT_avs_fault 0 = false ∧
      (up = some true → t.dev.get .GLB_AVS_STAT_vdd_cmd 0 = s.dev.get .GLB_AVS_STAT_vdd_cmd 0 + 5 ∧
        t.dev.get .GLB_AVS_STAT_vdd_cmd 0 ≤ 800 ∧
        t.dev.get .GLB_AVS_STAT_vdd_cmd 0 ≤ s.dev.get .GLB_AVS_CTL_avs_max 0) ∧
      (up = some false → t.dev.get .GLB_AVS_STAT_vdd_cmd 0 + 5 = s.dev.get .GLB_AVS_STAT_vdd_cmd 0 ∧
        680 ≤ t.dev.get .GLB_AVS_STAT_vdd_cmd 0 ∧
        s.dev.get .GLB_AVS_CTL_avs_min 0 ≤ t.dev.get .GLB_AVS_STAT_vdd_cmd 0) ∧
      t.dev.sys = { s.dev.sys with avsAt := some s.dev.ticks } ∧
      RegsKept [] [(.GLB_AVS_STAT_vdd_cmd, 0), (.GLB_AVS_STAT_avs_fault, 0)] s.dev t.dev) ∧
    (Completes (.avsAdjust up false) s fun t =>
      t.dev.get .GLB_AVS_STAT_vdd_cmd 0 = s.dev.get .GLB_AVS_STAT_vdd_cmd 0 ∧
      t.dev.bit .GLB_AVS_STAT_avs_fault 0 = true ∧ Logged s.dev t.dev 0x0F0E 0 ∧
      t.dev.sys = { s.dev.sys with avsAt := some s.dev.ticks } ∧
      RegsKept evRegs [(.GLB_AVS_STAT_avs_fault, 0)] s.dev t.dev)) ∧
  (∀ (up : Option Bool) (answered : Bool) (s : State),
    s.dev.bit .GLB_AVS_CTL_avs_en 0 = false ∨ s.dev.avsDue = false → exec (.avsAdjust up answered) s = .next s) ∧
  (∀ (temps : List (BitVec 16)) (s : State) (k : Nat), s.dev.sys.held = false → temps.length = 16 → k < 16 →
    (∀ j, j < 16 → (temps.getD j 0).toInt ≤ (temps.getD k 0).toInt) →
    Completes (.thermalSample temps) s fun t =>
      let top := (temps.getD k 0).toInt
      let lim : Int := (4 * s.dev.get .GLB_THERM_CTL_therm_lim 0 : Nat)
      let hyst : Int := (4 * s.dev.get .GLB_THERM_CTL_therm_hyst 0 : Nat)
      (∀ j, j < 16 → t.dev.get .GLB_THERM_T_temp j = (temps.getD j 0).toNat ∧
        sx 16 (t.dev.get .GLB_THERM_T_peak j) = max (sx 16 (s.dev.get .GLB_THERM_T_peak j)) (temps.getD j 0).toInt) ∧
      t.dev.get .GLB_THERM_STAT_t_max 0 = (temps.getD k 0).toNat ∧
      t.dev.bit .GLB_THERM_STAT_therm 0 =
        (if lim ≤ top then true else if top < lim - hyst then false else s.dev.bit .GLB_THERM_STAT_therm 0) ∧
      ((∀ j, j < k → (temps.getD j 0).toInt < top) → t.dev.get .GLB_THERM_STAT_hottest 0 = k ∧
        (lim ≤ top → s.dev.bit .GLB_THERM_STAT_therm 0 = false → Logged s.dev t.dev 0x0F0C (1 + k * 16)))) ∧
  (∀ (temps : List (BitVec 16)) (s : State), s.dev.sys.held = true → exec (.thermalSample temps) s = .next s) ∧
  (∀ (k : Fin 16) (s : State), s.dev.sys.thermTripPin = false →
    Completes (.thermalTrip k) s fun t =>
      t.dev.sys.thermTripPin = true ∧ t.dev.bit .GLB_THERM_STAT_trip 0 = true ∧ Logged s.dev t.dev 0x0F0D k.val ∧
      t.dev.ownL 0 = none ∧ ∀ n, n < 192 → t.dev.bit .CH_SDS_STAT_tx_on n = false) ∧
  (∀ (k : Fin 16) (s : State), s.dev.sys.thermTripPin = true → exec (.thermalTrip k) s = .next s)

/-! ### The machine as a whole -/

/-- A step takes the command at the front of the queue: it is exec of that command on the state with the queue's rest. -/
def Obligations.StepRunsFrontCommand : Prop :=
  ∀ (c : Instr) (rest : List Instr) (s : State), s.pending = c :: rest → step s = exec c { s with pending := rest }

/-- The model's choice (log entry 1): on an empty queue a step is one clk_tm tick, which while the device runs counts one
tick and, without slew or a due step, or with no source that corrects DTIME, adds 4 ns to DTIME; a device held in
reset, or without its root clock, stands. -/
def Obligations.EmptyQueueTicks : Prop :=
  ∀ (s : State), s.pending = [] →
    step s = .next s.tick ∧
    (s.dev.sys.held = true ∨ s.dev.sys.rootOn = false → step s = .next s) ∧
    (s.dev.sys.held = false → s.dev.sys.rootOn = true → s.tick.dev.ticks = s.dev.ticks + 1 ∧ s.tick.pending = [] ∧
      s.tick.pool.mem = s.pool.mem ∧
      ((s.dev.get .GLB_TIME_STAT_slew 0 = 0 ∧ s.dev.sys.stepDue = none) ∨ s.dev.corrects = false → s.tick.dev.dtime = s.dev.dtime + 4))

/-- Every command completes, on every state, and leaves the queue of waiting commands as it is. Rests in part on the
model's own choices and readings, log entry 13. -/
def Obligations.EveryCommandCompletes : Prop :=
  ∀ (c : Instr) (s : State), Completes c s fun t => t.pending = s.pending

/-- On R186, R203, R205: only a cell that is written or scrubbed and a BAR2 write change the data of the pool, S7 and a
reset of the device clear it: every other command leaves every byte of the pool as it was. -/
def Obligations.PoolBytesChangeOnlyByWrites : Prop :=
  ∀ (c : Instr) (s t : State), exec c s = .next t →
    (match c with
      | .push _ _ => False | .stallPushProceed _ => False | .hostPush _ => False | .bar2Write _ _ _ => False
      | .scrubCell _ _ => False | .scanJobEnd _ _ _ _ => False | .scanStop _ _ _ _ _ => False | .recordStage _ => False
      | .captureFrame _ _ => False | .tribFrameTick _ _ => False
      | .registerWrite _ _ => False | .stageEnd _ => False | .pwron _ => False | .systemReset _ => False | .tapDisturb _ => False
      | .tapRelease i => i.disturbs = false
      | .startWatchdog => False | .restart => False
      | _ => True) →
    ∀ a, memRead t.pool.mem a = memRead s.pool.mem a

/-- In every state whose pool memory is in its canonical form, a step that answers a next state leaves it in that form. -/
def Obligations.StepKeepsSafe : Prop :=
 ∀ (s t : State), Safe s → step s = .next t → Safe t

/-- On R188, R356, R358, R372, R384: the state after reset: S0 open, DTIME 0, the root PLL acquiring, every domain off,
every unit STOPPED, every register at its reset value, no command waiting, the pool's memory in its canonical form.
Rests in part on the model's own choices and readings, log entry 5. -/
def Obligations.ResetState : Prop :=
  State.reset.pending = [] ∧ Safe State.reset ∧ State.reset.dev.inStage 0 = true ∧ State.reset.dev.dtime = 0 ∧
  State.reset.dev.rootState = 0 ∧ (∀ x, x < 96 → State.reset.dev.pdOn x = false) ∧
  (∀ u : UnitId, u.idx < uclassCount u.cls → State.reset.dev.ust u.cls u.idx = 2) ∧
  (∀ (r : Reg) (i : Nat), State.reset.dev.word r i = r.resetWord i) ∧ ∀ a, memRead State.reset.pool.mem a = 0

/-- On R61: event 0x0301 is raised at most 16 times per DTIME second and channel, event 0x0302 likewise under a limit of
its own; a transition beyond its limit is counted and raises no event. -/
def Obligations.AlignmentEventLimits : Prop :=
  (∀ (n : Chan) (s : State),
    let l := s.dev.leader n.val
    s.dev.alnState l = 3 → s.dev.alnM l ≤ (s.dev.aln l).errRun →
    Completes (.oof n) s fun t =>
      (s.dev.raised 0x0301 l < 16 → Logged s.dev t.dev 0x0301 l ∧ t.dev.raised 0x0301 l = s.dev.raised 0x0301 l + 1) ∧
      (16 ≤ s.dev.raised 0x0301 l → t.dev.host = s.dev.host ∧ t.dev.word .GLB_EVT_WR 0 = s.dev.word .GLB_EVT_WR 0) ∧
      t.dev.raised 0x0302 l = s.dev.raised 0x0302 l ∧
      t.dev.get .CH_ALN_OOF_CNT_oof_cnt l = min (s.dev.get .CH_ALN_OOF_CNT_oof_cnt l + 1)
        (2 ^ Fld.CH_ALN_OOF_CNT_oof_cnt.w - 1)) ∧
  (∀ (n : Chan) (s : State) (c : Instr),
    let l := s.dev.leader n.val
    (∃ k : Fin 4, c = .candidateQualify n k) ∨
      (c = .tieEnd n ∧ ((s.dev.aln l).live.filter (fun e => e.2.contender)).length ≤ 1) → s.dev.alnState l ≠ 3 →
    Completes c s fun t =>
      t.dev.raised 0x0301 l = s.dev.raised 0x0301 l ∧
      (t.dev.alnState l = 3 →
        (s.dev.raised 0x0302 l < 16 → Logged s.dev t.dev 0x0302 l ∧ t.dev.raised 0x0302 l = s.dev.raised 0x0302 l + 1) ∧
        (16 ≤ s.dev.raised 0x0302 l → t.dev.host = s.dev.host ∧ t.dev.word .GLB_EVT_WR 0 = s.dev.word .GLB_EVT_WR 0) ∧
        t.dev.get .CH_ALN_ACQ_CNT_acq_cnt l = min (s.dev.get .CH_ALN_ACQ_CNT_acq_cnt l + 1)
          (2 ^ Fld.CH_ALN_ACQ_CNT_acq_cnt.w - 1)))

/-- On R103: the heats form a ring, H15 next to H0; an engine takes no task from a heat farther away than steal_max,
whose reset value is 2. -/
def Obligations.StealingStaysWithinStealMax : Prop :=
  (∀ a b : Nat, a < 16 → b < 16 → ringDist a b = min ((a : Int) - b).natAbs (16 - ((a : Int) - b).natAbs)) ∧
  Fld.STR_CTL_steal_max.of ((Reg.STR_CTL).resetWord 0) = 2 ∧
  (∀ (e : Engine) (s t : State) (h : Nat), exec (.taskTake e) s = .next t →
    (t.dev.heat h).queue ≠ (s.dev.heat h).queue → h < 16 ∧ ringDist (e.val / 16) h ≤ s.dev.get .STR_CTL_steal_max 0)

/-- On R186: a cell pointer's site and index, its byte address p × 512, the holes and the null pointer. -/
def Obligations.CellPointers : Prop :=
  (∀ p : BitVec 29, ptrSite p.toNat = (p.extractLsb' 25 4).toNat ∧ ptrIdx p.toNat = (p.extractLsb' 0 25).toNat) ∧
  nullPtr = 0xFFFFFFFF ∧
  (∀ (x : Pool) (p : Nat), x.hole p = true ↔ (x.site (ptrSite p)).size ≤ ptrIdx p ∨ 2 ^ 29 ≤ p) ∧
  (∀ (x : Pool) (p j : Nat), j < 448 → byteAt (x.data p) j = memRead x.mem (p * 512 + j) ∧
    x.cellByte p j = memRead x.mem (p * 512 + j)) ∧
  (∀ (x : Pool) (p next : Nat) (data : List Byte) (seq : BitVec 16) (a : Nat), data.length = 448 →
    memWf x.mem = true →
    memRead (x.writeCell p data next seq).mem a =
      if p * 512 ≤ a ∧ a < p * 512 + 448 then byteAt data (a - p * 512) else memRead x.mem a)
end

