-- ==== Sys2Proof/Laws/Bytes.lean ====
section
/-!
SUPPORT. The laws of little-endian bytes (R9): what `leBytes` writes, `leVal` and `leField` read back.
-/
namespace Sys2Proof.Machine

@[simp] theorem leBytes_length (n v : Nat) : (leBytes n v).length = n := by
  induction n generalizing v with
  | zero => rfl
  | succ n ih => simp [leBytes, ih]

/-- n bytes hold a value modulo 256^n. -/
theorem leVal_leBytes (n v : Nat) : leVal (leBytes n v) = v % 256 ^ n := by
  induction n generalizing v with
  | zero => simp [leBytes, leVal, Nat.mod_one]
  | succ n ih => simp [leBytes, leVal, ih, Nat.pow_succ, Nat.mul_comm (256 ^ n) 256, Nat.mod_mul]

theorem leVal_lt (bs : List Byte) : leVal bs < 256 ^ bs.length := by
  induction bs with
  | nil => simp [leVal]
  | cons b r ih =>
    have := b.isLt
    simp only [leVal, List.length_cons, Nat.pow_succ]
    omega

/-- Bytes written as a value of their own length are themselves. -/
theorem leBytes_leVal (bs : List Byte) : leBytes bs.length (leVal bs) = bs := by
  induction bs with
  | nil => rfl
  | cons b r ih =>
    have h : (b.toNat + 256 * leVal r) / 256 = leVal r := by have := b.isLt; omega
    have hb : BitVec.ofNat 8 (b.toNat + 256 * leVal r) = b := by
      apply BitVec.eq_of_toNat_eq; have := b.isLt; simp; omega
    simp [leBytes, leVal, h, hb, ih]

/-- A field that starts behind a prefix is a field of what follows the prefix. -/
theorem leField_append_right (a b : List Byte) (k n : Nat) : leField (a ++ b) (a.length + k) n = leField b k n := by
  simp [leField, List.drop_append, List.drop_eq_nil_of_le (Nat.le_add_right a.length k)]

/-- A field that lies within a prefix is a field of the prefix. -/
theorem leField_append_left (a b : List Byte) (lo n : Nat) (h : lo + n ≤ a.length) :
    leField (a ++ b) lo n = leField a lo n := by
  have : n - (a.length - lo) = 0 := by omega
  simp [leField, List.drop_append_of_le_length (show lo ≤ a.length by omega), List.take_append, this]

/-- A value that `leBytes` wrote reads back, whatever follows it. -/
theorem leField_leBytes (n v : Nat) (r : List Byte) : leField (leBytes n v ++ r) 0 n = v % 256 ^ n := by
  have := leField_append_left (leBytes n v) r 0 n (by simp)
  rw [this]
  simp [leField, leVal_leBytes, List.take_of_length_le]

/-- A record that ends with the CRC-32C of the bytes before it shows it. -/
theorem leField_crc (b : List Byte) : leField (b ++ leBytes 4 (crc32c b).toNat) b.length 4 = (crc32c b).toNat := by
  have h := leField_append_right b (leBytes 4 (crc32c b).toNat) 0 4
  have := leField_leBytes 4 (crc32c b).toNat []
  rw [Nat.add_zero] at h
  rw [h]
  simp only [List.append_nil] at this
  rw [this]
  exact Nat.mod_eq_of_lt (crc32c b).isLt

@[simp] theorem padTo_length (n : Nat) (bs : List Byte) : (padTo n bs).length = n := by
  simp [padTo]

end Sys2Proof.Machine
end

