-- ==== Sys2Proof/Laws/State.lean ====
section
/-!
SUPPORT. The small laws of State: sparse tables, register words and fields, and one lemma per field of the device for each
update, so that no later proof unfolds a record update.
-/
namespace Sys2Proof.Machine

/-! ### Sparse tables -/

@[simp] theorem Table.find_nil {β : Type} (k : Nat) : Table.find ([] : Table β) k = none := rfl

theorem Table.find_ins_same {β : Type} (t : Table β) (k : Nat) (b : β) : Table.find (Table.ins t k b) k = some b := by
  induction t with
  | nil => simp [Table.ins, Table.find]
  | cons e r ih =>
    obtain ⟨i, c⟩ := e
    simp only [Table.ins]
    split
    · simp [Table.find]
    · split
      · simp [Table.find]
      · rename_i h1 h2
        have h : ¬ i = k := fun h => h2 h.symm
        simp [Table.find, h, ih]

theorem Table.find_ins_ne {β : Type} (t : Table β) {k j : Nat} (b : β) (h : j ≠ k) :
    Table.find (Table.ins t k b) j = Table.find t j := by
  have h' : ¬ k = j := fun e => h e.symm
  induction t with
  | nil => simp [Table.ins, Table.find, h']
  | cons e r ih =>
    obtain ⟨i, c⟩ := e
    simp only [Table.ins]
    split
    · simp [Table.find, h']
    · split
      · rename_i h1 h2
        subst h2
        simp [Table.find, h']
      · by_cases hij : i = j <;> simp [Table.find, hij, ih]

theorem Table.find_del_same {β : Type} (t : Table β) (k : Nat) : Table.find (Table.del t k) k = none := by
  induction t with
  | nil => rfl
  | cons e r ih =>
    obtain ⟨i, c⟩ := e
    by_cases h : i = k
    · simpa [Table.del, h] using ih
    · simpa [Table.del, h, Table.find] using ih

theorem Table.find_del_ne {β : Type} (t : Table β) {k j : Nat} (h : j ≠ k) :
    Table.find (Table.del t k) j = Table.find t j := by
  induction t with
  | nil => rfl
  | cons e r ih =>
    obtain ⟨i, c⟩ := e
    by_cases hk : i = k
    · have hj : ¬ i = j := fun e => h (e.symm.trans hk)
      have ih' : Table.find (List.filter (fun e => e.1 != k) r) j = Table.find r j := ih
      subst hk
      simpa [Table.del, Table.find, hj] using ih'
    · have ih' : Table.find (List.filter (fun e => e.1 != k) r) j = Table.find r j := ih
      by_cases hij : i = j
      · subst hij
        simp [Table.del, Table.find, hk]
      · simpa [Table.del, Table.find, hk, hij] using ih'

@[simp] theorem Table.get_put_same {β : Type} [DecidableEq β] (t : Table β) (k : Nat) (b d : β) :
    Table.get (Table.put t k b d) k d = b := by
  unfold Table.get Table.put
  split
  · rename_i h; simp [Table.find_del_same, h]
  · simp [Table.find_ins_same]

theorem Table.get_put_ne {β : Type} [DecidableEq β] (t : Table β) {k j : Nat} (b d e : β) (h : j ≠ k) :
    Table.get (Table.put t k b d) j e = Table.get t j e := by
  unfold Table.get Table.put
  split <;> simp [Table.find_del_ne, Table.find_ins_ne, h]

@[simp] theorem Table.get_ins_same {β : Type} (t : Table β) (k : Nat) (b d : β) :
    Table.get (Table.ins t k b) k d = b := by
  simp [Table.get, Table.find_ins_same]

theorem Table.get_ins_ne {β : Type} (t : Table β) {k j : Nat} (b d : β) (h : j ≠ k) :
    Table.get (Table.ins t k b) j d = Table.get t j d := by
  simp [Table.get, Table.find_ins_ne, h]

/-! ### Register words -/

/-- Words of different registers have different keys. -/
theorem Reg.key_ne_of_reg {r q : Reg} (h : r ≠ q) (i j : Nat) : r.key i ≠ q.key j := by
  intro e
  have hi : i % 2 ^ 20 < 2 ^ 20 := Nat.mod_lt _ (by decide)
  have hj : j % 2 ^ 20 < 2 ^ 20 := Nat.mod_lt _ (by decide)
  simp only [Reg.key] at e
  have hc : r.ctorIdx = q.ctorIdx := by omega
  apply h
  rw [← Reg.ofNat_ctorIdx r, ← Reg.ofNat_ctorIdx q, hc]

/-- Words of one register at different indices below 2^20 have different keys. -/
theorem Reg.key_ne_of_idx (r : Reg) {i j : Nat} (hi : i < 2 ^ 20) (hj : j < 2 ^ 20) (h : i ≠ j) : r.key i ≠ r.key j := by
  simp only [Reg.key]
  omega

@[simp] theorem Dev.word_setWord_same (d : Dev) (r : Reg) (i : Nat) (w : Word) : (d.setWord r i w).word r i = w := by
  simp [Dev.word, Dev.setWord]

theorem Dev.word_setWord_reg (d : Dev) {r q : Reg} (i j : Nat) (w : Word) (h : q ≠ r) :
    (d.setWord r i w).word q j = d.word q j := by
  simp only [Dev.word, Dev.setWord]
  exact Table.get_put_ne _ _ _ _ (Reg.key_ne_of_reg h j i)

theorem Dev.word_setWord_idx (d : Dev) (r : Reg) {i j : Nat} (w : Word) (hi : i < 2 ^ 20) (hj : j < 2 ^ 20) (h : j ≠ i) :
    (d.setWord r i w).word r j = d.word r j := by
  simp only [Dev.word, Dev.setWord]
  exact Table.get_put_ne _ _ _ _ (Reg.key_ne_of_idx r hj hi h)

@[simp] theorem Dev.word_setShWord (d : Dev) (r q : Reg) (i j : Nat) (w : Word) :
    (d.setShWord r i w).word q j = d.word q j := rfl

@[simp] theorem Dev.shWord_setWord (d : Dev) (r q : Reg) (i j : Nat) (w : Word) :
    (d.setWord r i w).shWord q j = d.shWord q j := rfl

@[simp] theorem Dev.shWord_setShWord_same (d : Dev) (r : Reg) (i : Nat) (w : Word) :
    (d.setShWord r i w).shWord r i = w := by
  simp [Dev.shWord, Dev.setShWord]

theorem Dev.shWord_setShWord_reg (d : Dev) {r q : Reg} (i j : Nat) (w : Word) (h : q ≠ r) :
    (d.setShWord r i w).shWord q j = d.shWord q j := by
  simp only [Dev.shWord, Dev.setShWord]
  exact Table.get_put_ne _ _ _ _ (Reg.key_ne_of_reg h j i)

/-! ### Fields -/

/-- A field lies in its word. -/
def Fld.fits (f : Fld) : Bool := decide (f.lo + f.w ≤ 32)

/-- Two fields share no bit: of different registers, or apart within a word. -/
def Fld.apart (f g : Fld) : Bool :=
  f.reg != g.reg || decide (f.lo + f.w ≤ g.lo) || decide (g.lo + g.w ≤ f.lo)

/-- The bits of a field's value. -/
theorem Fld.of_testBit (f : Fld) (w : Word) (k : Nat) :
    (f.of w).testBit k = (decide (k < f.w) && w.getLsbD (f.lo + k)) := by
  simp only [Fld.of, Nat.testBit_mod_two_pow, Nat.testBit_shiftRight, BitVec.testBit_toNat]

/-- The bits of a word with a field set. -/
theorem Fld.into_bit (f : Fld) (w : Word) (v k : Nat) (hk : k < 32) :
    (f.into w v).getLsbD k = if f.lo ≤ k ∧ k < f.lo + f.w then v.testBit (k - f.lo) else w.getLsbD k := by
  have hm : (f.mask).getLsbD k = (decide (f.lo ≤ k) && decide (k < f.lo + f.w)) := by
    rw [Fld.mask, BitVec.getLsbD_ofNat, Nat.testBit_shiftLeft, Nat.testBit_two_pow_sub_one]
    by_cases h : f.lo ≤ k
    · have : (k - f.lo < f.w) = (k < f.lo + f.w) := by
        apply propext; omega
      simp [h, hk, this]
    · simp [h]
  have hv : (BitVec.ofNat 32 ((v % 2 ^ f.w) <<< f.lo)).getLsbD k
      = (decide (f.lo ≤ k) && (decide (k < f.lo + f.w) && v.testBit (k - f.lo))) := by
    rw [BitVec.getLsbD_ofNat, Nat.testBit_shiftLeft, Nat.testBit_mod_two_pow]
    by_cases h : f.lo ≤ k
    · have : (k - f.lo < f.w) = (k < f.lo + f.w) := by
        apply propext; omega
      simp [h, hk, this]
    · simp [h]
  rw [Fld.into, BitVec.getLsbD_or, BitVec.getLsbD_and, BitVec.getLsbD_not, hm, hv]
  by_cases h1 : f.lo ≤ k <;> by_cases h2 : k < f.lo + f.w <;> simp [h1, h2, hk]

theorem Fld.of_into_same (f : Fld) (w : Word) (v : Nat) (h : f.fits = true) : f.of (f.into w v) = v % 2 ^ f.w := by
  have hf : f.lo + f.w ≤ 32 := by simpa [Fld.fits] using h
  apply Nat.eq_of_testBit_eq
  intro k
  rw [Fld.of_testBit, Nat.testBit_mod_two_pow]
  by_cases hk : k < f.w
  · rw [Fld.into_bit f w v _ (by omega)]
    simp [hk]
  · simp [hk]

theorem Fld.of_into_apart (f g : Fld) (w : Word) (v : Nat) (hr : f.reg = g.reg) (h : f.apart g = true) :
    f.of (g.into w v) = f.of w := by
  have hd : f.lo + f.w ≤ g.lo ∨ g.lo + g.w ≤ f.lo := by simpa [Fld.apart, hr] using h
  apply Nat.eq_of_testBit_eq
  intro k
  rw [Fld.of_testBit, Fld.of_testBit]
  by_cases hk : k < f.w
  · by_cases h32 : f.lo + k < 32
    · rw [Fld.into_bit g w v _ h32, if_neg (by omega)]
    · rw [BitVec.getLsbD_of_ge _ _ (by omega), BitVec.getLsbD_of_ge _ _ (by omega)]
  · simp [hk]

/-- A field reads back what was set, modulo its width. -/
theorem Dev.get_set_same (d : Dev) (f : Fld) (i v : Nat) (h : f.fits = true) : (d.set f i v).get f i = v % 2 ^ f.w := by
  simp [Dev.get, Dev.set, Fld.of_into_same, h]

/-- A field that shares no bit with the one set keeps its value, at every index. -/
theorem Dev.get_set_apart (d : Dev) (f g : Fld) (i j v : Nat) (hj : j < 2 ^ 20) (hi : i < 2 ^ 20) (h : f.apart g = true) :
    (d.set g j v).get f i = d.get f i := by
  by_cases hr : f.reg = g.reg
  · by_cases hij : i = j
    · subst hij
      simp only [Dev.get, Dev.set, hr, Dev.word_setWord_same]
      exact Fld.of_into_apart f g _ v hr h
    · simp only [Dev.get, Dev.set, hr]
      rw [Dev.word_setWord_idx _ _ _ hj hi hij]
  · simp only [Dev.get, Dev.set]
    rw [Dev.word_setWord_reg _ _ _ _ hr]

/-- A field of another register keeps its value. -/
theorem Dev.get_set_reg (d : Dev) {f g : Fld} (i j v : Nat) (h : f.reg ≠ g.reg) : (d.set g j v).get f i = d.get f i := by
  simp only [Dev.get, Dev.set]
  rw [Dev.word_setWord_reg _ _ _ _ h]

/-- A field at another index keeps its value. -/
theorem Dev.get_set_idx (d : Dev) (f g : Fld) {i j : Nat} (v : Nat) (hj : j < 2 ^ 20) (hi : i < 2 ^ 20) (h : i ≠ j) :
    (d.set g j v).get f i = d.get f i := by
  by_cases hr : f.reg = g.reg
  · simp only [Dev.get, Dev.set, hr]
    rw [Dev.word_setWord_idx _ _ _ hj hi h]
  · exact Dev.get_set_reg d i j v hr

/-- A word of another register keeps its value. -/
theorem Dev.word_set_reg (d : Dev) (g : Fld) {r : Reg} (i j v : Nat) (h : r ≠ g.reg) :
    (d.set g j v).word r i = d.word r i := by
  simp only [Dev.set]
  exact Dev.word_setWord_reg _ _ _ _ h

@[simp] theorem Dev.get_setShWord (d : Dev) (r : Reg) (i j : Nat) (w : Word) (f : Fld) :
    (d.setShWord r i w).get f j = d.get f j := rfl

/-! ### Entries of functional state -/

@[simp] theorem Dev.chan_setChan_same (d : Dev) (n : Nat) (c : ChanSt) : (d.setChan n c).chan n = c := by
  simp [Dev.chan, Dev.setChan]
theorem Dev.chan_setChan_ne (d : Dev) {n m : Nat} (c : ChanSt) (h : m ≠ n) : (d.setChan n c).chan m = d.chan m := by
  simp only [Dev.chan, Dev.setChan]; exact Table.get_put_ne _ _ _ _ h
@[simp] theorem Dev.server_setServer_same (d : Dev) (n : Nat) (c : ServerSt) : (d.setServer n c).server n = c := by
  simp [Dev.server, Dev.setServer]
@[simp] theorem Dev.trib_setTrib_same (d : Dev) (n : Nat) (c : TribSt) : (d.setTrib n c).trib n = c := by
  simp [Dev.trib, Dev.setTrib]
@[simp] theorem Dev.fx_setFx_same (d : Dev) (n : Nat) (c : FlexeSt) : (d.setFx n c).fx n = c := by
  simp [Dev.fx, Dev.setFx]
@[simp] theorem Dev.oh_setOh_same (d : Dev) (n : Nat) (c : OhSt) : (d.setOh n c).oh n = c := by
  simp [Dev.oh, Dev.setOh]
@[simp] theorem Dev.heat_setHeat_same (d : Dev) (n : Nat) (c : HeatSt) : (d.setHeat n c).heat n = c := by
  simp [Dev.heat, Dev.setHeat]
@[simp] theorem Dev.ctx_setCtx_same (d : Dev) (n : Nat) (c : CtxSt) : (d.setCtx n c).ctx n = c := by
  simp [Dev.ctx, Dev.setCtx]
@[simp] theorem Dev.group_setGroup_same (d : Dev) (n : Nat) (c : GroupSt) : (d.setGroup n c).group n = c := by
  simp [Dev.group, Dev.setGroup]
@[simp] theorem Dev.cap_setCap_same (d : Dev) (n : Nat) (c : CapSt) : (d.setCap n c).cap n = c := by
  simp [Dev.cap, Dev.setCap]

@[simp] theorem State.onDev_dev (s : State) (f : Dev → Dev) : (s.onDev f).dev = f s.dev := rfl
@[simp] theorem State.onDev_pool (s : State) (f : Dev → Dev) : (s.onDev f).pool = s.pool := rfl
@[simp] theorem State.onDev_pending (s : State) (f : Dev → Dev) : (s.onDev f).pending = s.pending := rfl

/-! ### One lemma per field for each update -/

@[simp] theorem Dev.setWord_shadow (d : Dev) (r : Reg) (i : Nat) (w : Word) : (d.setWord r i w).shadow = d.shadow := rfl
@[simp] theorem Dev.setWord_ticks (d : Dev) (r : Reg) (i : Nat) (w : Word) : (d.setWord r i w).ticks = d.ticks := rfl
@[simp] theorem Dev.setWord_dtime (d : Dev) (r : Reg) (i : Nat) (w : Word) : (d.setWord r i w).dtime = d.dtime := rfl
@[simp] theorem Dev.setWord_fresh (d : Dev) (r : Reg) (i : Nat) (w : Word) : (d.setWord r i w).fresh = d.fresh := rfl
@[simp] theorem Dev.setWord_chans (d : Dev) (r : Reg) (i : Nat) (w : Word) : (d.setWord r i w).chans = d.chans := rfl
@[simp] theorem Dev.setWord_servers (d : Dev) (r : Reg) (i : Nat) (w : Word) : (d.setWord r i w).servers = d.servers := rfl
@[simp] theorem Dev.setWord_tribs (d : Dev) (r : Reg) (i : Nat) (w : Word) : (d.setWord r i w).tribs = d.tribs := rfl
@[simp] theorem Dev.setWord_flexe (d : Dev) (r : Reg) (i : Nat) (w : Word) : (d.setWord r i w).flexe = d.flexe := rfl
@[simp] theorem Dev.setWord_ohs (d : Dev) (r : Reg) (i : Nat) (w : Word) : (d.setWord r i w).ohs = d.ohs := rfl
@[simp] theorem Dev.setWord_heats (d : Dev) (r : Reg) (i : Nat) (w : Word) : (d.setWord r i w).heats = d.heats := rfl
@[simp] theorem Dev.setWord_engines (d : Dev) (r : Reg) (i : Nat) (w : Word) : (d.setWord r i w).engines = d.engines := rfl
@[simp] theorem Dev.setWord_ctxs (d : Dev) (r : Reg) (i : Nat) (w : Word) : (d.setWord r i w).ctxs = d.ctxs := rfl
@[simp] theorem Dev.setWord_shadows (d : Dev) (r : Reg) (i : Nat) (w : Word) : (d.setWord r i w).shadows = d.shadows := rfl
@[simp] theorem Dev.setWord_sync (d : Dev) (r : Reg) (i : Nat) (w : Word) : (d.setWord r i w).sync = d.sync := rfl
@[simp] theorem Dev.setWord_groups (d : Dev) (r : Reg) (i : Nat) (w : Word) : (d.setWord r i w).groups = d.groups := rfl
@[simp] theorem Dev.setWord_laps (d : Dev) (r : Reg) (i : Nat) (w : Word) : (d.setWord r i w).laps = d.laps := rfl
@[simp] theorem Dev.setWord_pair (d : Dev) (r : Reg) (i : Nat) (w : Word) : (d.setWord r i w).pair = d.pair := rfl
@[simp] theorem Dev.setWord_check (d : Dev) (r : Reg) (i : Nat) (w : Word) : (d.setWord r i w).check = d.check := rfl
@[simp] theorem Dev.setWord_matrix (d : Dev) (r : Reg) (i : Nat) (w : Word) : (d.setWord r i w).matrix = d.matrix := rfl
@[simp] theorem Dev.setWord_recr (d : Dev) (r : Reg) (i : Nat) (w : Word) : (d.setWord r i w).recr = d.recr := rfl
@[simp] theorem Dev.setWord_caps (d : Dev) (r : Reg) (i : Nat) (w : Word) : (d.setWord r i w).caps = d.caps := rfl
@[simp] theorem Dev.setWord_host (d : Dev) (r : Reg) (i : Nat) (w : Word) : (d.setWord r i w).host = d.host := rfl
@[simp] theorem Dev.setWord_boot (d : Dev) (r : Reg) (i : Nat) (w : Word) : (d.setWord r i w).boot = d.boot := rfl
@[simp] theorem Dev.setWord_sys (d : Dev) (r : Reg) (i : Nat) (w : Word) : (d.setWord r i w).sys = d.sys := rfl
@[simp] theorem Dev.set_shadow (d : Dev) (f : Fld) (i v : Nat) : (d.set f i v).shadow = d.shadow := rfl
@[simp] theorem Dev.set_ticks (d : Dev) (f : Fld) (i v : Nat) : (d.set f i v).ticks = d.ticks := rfl
@[simp] theorem Dev.set_dtime (d : Dev) (f : Fld) (i v : Nat) : (d.set f i v).dtime = d.dtime := rfl
@[simp] theorem Dev.set_fresh (d : Dev) (f : Fld) (i v : Nat) : (d.set f i v).fresh = d.fresh := rfl
@[simp] theorem Dev.set_chans (d : Dev) (f : Fld) (i v : Nat) : (d.set f i v).chans = d.chans := rfl
@[simp] theorem Dev.set_servers (d : Dev) (f : Fld) (i v : Nat) : (d.set f i v).servers = d.servers := rfl
@[simp] theorem Dev.set_tribs (d : Dev) (f : Fld) (i v : Nat) : (d.set f i v).tribs = d.tribs := rfl
@[simp] theorem Dev.set_flexe (d : Dev) (f : Fld) (i v : Nat) : (d.set f i v).flexe = d.flexe := rfl
@[simp] theorem Dev.set_ohs (d : Dev) (f : Fld) (i v : Nat) : (d.set f i v).ohs = d.ohs := rfl
@[simp] theorem Dev.set_heats (d : Dev) (f : Fld) (i v : Nat) : (d.set f i v).heats = d.heats := rfl
@[simp] theorem Dev.set_engines (d : Dev) (f : Fld) (i v : Nat) : (d.set f i v).engines = d.engines := rfl
@[simp] theorem Dev.set_ctxs (d : Dev) (f : Fld) (i v : Nat) : (d.set f i v).ctxs = d.ctxs := rfl
@[simp] theorem Dev.set_shadows (d : Dev) (f : Fld) (i v : Nat) : (d.set f i v).shadows = d.shadows := rfl
@[simp] theorem Dev.set_sync (d : Dev) (f : Fld) (i v : Nat) : (d.set f i v).sync = d.sync := rfl
@[simp] theorem Dev.set_groups (d : Dev) (f : Fld) (i v : Nat) : (d.set f i v).groups = d.groups := rfl
@[simp] theorem Dev.set_laps (d : Dev) (f : Fld) (i v : Nat) : (d.set f i v).laps = d.laps := rfl
@[simp] theorem Dev.set_pair (d : Dev) (f : Fld) (i v : Nat) : (d.set f i v).pair = d.pair := rfl
@[simp] theorem Dev.set_check (d : Dev) (f : Fld) (i v : Nat) : (d.set f i v).check = d.check := rfl
@[simp] theorem Dev.set_matrix (d : Dev) (f : Fld) (i v : Nat) : (d.set f i v).matrix = d.matrix := rfl
@[simp] theorem Dev.set_recr (d : Dev) (f : Fld) (i v : Nat) : (d.set f i v).recr = d.recr := rfl
@[simp] theorem Dev.set_caps (d : Dev) (f : Fld) (i v : Nat) : (d.set f i v).caps = d.caps := rfl
@[simp] theorem Dev.set_host (d : Dev) (f : Fld) (i v : Nat) : (d.set f i v).host = d.host := rfl
@[simp] theorem Dev.set_boot (d : Dev) (f : Fld) (i v : Nat) : (d.set f i v).boot = d.boot := rfl
@[simp] theorem Dev.set_sys (d : Dev) (f : Fld) (i v : Nat) : (d.set f i v).sys = d.sys := rfl
@[simp] theorem Dev.setB_shadow (d : Dev) (f : Fld) (i : Nat) (b : Bool) : (d.setB f i b).shadow = d.shadow := rfl
@[simp] theorem Dev.setB_ticks (d : Dev) (f : Fld) (i : Nat) (b : Bool) : (d.setB f i b).ticks = d.ticks := rfl
@[simp] theorem Dev.setB_dtime (d : Dev) (f : Fld) (i : Nat) (b : Bool) : (d.setB f i b).dtime = d.dtime := rfl
@[simp] theorem Dev.setB_fresh (d : Dev) (f : Fld) (i : Nat) (b : Bool) : (d.setB f i b).fresh = d.fresh := rfl
@[simp] theorem Dev.setB_chans (d : Dev) (f : Fld) (i : Nat) (b : Bool) : (d.setB f i b).chans = d.chans := rfl
@[simp] theorem Dev.setB_servers (d : Dev) (f : Fld) (i : Nat) (b : Bool) : (d.setB f i b).servers = d.servers := rfl
@[simp] theorem Dev.setB_tribs (d : Dev) (f : Fld) (i : Nat) (b : Bool) : (d.setB f i b).tribs = d.tribs := rfl
@[simp] theorem Dev.setB_flexe (d : Dev) (f : Fld) (i : Nat) (b : Bool) : (d.setB f i b).flexe = d.flexe := rfl
@[simp] theorem Dev.setB_ohs (d : Dev) (f : Fld) (i : Nat) (b : Bool) : (d.setB f i b).ohs = d.ohs := rfl
@[simp] theorem Dev.setB_heats (d : Dev) (f : Fld) (i : Nat) (b : Bool) : (d.setB f i b).heats = d.heats := rfl
@[simp] theorem Dev.setB_engines (d : Dev) (f : Fld) (i : Nat) (b : Bool) : (d.setB f i b).engines = d.engines := rfl
@[simp] theorem Dev.setB_ctxs (d : Dev) (f : Fld) (i : Nat) (b : Bool) : (d.setB f i b).ctxs = d.ctxs := rfl
@[simp] theorem Dev.setB_shadows (d : Dev) (f : Fld) (i : Nat) (b : Bool) : (d.setB f i b).shadows = d.shadows := rfl
@[simp] theorem Dev.setB_sync (d : Dev) (f : Fld) (i : Nat) (b : Bool) : (d.setB f i b).sync = d.sync := rfl
@[simp] theorem Dev.setB_groups (d : Dev) (f : Fld) (i : Nat) (b : Bool) : (d.setB f i b).groups = d.groups := rfl
@[simp] theorem Dev.setB_laps (d : Dev) (f : Fld) (i : Nat) (b : Bool) : (d.setB f i b).laps = d.laps := rfl
@[simp] theorem Dev.setB_pair (d : Dev) (f : Fld) (i : Nat) (b : Bool) : (d.setB f i b).pair = d.pair := rfl
@[simp] theorem Dev.setB_check (d : Dev) (f : Fld) (i : Nat) (b : Bool) : (d.setB f i b).check = d.check := rfl
@[simp] theorem Dev.setB_matrix (d : Dev) (f : Fld) (i : Nat) (b : Bool) : (d.setB f i b).matrix = d.matrix := rfl
@[simp] theorem Dev.setB_recr (d : Dev) (f : Fld) (i : Nat) (b : Bool) : (d.setB f i b).recr = d.recr := rfl
@[simp] theorem Dev.setB_caps (d : Dev) (f : Fld) (i : Nat) (b : Bool) : (d.setB f i b).caps = d.caps := rfl
@[simp] theorem Dev.setB_host (d : Dev) (f : Fld) (i : Nat) (b : Bool) : (d.setB f i b).host = d.host := rfl
@[simp] theorem Dev.setB_boot (d : Dev) (f : Fld) (i : Nat) (b : Bool) : (d.setB f i b).boot = d.boot := rfl
@[simp] theorem Dev.setB_sys (d : Dev) (f : Fld) (i : Nat) (b : Bool) : (d.setB f i b).sys = d.sys := rfl
@[simp] theorem Dev.bump_shadow (d : Dev) (f : Fld) (i n : Nat) : (d.bump f i n).shadow = d.shadow := rfl
@[simp] theorem Dev.bump_ticks (d : Dev) (f : Fld) (i n : Nat) : (d.bump f i n).ticks = d.ticks := rfl
@[simp] theorem Dev.bump_dtime (d : Dev) (f : Fld) (i n : Nat) : (d.bump f i n).dtime = d.dtime := rfl
@[simp] theorem Dev.bump_fresh (d : Dev) (f : Fld) (i n : Nat) : (d.bump f i n).fresh = d.fresh := rfl
@[simp] theorem Dev.bump_chans (d : Dev) (f : Fld) (i n : Nat) : (d.bump f i n).chans = d.chans := rfl
@[simp] theorem Dev.bump_servers (d : Dev) (f : Fld) (i n : Nat) : (d.bump f i n).servers = d.servers := rfl
@[simp] theorem Dev.bump_tribs (d : Dev) (f : Fld) (i n : Nat) : (d.bump f i n).tribs = d.tribs := rfl
@[simp] theorem Dev.bump_flexe (d : Dev) (f : Fld) (i n : Nat) : (d.bump f i n).flexe = d.flexe := rfl
@[simp] theorem Dev.bump_ohs (d : Dev) (f : Fld) (i n : Nat) : (d.bump f i n).ohs = d.ohs := rfl
@[simp] theorem Dev.bump_heats (d : Dev) (f : Fld) (i n : Nat) : (d.bump f i n).heats = d.heats := rfl
@[simp] theorem Dev.bump_engines (d : Dev) (f : Fld) (i n : Nat) : (d.bump f i n).engines = d.engines := rfl
@[simp] theorem Dev.bump_ctxs (d : Dev) (f : Fld) (i n : Nat) : (d.bump f i n).ctxs = d.ctxs := rfl
@[simp] theorem Dev.bump_shadows (d : Dev) (f : Fld) (i n : Nat) : (d.bump f i n).shadows = d.shadows := rfl
@[simp] theorem Dev.bump_sync (d : Dev) (f : Fld) (i n : Nat) : (d.bump f i n).sync = d.sync := rfl
@[simp] theorem Dev.bump_groups (d : Dev) (f : Fld) (i n : Nat) : (d.bump f i n).groups = d.groups := rfl
@[simp] theorem Dev.bump_laps (d : Dev) (f : Fld) (i n : Nat) : (d.bump f i n).laps = d.laps := rfl
@[simp] theorem Dev.bump_pair (d : Dev) (f : Fld) (i n : Nat) : (d.bump f i n).pair = d.pair := rfl
@[simp] theorem Dev.bump_check (d : Dev) (f : Fld) (i n : Nat) : (d.bump f i n).check = d.check := rfl
@[simp] theorem Dev.bump_matrix (d : Dev) (f : Fld) (i n : Nat) : (d.bump f i n).matrix = d.matrix := rfl
@[simp] theorem Dev.bump_recr (d : Dev) (f : Fld) (i n : Nat) : (d.bump f i n).recr = d.recr := rfl
@[simp] theorem Dev.bump_caps (d : Dev) (f : Fld) (i n : Nat) : (d.bump f i n).caps = d.caps := rfl
@[simp] theorem Dev.bump_host (d : Dev) (f : Fld) (i n : Nat) : (d.bump f i n).host = d.host := rfl
@[simp] theorem Dev.bump_boot (d : Dev) (f : Fld) (i n : Nat) : (d.bump f i n).boot = d.boot := rfl
@[simp] theorem Dev.bump_sys (d : Dev) (f : Fld) (i n : Nat) : (d.bump f i n).sys = d.sys := rfl
@[simp] theorem Dev.wrap_shadow (d : Dev) (f : Fld) (i n : Nat) : (d.wrap f i n).shadow = d.shadow := rfl
@[simp] theorem Dev.wrap_ticks (d : Dev) (f : Fld) (i n : Nat) : (d.wrap f i n).ticks = d.ticks := rfl
@[simp] theorem Dev.wrap_dtime (d : Dev) (f : Fld) (i n : Nat) : (d.wrap f i n).dtime = d.dtime := rfl
@[simp] theorem Dev.wrap_fresh (d : Dev) (f : Fld) (i n : Nat) : (d.wrap f i n).fresh = d.fresh := rfl
@[simp] theorem Dev.wrap_chans (d : Dev) (f : Fld) (i n : Nat) : (d.wrap f i n).chans = d.chans := rfl
@[simp] theorem Dev.wrap_servers (d : Dev) (f : Fld) (i n : Nat) : (d.wrap f i n).servers = d.servers := rfl
@[simp] theorem Dev.wrap_tribs (d : Dev) (f : Fld) (i n : Nat) : (d.wrap f i n).tribs = d.tribs := rfl
@[simp] theorem Dev.wrap_flexe (d : Dev) (f : Fld) (i n : Nat) : (d.wrap f i n).flexe = d.flexe := rfl
@[simp] theorem Dev.wrap_ohs (d : Dev) (f : Fld) (i n : Nat) : (d.wrap f i n).ohs = d.ohs := rfl
@[simp] theorem Dev.wrap_heats (d : Dev) (f : Fld) (i n : Nat) : (d.wrap f i n).heats = d.heats := rfl
@[simp] theorem Dev.wrap_engines (d : Dev) (f : Fld) (i n : Nat) : (d.wrap f i n).engines = d.engines := rfl
@[simp] theorem Dev.wrap_ctxs (d : Dev) (f : Fld) (i n : Nat) : (d.wrap f i n).ctxs = d.ctxs := rfl
@[simp] theorem Dev.wrap_shadows (d : Dev) (f : Fld) (i n : Nat) : (d.wrap f i n).shadows = d.shadows := rfl
@[simp] theorem Dev.wrap_sync (d : Dev) (f : Fld) (i n : Nat) : (d.wrap f i n).sync = d.sync := rfl
@[simp] theorem Dev.wrap_groups (d : Dev) (f : Fld) (i n : Nat) : (d.wrap f i n).groups = d.groups := rfl
@[simp] theorem Dev.wrap_laps (d : Dev) (f : Fld) (i n : Nat) : (d.wrap f i n).laps = d.laps := rfl
@[simp] theorem Dev.wrap_pair (d : Dev) (f : Fld) (i n : Nat) : (d.wrap f i n).pair = d.pair := rfl
@[simp] theorem Dev.wrap_check (d : Dev) (f : Fld) (i n : Nat) : (d.wrap f i n).check = d.check := rfl
@[simp] theorem Dev.wrap_matrix (d : Dev) (f : Fld) (i n : Nat) : (d.wrap f i n).matrix = d.matrix := rfl
@[simp] theorem Dev.wrap_recr (d : Dev) (f : Fld) (i n : Nat) : (d.wrap f i n).recr = d.recr := rfl
@[simp] theorem Dev.wrap_caps (d : Dev) (f : Fld) (i n : Nat) : (d.wrap f i n).caps = d.caps := rfl
@[simp] theorem Dev.wrap_host (d : Dev) (f : Fld) (i n : Nat) : (d.wrap f i n).host = d.host := rfl
@[simp] theorem Dev.wrap_boot (d : Dev) (f : Fld) (i n : Nat) : (d.wrap f i n).boot = d.boot := rfl
@[simp] theorem Dev.wrap_sys (d : Dev) (f : Fld) (i n : Nat) : (d.wrap f i n).sys = d.sys := rfl
@[simp] theorem Dev.setPd_shadow (d : Dev) (x : Nat) (b : Bool) : (d.setPd x b).shadow = d.shadow := rfl
@[simp] theorem Dev.setPd_ticks (d : Dev) (x : Nat) (b : Bool) : (d.setPd x b).ticks = d.ticks := rfl
@[simp] theorem Dev.setPd_dtime (d : Dev) (x : Nat) (b : Bool) : (d.setPd x b).dtime = d.dtime := rfl
@[simp] theorem Dev.setPd_fresh (d : Dev) (x : Nat) (b : Bool) : (d.setPd x b).fresh = d.fresh := rfl
@[simp] theorem Dev.setPd_chans (d : Dev) (x : Nat) (b : Bool) : (d.setPd x b).chans = d.chans := rfl
@[simp] theorem Dev.setPd_servers (d : Dev) (x : Nat) (b : Bool) : (d.setPd x b).servers = d.servers := rfl
@[simp] theorem Dev.setPd_tribs (d : Dev) (x : Nat) (b : Bool) : (d.setPd x b).tribs = d.tribs := rfl
@[simp] theorem Dev.setPd_flexe (d : Dev) (x : Nat) (b : Bool) : (d.setPd x b).flexe = d.flexe := rfl
@[simp] theorem Dev.setPd_ohs (d : Dev) (x : Nat) (b : Bool) : (d.setPd x b).ohs = d.ohs := rfl
@[simp] theorem Dev.setPd_heats (d : Dev) (x : Nat) (b : Bool) : (d.setPd x b).heats = d.heats := rfl
@[simp] theorem Dev.setPd_engines (d : Dev) (x : Nat) (b : Bool) : (d.setPd x b).engines = d.engines := rfl
@[simp] theorem Dev.setPd_ctxs (d : Dev) (x : Nat) (b : Bool) : (d.setPd x b).ctxs = d.ctxs := rfl
@[simp] theorem Dev.setPd_shadows (d : Dev) (x : Nat) (b : Bool) : (d.setPd x b).shadows = d.shadows := rfl
@[simp] theorem Dev.setPd_sync (d : Dev) (x : Nat) (b : Bool) : (d.setPd x b).sync = d.sync := rfl
@[simp] theorem Dev.setPd_groups (d : Dev) (x : Nat) (b : Bool) : (d.setPd x b).groups = d.groups := rfl
@[simp] theorem Dev.setPd_laps (d : Dev) (x : Nat) (b : Bool) : (d.setPd x b).laps = d.laps := rfl
@[simp] theorem Dev.setPd_pair (d : Dev) (x : Nat) (b : Bool) : (d.setPd x b).pair = d.pair := rfl
@[simp] theorem Dev.setPd_check (d : Dev) (x : Nat) (b : Bool) : (d.setPd x b).check = d.check := rfl
@[simp] theorem Dev.setPd_matrix (d : Dev) (x : Nat) (b : Bool) : (d.setPd x b).matrix = d.matrix := rfl
@[simp] theorem Dev.setPd_recr (d : Dev) (x : Nat) (b : Bool) : (d.setPd x b).recr = d.recr := rfl
@[simp] theorem Dev.setPd_caps (d : Dev) (x : Nat) (b : Bool) : (d.setPd x b).caps = d.caps := rfl
@[simp] theorem Dev.setPd_host (d : Dev) (x : Nat) (b : Bool) : (d.setPd x b).host = d.host := rfl
@[simp] theorem Dev.setPd_boot (d : Dev) (x : Nat) (b : Bool) : (d.setPd x b).boot = d.boot := rfl
@[simp] theorem Dev.setPd_sys (d : Dev) (x : Nat) (b : Bool) : (d.setPd x b).sys = d.sys := rfl
@[simp] theorem Dev.setUst_shadow (d : Dev) (c : UClass) (i v : Nat) : (d.setUst c i v).shadow = d.shadow := rfl
@[simp] theorem Dev.setUst_ticks (d : Dev) (c : UClass) (i v : Nat) : (d.setUst c i v).ticks = d.ticks := rfl
@[simp] theorem Dev.setUst_dtime (d : Dev) (c : UClass) (i v : Nat) : (d.setUst c i v).dtime = d.dtime := rfl
@[simp] theorem Dev.setUst_fresh (d : Dev) (c : UClass) (i v : Nat) : (d.setUst c i v).fresh = d.fresh := rfl
@[simp] theorem Dev.setUst_chans (d : Dev) (c : UClass) (i v : Nat) : (d.setUst c i v).chans = d.chans := rfl
@[simp] theorem Dev.setUst_servers (d : Dev) (c : UClass) (i v : Nat) : (d.setUst c i v).servers = d.servers := rfl
@[simp] theorem Dev.setUst_tribs (d : Dev) (c : UClass) (i v : Nat) : (d.setUst c i v).tribs = d.tribs := rfl
@[simp] theorem Dev.setUst_flexe (d : Dev) (c : UClass) (i v : Nat) : (d.setUst c i v).flexe = d.flexe := rfl
@[simp] theorem Dev.setUst_ohs (d : Dev) (c : UClass) (i v : Nat) : (d.setUst c i v).ohs = d.ohs := rfl
@[simp] theorem Dev.setUst_heats (d : Dev) (c : UClass) (i v : Nat) : (d.setUst c i v).heats = d.heats := rfl
@[simp] theorem Dev.setUst_engines (d : Dev) (c : UClass) (i v : Nat) : (d.setUst c i v).engines = d.engines := rfl
@[simp] theorem Dev.setUst_ctxs (d : Dev) (c : UClass) (i v : Nat) : (d.setUst c i v).ctxs = d.ctxs := rfl
@[simp] theorem Dev.setUst_shadows (d : Dev) (c : UClass) (i v : Nat) : (d.setUst c i v).shadows = d.shadows := rfl
@[simp] theorem Dev.setUst_sync (d : Dev) (c : UClass) (i v : Nat) : (d.setUst c i v).sync = d.sync := rfl
@[simp] theorem Dev.setUst_groups (d : Dev) (c : UClass) (i v : Nat) : (d.setUst c i v).groups = d.groups := rfl
@[simp] theorem Dev.setUst_laps (d : Dev) (c : UClass) (i v : Nat) : (d.setUst c i v).laps = d.laps := rfl
@[simp] theorem Dev.setUst_pair (d : Dev) (c : UClass) (i v : Nat) : (d.setUst c i v).pair = d.pair := rfl
@[simp] theorem Dev.setUst_check (d : Dev) (c : UClass) (i v : Nat) : (d.setUst c i v).check = d.check := rfl
@[simp] theorem Dev.setUst_matrix (d : Dev) (c : UClass) (i v : Nat) : (d.setUst c i v).matrix = d.matrix := rfl
@[simp] theorem Dev.setUst_recr (d : Dev) (c : UClass) (i v : Nat) : (d.setUst c i v).recr = d.recr := rfl
@[simp] theorem Dev.setUst_caps (d : Dev) (c : UClass) (i v : Nat) : (d.setUst c i v).caps = d.caps := rfl
@[simp] theorem Dev.setUst_host (d : Dev) (c : UClass) (i v : Nat) : (d.setUst c i v).host = d.host := rfl
@[simp] theorem Dev.setUst_boot (d : Dev) (c : UClass) (i v : Nat) : (d.setUst c i v).boot = d.boot := rfl
@[simp] theorem Dev.setUst_sys (d : Dev) (c : UClass) (i v : Nat) : (d.setUst c i v).sys = d.sys := rfl
@[simp] theorem Dev.setShWord_regs (d : Dev) (r : Reg) (i : Nat) (w : Word) : (d.setShWord r i w).regs = d.regs := rfl
@[simp] theorem Dev.setShWord_ticks (d : Dev) (r : Reg) (i : Nat) (w : Word) : (d.setShWord r i w).ticks = d.ticks := rfl
@[simp] theorem Dev.setShWord_dtime (d : Dev) (r : Reg) (i : Nat) (w : Word) : (d.setShWord r i w).dtime = d.dtime := rfl
@[simp] theorem Dev.setShWord_fresh (d : Dev) (r : Reg) (i : Nat) (w : Word) : (d.setShWord r i w).fresh = d.fresh := rfl
@[simp] theorem Dev.setShWord_chans (d : Dev) (r : Reg) (i : Nat) (w : Word) : (d.setShWord r i w).chans = d.chans := rfl
@[simp] theorem Dev.setShWord_servers (d : Dev) (r : Reg) (i : Nat) (w : Word) : (d.setShWord r i w).servers = d.servers := rfl
@[simp] theorem Dev.setShWord_tribs (d : Dev) (r : Reg) (i : Nat) (w : Word) : (d.setShWord r i w).tribs = d.tribs := rfl
@[simp] theorem Dev.setShWord_flexe (d : Dev) (r : Reg) (i : Nat) (w : Word) : (d.setShWord r i w).flexe = d.flexe := rfl
@[simp] theorem Dev.setShWord_ohs (d : Dev) (r : Reg) (i : Nat) (w : Word) : (d.setShWord r i w).ohs = d.ohs := rfl
@[simp] theorem Dev.setShWord_heats (d : Dev) (r : Reg) (i : Nat) (w : Word) : (d.setShWord r i w).heats = d.heats := rfl
@[simp] theorem Dev.setShWord_engines (d : Dev) (r : Reg) (i : Nat) (w : Word) : (d.setShWord r i w).engines = d.engines := rfl
@[simp] theorem Dev.setShWord_ctxs (d : Dev) (r : Reg) (i : Nat) (w : Word) : (d.setShWord r i w).ctxs = d.ctxs := rfl
@[simp] theorem Dev.setShWord_shadows (d : Dev) (r : Reg) (i : Nat) (w : Word) : (d.setShWord r i w).shadows = d.shadows := rfl
@[simp] theorem Dev.setShWord_sync (d : Dev) (r : Reg) (i : Nat) (w : Word) : (d.setShWord r i w).sync = d.sync := rfl
@[simp] theorem Dev.setShWord_groups (d : Dev) (r : Reg) (i : Nat) (w : Word) : (d.setShWord r i w).groups = d.groups := rfl
@[simp] theorem Dev.setShWord_laps (d : Dev) (r : Reg) (i : Nat) (w : Word) : (d.setShWord r i w).laps = d.laps := rfl
@[simp] theorem Dev.setShWord_pair (d : Dev) (r : Reg) (i : Nat) (w : Word) : (d.setShWord r i w).pair = d.pair := rfl
@[simp] theorem Dev.setShWord_check (d : Dev) (r : Reg) (i : Nat) (w : Word) : (d.setShWord r i w).check = d.check := rfl
@[simp] theorem Dev.setShWord_matrix (d : Dev) (r : Reg) (i : Nat) (w : Word) : (d.setShWord r i w).matrix = d.matrix := rfl
@[simp] theorem Dev.setShWord_recr (d : Dev) (r : Reg) (i : Nat) (w : Word) : (d.setShWord r i w).recr = d.recr := rfl
@[simp] theorem Dev.setShWord_caps (d : Dev) (r : Reg) (i : Nat) (w : Word) : (d.setShWord r i w).caps = d.caps := rfl
@[simp] theorem Dev.setShWord_host (d : Dev) (r : Reg) (i : Nat) (w : Word) : (d.setShWord r i w).host = d.host := rfl
@[simp] theorem Dev.setShWord_boot (d : Dev) (r : Reg) (i : Nat) (w : Word) : (d.setShWord r i w).boot = d.boot := rfl
@[simp] theorem Dev.setShWord_sys (d : Dev) (r : Reg) (i : Nat) (w : Word) : (d.setShWord r i w).sys = d.sys := rfl
@[simp] theorem Dev.setChan_regs (d : Dev) (n : Nat) (c : ChanSt) : (d.setChan n c).regs = d.regs := rfl
@[simp] theorem Dev.setChan_shadow (d : Dev) (n : Nat) (c : ChanSt) : (d.setChan n c).shadow = d.shadow := rfl
@[simp] theorem Dev.setChan_ticks (d : Dev) (n : Nat) (c : ChanSt) : (d.setChan n c).ticks = d.ticks := rfl
@[simp] theorem Dev.setChan_dtime (d : Dev) (n : Nat) (c : ChanSt) : (d.setChan n c).dtime = d.dtime := rfl
@[simp] theorem Dev.setChan_fresh (d : Dev) (n : Nat) (c : ChanSt) : (d.setChan n c).fresh = d.fresh := rfl
@[simp] theorem Dev.setChan_servers (d : Dev) (n : Nat) (c : ChanSt) : (d.setChan n c).servers = d.servers := rfl
@[simp] theorem Dev.setChan_tribs (d : Dev) (n : Nat) (c : ChanSt) : (d.setChan n c).tribs = d.tribs := rfl
@[simp] theorem Dev.setChan_flexe (d : Dev) (n : Nat) (c : ChanSt) : (d.setChan n c).flexe = d.flexe := rfl
@[simp] theorem Dev.setChan_ohs (d : Dev) (n : Nat) (c : ChanSt) : (d.setChan n c).ohs = d.ohs := rfl
@[simp] theorem Dev.setChan_heats (d : Dev) (n : Nat) (c : ChanSt) : (d.setChan n c).heats = d.heats := rfl
@[simp] theorem Dev.setChan_engines (d : Dev) (n : Nat) (c : ChanSt) : (d.setChan n c).engines = d.engines := rfl
@[simp] theorem Dev.setChan_ctxs (d : Dev) (n : Nat) (c : ChanSt) : (d.setChan n c).ctxs = d.ctxs := rfl
@[simp] theorem Dev.setChan_shadows (d : Dev) (n : Nat) (c : ChanSt) : (d.setChan n c).shadows = d.shadows := rfl
@[simp] theorem Dev.setChan_sync (d : Dev) (n : Nat) (c : ChanSt) : (d.setChan n c).sync = d.sync := rfl
@[simp] theorem Dev.setChan_groups (d : Dev) (n : Nat) (c : ChanSt) : (d.setChan n c).groups = d.groups := rfl
@[simp] theorem Dev.setChan_laps (d : Dev) (n : Nat) (c : ChanSt) : (d.setChan n c).laps = d.laps := rfl
@[simp] theorem Dev.setChan_pair (d : Dev) (n : Nat) (c : ChanSt) : (d.setChan n c).pair = d.pair := rfl
@[simp] theorem Dev.setChan_check (d : Dev) (n : Nat) (c : ChanSt) : (d.setChan n c).check = d.check := rfl
@[simp] theorem Dev.setChan_matrix (d : Dev) (n : Nat) (c : ChanSt) : (d.setChan n c).matrix = d.matrix := rfl
@[simp] theorem Dev.setChan_recr (d : Dev) (n : Nat) (c : ChanSt) : (d.setChan n c).recr = d.recr := rfl
@[simp] theorem Dev.setChan_caps (d : Dev) (n : Nat) (c : ChanSt) : (d.setChan n c).caps = d.caps := rfl
@[simp] theorem Dev.setChan_host (d : Dev) (n : Nat) (c : ChanSt) : (d.setChan n c).host = d.host := rfl
@[simp] theorem Dev.setChan_boot (d : Dev) (n : Nat) (c : ChanSt) : (d.setChan n c).boot = d.boot := rfl
@[simp] theorem Dev.setChan_sys (d : Dev) (n : Nat) (c : ChanSt) : (d.setChan n c).sys = d.sys := rfl
@[simp] theorem Dev.setServer_regs (d : Dev) (n : Nat) (c : ServerSt) : (d.setServer n c).regs = d.regs := rfl
@[simp] theorem Dev.setServer_shadow (d : Dev) (n : Nat) (c : ServerSt) : (d.setServer n c).shadow = d.shadow := rfl
@[simp] theorem Dev.setServer_ticks (d : Dev) (n : Nat) (c : ServerSt) : (d.setServer n c).ticks = d.ticks := rfl
@[simp] theorem Dev.setServer_dtime (d : Dev) (n : Nat) (c : ServerSt) : (d.setServer n c).dtime = d.dtime := rfl
@[simp] theorem Dev.setServer_fresh (d : Dev) (n : Nat) (c : ServerSt) : (d.setServer n c).fresh = d.fresh := rfl
@[simp] theorem Dev.setServer_chans (d : Dev) (n : Nat) (c : ServerSt) : (d.setServer n c).chans = d.chans := rfl
@[simp] theorem Dev.setServer_tribs (d : Dev) (n : Nat) (c : ServerSt) : (d.setServer n c).tribs = d.tribs := rfl
@[simp] theorem Dev.setServer_flexe (d : Dev) (n : Nat) (c : ServerSt) : (d.setServer n c).flexe = d.flexe := rfl
@[simp] theorem Dev.setServer_ohs (d : Dev) (n : Nat) (c : ServerSt) : (d.setServer n c).ohs = d.ohs := rfl
@[simp] theorem Dev.setServer_heats (d : Dev) (n : Nat) (c : ServerSt) : (d.setServer n c).heats = d.heats := rfl
@[simp] theorem Dev.setServer_engines (d : Dev) (n : Nat) (c : ServerSt) : (d.setServer n c).engines = d.engines := rfl
@[simp] theorem Dev.setServer_ctxs (d : Dev) (n : Nat) (c : ServerSt) : (d.setServer n c).ctxs = d.ctxs := rfl
@[simp] theorem Dev.setServer_shadows (d : Dev) (n : Nat) (c : ServerSt) : (d.setServer n c).shadows = d.shadows := rfl
@[simp] theorem Dev.setServer_sync (d : Dev) (n : Nat) (c : ServerSt) : (d.setServer n c).sync = d.sync := rfl
@[simp] theorem Dev.setServer_groups (d : Dev) (n : Nat) (c : ServerSt) : (d.setServer n c).groups = d.groups := rfl
@[simp] theorem Dev.setServer_laps (d : Dev) (n : Nat) (c : ServerSt) : (d.setServer n c).laps = d.laps := rfl
@[simp] theorem Dev.setServer_pair (d : Dev) (n : Nat) (c : ServerSt) : (d.setServer n c).pair = d.pair := rfl
@[simp] theorem Dev.setServer_check (d : Dev) (n : Nat) (c : ServerSt) : (d.setServer n c).check = d.check := rfl
@[simp] theorem Dev.setServer_matrix (d : Dev) (n : Nat) (c : ServerSt) : (d.setServer n c).matrix = d.matrix := rfl
@[simp] theorem Dev.setServer_recr (d : Dev) (n : Nat) (c : ServerSt) : (d.setServer n c).recr = d.recr := rfl
@[simp] theorem Dev.setServer_caps (d : Dev) (n : Nat) (c : ServerSt) : (d.setServer n c).caps = d.caps := rfl
@[simp] theorem Dev.setServer_host (d : Dev) (n : Nat) (c : ServerSt) : (d.setServer n c).host = d.host := rfl
@[simp] theorem Dev.setServer_boot (d : Dev) (n : Nat) (c : ServerSt) : (d.setServer n c).boot = d.boot := rfl
@[simp] theorem Dev.setServer_sys (d : Dev) (n : Nat) (c : ServerSt) : (d.setServer n c).sys = d.sys := rfl
@[simp] theorem Dev.setTrib_regs (d : Dev) (n : Nat) (c : TribSt) : (d.setTrib n c).regs = d.regs := rfl
@[simp] theorem Dev.setTrib_shadow (d : Dev) (n : Nat) (c : TribSt) : (d.setTrib n c).shadow = d.shadow := rfl
@[simp] theorem Dev.setTrib_ticks (d : Dev) (n : Nat) (c : TribSt) : (d.setTrib n c).ticks = d.ticks := rfl
@[simp] theorem Dev.setTrib_dtime (d : Dev) (n : Nat) (c : TribSt) : (d.setTrib n c).dtime = d.dtime := rfl
@[simp] theorem Dev.setTrib_fresh (d : Dev) (n : Nat) (c : TribSt) : (d.setTrib n c).fresh = d.fresh := rfl
@[simp] theorem Dev.setTrib_chans (d : Dev) (n : Nat) (c : TribSt) : (d.setTrib n c).chans = d.chans := rfl
@[simp] theorem Dev.setTrib_servers (d : Dev) (n : Nat) (c : TribSt) : (d.setTrib n c).servers = d.servers := rfl
@[simp] theorem Dev.setTrib_flexe (d : Dev) (n : Nat) (c : TribSt) : (d.setTrib n c).flexe = d.flexe := rfl
@[simp] theorem Dev.setTrib_ohs (d : Dev) (n : Nat) (c : TribSt) : (d.setTrib n c).ohs = d.ohs := rfl
@[simp] theorem Dev.setTrib_heats (d : Dev) (n : Nat) (c : TribSt) : (d.setTrib n c).heats = d.heats := rfl
@[simp] theorem Dev.setTrib_engines (d : Dev) (n : Nat) (c : TribSt) : (d.setTrib n c).engines = d.engines := rfl
@[simp] theorem Dev.setTrib_ctxs (d : Dev) (n : Nat) (c : TribSt) : (d.setTrib n c).ctxs = d.ctxs := rfl
@[simp] theorem Dev.setTrib_shadows (d : Dev) (n : Nat) (c : TribSt) : (d.setTrib n c).shadows = d.shadows := rfl
@[simp] theorem Dev.setTrib_sync (d : Dev) (n : Nat) (c : TribSt) : (d.setTrib n c).sync = d.sync := rfl
@[simp] theorem Dev.setTrib_groups (d : Dev) (n : Nat) (c : TribSt) : (d.setTrib n c).groups = d.groups := rfl
@[simp] theorem Dev.setTrib_laps (d : Dev) (n : Nat) (c : TribSt) : (d.setTrib n c).laps = d.laps := rfl
@[simp] theorem Dev.setTrib_pair (d : Dev) (n : Nat) (c : TribSt) : (d.setTrib n c).pair = d.pair := rfl
@[simp] theorem Dev.setTrib_check (d : Dev) (n : Nat) (c : TribSt) : (d.setTrib n c).check = d.check := rfl
@[simp] theorem Dev.setTrib_matrix (d : Dev) (n : Nat) (c : TribSt) : (d.setTrib n c).matrix = d.matrix := rfl
@[simp] theorem Dev.setTrib_recr (d : Dev) (n : Nat) (c : TribSt) : (d.setTrib n c).recr = d.recr := rfl
@[simp] theorem Dev.setTrib_caps (d : Dev) (n : Nat) (c : TribSt) : (d.setTrib n c).caps = d.caps := rfl
@[simp] theorem Dev.setTrib_host (d : Dev) (n : Nat) (c : TribSt) : (d.setTrib n c).host = d.host := rfl
@[simp] theorem Dev.setTrib_boot (d : Dev) (n : Nat) (c : TribSt) : (d.setTrib n c).boot = d.boot := rfl
@[simp] theorem Dev.setTrib_sys (d : Dev) (n : Nat) (c : TribSt) : (d.setTrib n c).sys = d.sys := rfl
@[simp] theorem Dev.setFx_regs (d : Dev) (n : Nat) (c : FlexeSt) : (d.setFx n c).regs = d.regs := rfl
@[simp] theorem Dev.setFx_shadow (d : Dev) (n : Nat) (c : FlexeSt) : (d.setFx n c).shadow = d.shadow := rfl
@[simp] theorem Dev.setFx_ticks (d : Dev) (n : Nat) (c : FlexeSt) : (d.setFx n c).ticks = d.ticks := rfl
@[simp] theorem Dev.setFx_dtime (d : Dev) (n : Nat) (c : FlexeSt) : (d.setFx n c).dtime = d.dtime := rfl
@[simp] theorem Dev.setFx_fresh (d : Dev) (n : Nat) (c : FlexeSt) : (d.setFx n c).fresh = d.fresh := rfl
@[simp] theorem Dev.setFx_chans (d : Dev) (n : Nat) (c : FlexeSt) : (d.setFx n c).chans = d.chans := rfl
@[simp] theorem Dev.setFx_servers (d : Dev) (n : Nat) (c : FlexeSt) : (d.setFx n c).servers = d.servers := rfl
@[simp] theorem Dev.setFx_tribs (d : Dev) (n : Nat) (c : FlexeSt) : (d.setFx n c).tribs = d.tribs := rfl
@[simp] theorem Dev.setFx_ohs (d : Dev) (n : Nat) (c : FlexeSt) : (d.setFx n c).ohs = d.ohs := rfl
@[simp] theorem Dev.setFx_heats (d : Dev) (n : Nat) (c : FlexeSt) : (d.setFx n c).heats = d.heats := rfl
@[simp] theorem Dev.setFx_engines (d : Dev) (n : Nat) (c : FlexeSt) : (d.setFx n c).engines = d.engines := rfl
@[simp] theorem Dev.setFx_ctxs (d : Dev) (n : Nat) (c : FlexeSt) : (d.setFx n c).ctxs = d.ctxs := rfl
@[simp] theorem Dev.setFx_shadows (d : Dev) (n : Nat) (c : FlexeSt) : (d.setFx n c).shadows = d.shadows := rfl
@[simp] theorem Dev.setFx_sync (d : Dev) (n : Nat) (c : FlexeSt) : (d.setFx n c).sync = d.sync := rfl
@[simp] theorem Dev.setFx_groups (d : Dev) (n : Nat) (c : FlexeSt) : (d.setFx n c).groups = d.groups := rfl
@[simp] theorem Dev.setFx_laps (d : Dev) (n : Nat) (c : FlexeSt) : (d.setFx n c).laps = d.laps := rfl
@[simp] theorem Dev.setFx_pair (d : Dev) (n : Nat) (c : FlexeSt) : (d.setFx n c).pair = d.pair := rfl
@[simp] theorem Dev.setFx_check (d : Dev) (n : Nat) (c : FlexeSt) : (d.setFx n c).check = d.check := rfl
@[simp] theorem Dev.setFx_matrix (d : Dev) (n : Nat) (c : FlexeSt) : (d.setFx n c).matrix = d.matrix := rfl
@[simp] theorem Dev.setFx_recr (d : Dev) (n : Nat) (c : FlexeSt) : (d.setFx n c).recr = d.recr := rfl
@[simp] theorem Dev.setFx_caps (d : Dev) (n : Nat) (c : FlexeSt) : (d.setFx n c).caps = d.caps := rfl
@[simp] theorem Dev.setFx_host (d : Dev) (n : Nat) (c : FlexeSt) : (d.setFx n c).host = d.host := rfl
@[simp] theorem Dev.setFx_boot (d : Dev) (n : Nat) (c : FlexeSt) : (d.setFx n c).boot = d.boot := rfl
@[simp] theorem Dev.setFx_sys (d : Dev) (n : Nat) (c : FlexeSt) : (d.setFx n c).sys = d.sys := rfl
@[simp] theorem Dev.setOh_regs (d : Dev) (n : Nat) (c : OhSt) : (d.setOh n c).regs = d.regs := rfl
@[simp] theorem Dev.setOh_shadow (d : Dev) (n : Nat) (c : OhSt) : (d.setOh n c).shadow = d.shadow := rfl
@[simp] theorem Dev.setOh_ticks (d : Dev) (n : Nat) (c : OhSt) : (d.setOh n c).ticks = d.ticks := rfl
@[simp] theorem Dev.setOh_dtime (d : Dev) (n : Nat) (c : OhSt) : (d.setOh n c).dtime = d.dtime := rfl
@[simp] theorem Dev.setOh_fresh (d : Dev) (n : Nat) (c : OhSt) : (d.setOh n c).fresh = d.fresh := rfl
@[simp] theorem Dev.setOh_chans (d : Dev) (n : Nat) (c : OhSt) : (d.setOh n c).chans = d.chans := rfl
@[simp] theorem Dev.setOh_servers (d : Dev) (n : Nat) (c : OhSt) : (d.setOh n c).servers = d.servers := rfl
@[simp] theorem Dev.setOh_tribs (d : Dev) (n : Nat) (c : OhSt) : (d.setOh n c).tribs = d.tribs := rfl
@[simp] theorem Dev.setOh_flexe (d : Dev) (n : Nat) (c : OhSt) : (d.setOh n c).flexe = d.flexe := rfl
@[simp] theorem Dev.setOh_heats (d : Dev) (n : Nat) (c : OhSt) : (d.setOh n c).heats = d.heats := rfl
@[simp] theorem Dev.setOh_engines (d : Dev) (n : Nat) (c : OhSt) : (d.setOh n c).engines = d.engines := rfl
@[simp] theorem Dev.setOh_ctxs (d : Dev) (n : Nat) (c : OhSt) : (d.setOh n c).ctxs = d.ctxs := rfl
@[simp] theorem Dev.setOh_shadows (d : Dev) (n : Nat) (c : OhSt) : (d.setOh n c).shadows = d.shadows := rfl
@[simp] theorem Dev.setOh_sync (d : Dev) (n : Nat) (c : OhSt) : (d.setOh n c).sync = d.sync := rfl
@[simp] theorem Dev.setOh_groups (d : Dev) (n : Nat) (c : OhSt) : (d.setOh n c).groups = d.groups := rfl
@[simp] theorem Dev.setOh_laps (d : Dev) (n : Nat) (c : OhSt) : (d.setOh n c).laps = d.laps := rfl
@[simp] theorem Dev.setOh_pair (d : Dev) (n : Nat) (c : OhSt) : (d.setOh n c).pair = d.pair := rfl
@[simp] theorem Dev.setOh_check (d : Dev) (n : Nat) (c : OhSt) : (d.setOh n c).check = d.check := rfl
@[simp] theorem Dev.setOh_matrix (d : Dev) (n : Nat) (c : OhSt) : (d.setOh n c).matrix = d.matrix := rfl
@[simp] theorem Dev.setOh_recr (d : Dev) (n : Nat) (c : OhSt) : (d.setOh n c).recr = d.recr := rfl
@[simp] theorem Dev.setOh_caps (d : Dev) (n : Nat) (c : OhSt) : (d.setOh n c).caps = d.caps := rfl
@[simp] theorem Dev.setOh_host (d : Dev) (n : Nat) (c : OhSt) : (d.setOh n c).host = d.host := rfl
@[simp] theorem Dev.setOh_boot (d : Dev) (n : Nat) (c : OhSt) : (d.setOh n c).boot = d.boot := rfl
@[simp] theorem Dev.setOh_sys (d : Dev) (n : Nat) (c : OhSt) : (d.setOh n c).sys = d.sys := rfl
@[simp] theorem Dev.setHeat_regs (d : Dev) (n : Nat) (c : HeatSt) : (d.setHeat n c).regs = d.regs := rfl
@[simp] theorem Dev.setHeat_shadow (d : Dev) (n : Nat) (c : HeatSt) : (d.setHeat n c).shadow = d.shadow := rfl
@[simp] theorem Dev.setHeat_ticks (d : Dev) (n : Nat) (c : HeatSt) : (d.setHeat n c).ticks = d.ticks := rfl
@[simp] theorem Dev.setHeat_dtime (d : Dev) (n : Nat) (c : HeatSt) : (d.setHeat n c).dtime = d.dtime := rfl
@[simp] theorem Dev.setHeat_fresh (d : Dev) (n : Nat) (c : HeatSt) : (d.setHeat n c).fresh = d.fresh := rfl
@[simp] theorem Dev.setHeat_chans (d : Dev) (n : Nat) (c : HeatSt) : (d.setHeat n c).chans = d.chans := rfl
@[simp] theorem Dev.setHeat_servers (d : Dev) (n : Nat) (c : HeatSt) : (d.setHeat n c).servers = d.servers := rfl
@[simp] theorem Dev.setHeat_tribs (d : Dev) (n : Nat) (c : HeatSt) : (d.setHeat n c).tribs = d.tribs := rfl
@[simp] theorem Dev.setHeat_flexe (d : Dev) (n : Nat) (c : HeatSt) : (d.setHeat n c).flexe = d.flexe := rfl
@[simp] theorem Dev.setHeat_ohs (d : Dev) (n : Nat) (c : HeatSt) : (d.setHeat n c).ohs = d.ohs := rfl
@[simp] theorem Dev.setHeat_engines (d : Dev) (n : Nat) (c : HeatSt) : (d.setHeat n c).engines = d.engines := rfl
@[simp] theorem Dev.setHeat_ctxs (d : Dev) (n : Nat) (c : HeatSt) : (d.setHeat n c).ctxs = d.ctxs := rfl
@[simp] theorem Dev.setHeat_shadows (d : Dev) (n : Nat) (c : HeatSt) : (d.setHeat n c).shadows = d.shadows := rfl
@[simp] theorem Dev.setHeat_sync (d : Dev) (n : Nat) (c : HeatSt) : (d.setHeat n c).sync = d.sync := rfl
@[simp] theorem Dev.setHeat_groups (d : Dev) (n : Nat) (c : HeatSt) : (d.setHeat n c).groups = d.groups := rfl
@[simp] theorem Dev.setHeat_laps (d : Dev) (n : Nat) (c : HeatSt) : (d.setHeat n c).laps = d.laps := rfl
@[simp] theorem Dev.setHeat_pair (d : Dev) (n : Nat) (c : HeatSt) : (d.setHeat n c).pair = d.pair := rfl
@[simp] theorem Dev.setHeat_check (d : Dev) (n : Nat) (c : HeatSt) : (d.setHeat n c).check = d.check := rfl
@[simp] theorem Dev.setHeat_matrix (d : Dev) (n : Nat) (c : HeatSt) : (d.setHeat n c).matrix = d.matrix := rfl
@[simp] theorem Dev.setHeat_recr (d : Dev) (n : Nat) (c : HeatSt) : (d.setHeat n c).recr = d.recr := rfl
@[simp] theorem Dev.setHeat_caps (d : Dev) (n : Nat) (c : HeatSt) : (d.setHeat n c).caps = d.caps := rfl
@[simp] theorem Dev.setHeat_host (d : Dev) (n : Nat) (c : HeatSt) : (d.setHeat n c).host = d.host := rfl
@[simp] theorem Dev.setHeat_boot (d : Dev) (n : Nat) (c : HeatSt) : (d.setHeat n c).boot = d.boot := rfl
@[simp] theorem Dev.setHeat_sys (d : Dev) (n : Nat) (c : HeatSt) : (d.setHeat n c).sys = d.sys := rfl
@[simp] theorem Dev.setCtx_regs (d : Dev) (n : Nat) (c : CtxSt) : (d.setCtx n c).regs = d.regs := rfl
@[simp] theorem Dev.setCtx_shadow (d : Dev) (n : Nat) (c : CtxSt) : (d.setCtx n c).shadow = d.shadow := rfl
@[simp] theorem Dev.setCtx_ticks (d : Dev) (n : Nat) (c : CtxSt) : (d.setCtx n c).ticks = d.ticks := rfl
@[simp] theorem Dev.setCtx_dtime (d : Dev) (n : Nat) (c : CtxSt) : (d.setCtx n c).dtime = d.dtime := rfl
@[simp] theorem Dev.setCtx_fresh (d : Dev) (n : Nat) (c : CtxSt) : (d.setCtx n c).fresh = d.fresh := rfl
@[simp] theorem Dev.setCtx_chans (d : Dev) (n : Nat) (c : CtxSt) : (d.setCtx n c).chans = d.chans := rfl
@[simp] theorem Dev.setCtx_servers (d : Dev) (n : Nat) (c : CtxSt) : (d.setCtx n c).servers = d.servers := rfl
@[simp] theorem Dev.setCtx_tribs (d : Dev) (n : Nat) (c : CtxSt) : (d.setCtx n c).tribs = d.tribs := rfl
@[simp] theorem Dev.setCtx_flexe (d : Dev) (n : Nat) (c : CtxSt) : (d.setCtx n c).flexe = d.flexe := rfl
@[simp] theorem Dev.setCtx_ohs (d : Dev) (n : Nat) (c : CtxSt) : (d.setCtx n c).ohs = d.ohs := rfl
@[simp] theorem Dev.setCtx_heats (d : Dev) (n : Nat) (c : CtxSt) : (d.setCtx n c).heats = d.heats := rfl
@[simp] theorem Dev.setCtx_engines (d : Dev) (n : Nat) (c : CtxSt) : (d.setCtx n c).engines = d.engines := rfl
@[simp] theorem Dev.setCtx_shadows (d : Dev) (n : Nat) (c : CtxSt) : (d.setCtx n c).shadows = d.shadows := rfl
@[simp] theorem Dev.setCtx_sync (d : Dev) (n : Nat) (c : CtxSt) : (d.setCtx n c).sync = d.sync := rfl
@[simp] theorem Dev.setCtx_groups (d : Dev) (n : Nat) (c : CtxSt) : (d.setCtx n c).groups = d.groups := rfl
@[simp] theorem Dev.setCtx_laps (d : Dev) (n : Nat) (c : CtxSt) : (d.setCtx n c).laps = d.laps := rfl
@[simp] theorem Dev.setCtx_pair (d : Dev) (n : Nat) (c : CtxSt) : (d.setCtx n c).pair = d.pair := rfl
@[simp] theorem Dev.setCtx_check (d : Dev) (n : Nat) (c : CtxSt) : (d.setCtx n c).check = d.check := rfl
@[simp] theorem Dev.setCtx_matrix (d : Dev) (n : Nat) (c : CtxSt) : (d.setCtx n c).matrix = d.matrix := rfl
@[simp] theorem Dev.setCtx_recr (d : Dev) (n : Nat) (c : CtxSt) : (d.setCtx n c).recr = d.recr := rfl
@[simp] theorem Dev.setCtx_caps (d : Dev) (n : Nat) (c : CtxSt) : (d.setCtx n c).caps = d.caps := rfl
@[simp] theorem Dev.setCtx_host (d : Dev) (n : Nat) (c : CtxSt) : (d.setCtx n c).host = d.host := rfl
@[simp] theorem Dev.setCtx_boot (d : Dev) (n : Nat) (c : CtxSt) : (d.setCtx n c).boot = d.boot := rfl
@[simp] theorem Dev.setCtx_sys (d : Dev) (n : Nat) (c : CtxSt) : (d.setCtx n c).sys = d.sys := rfl
@[simp] theorem Dev.setGroup_regs (d : Dev) (n : Nat) (c : GroupSt) : (d.setGroup n c).regs = d.regs := rfl
@[simp] theorem Dev.setGroup_shadow (d : Dev) (n : Nat) (c : GroupSt) : (d.setGroup n c).shadow = d.shadow := rfl
@[simp] theorem Dev.setGroup_ticks (d : Dev) (n : Nat) (c : GroupSt) : (d.setGroup n c).ticks = d.ticks := rfl
@[simp] theorem Dev.setGroup_dtime (d : Dev) (n : Nat) (c : GroupSt) : (d.setGroup n c).dtime = d.dtime := rfl
@[simp] theorem Dev.setGroup_fresh (d : Dev) (n : Nat) (c : GroupSt) : (d.setGroup n c).fresh = d.fresh := rfl
@[simp] theorem Dev.setGroup_chans (d : Dev) (n : Nat) (c : GroupSt) : (d.setGroup n c).chans = d.chans := rfl
@[simp] theorem Dev.setGroup_servers (d : Dev) (n : Nat) (c : GroupSt) : (d.setGroup n c).servers = d.servers := rfl
@[simp] theorem Dev.setGroup_tribs (d : Dev) (n : Nat) (c : GroupSt) : (d.setGroup n c).tribs = d.tribs := rfl
@[simp] theorem Dev.setGroup_flexe (d : Dev) (n : Nat) (c : GroupSt) : (d.setGroup n c).flexe = d.flexe := rfl
@[simp] theorem Dev.setGroup_ohs (d : Dev) (n : Nat) (c : GroupSt) : (d.setGroup n c).ohs = d.ohs := rfl
@[simp] theorem Dev.setGroup_heats (d : Dev) (n : Nat) (c : GroupSt) : (d.setGroup n c).heats = d.heats := rfl
@[simp] theorem Dev.setGroup_engines (d : Dev) (n : Nat) (c : GroupSt) : (d.setGroup n c).engines = d.engines := rfl
@[simp] theorem Dev.setGroup_ctxs (d : Dev) (n : Nat) (c : GroupSt) : (d.setGroup n c).ctxs = d.ctxs := rfl
@[simp] theorem Dev.setGroup_shadows (d : Dev) (n : Nat) (c : GroupSt) : (d.setGroup n c).shadows = d.shadows := rfl
@[simp] theorem Dev.setGroup_sync (d : Dev) (n : Nat) (c : GroupSt) : (d.setGroup n c).sync = d.sync := rfl
@[simp] theorem Dev.setGroup_laps (d : Dev) (n : Nat) (c : GroupSt) : (d.setGroup n c).laps = d.laps := rfl
@[simp] theorem Dev.setGroup_pair (d : Dev) (n : Nat) (c : GroupSt) : (d.setGroup n c).pair = d.pair := rfl
@[simp] theorem Dev.setGroup_check (d : Dev) (n : Nat) (c : GroupSt) : (d.setGroup n c).check = d.check := rfl
@[simp] theorem Dev.setGroup_matrix (d : Dev) (n : Nat) (c : GroupSt) : (d.setGroup n c).matrix = d.matrix := rfl
@[simp] theorem Dev.setGroup_recr (d : Dev) (n : Nat) (c : GroupSt) : (d.setGroup n c).recr = d.recr := rfl
@[simp] theorem Dev.setGroup_caps (d : Dev) (n : Nat) (c : GroupSt) : (d.setGroup n c).caps = d.caps := rfl
@[simp] theorem Dev.setGroup_host (d : Dev) (n : Nat) (c : GroupSt) : (d.setGroup n c).host = d.host := rfl
@[simp] theorem Dev.setGroup_boot (d : Dev) (n : Nat) (c : GroupSt) : (d.setGroup n c).boot = d.boot := rfl
@[simp] theorem Dev.setGroup_sys (d : Dev) (n : Nat) (c : GroupSt) : (d.setGroup n c).sys = d.sys := rfl
@[simp] theorem Dev.setCap_regs (d : Dev) (n : Nat) (c : CapSt) : (d.setCap n c).regs = d.regs := rfl
@[simp] theorem Dev.setCap_shadow (d : Dev) (n : Nat) (c : CapSt) : (d.setCap n c).shadow = d.shadow := rfl
@[simp] theorem Dev.setCap_ticks (d : Dev) (n : Nat) (c : CapSt) : (d.setCap n c).ticks = d.ticks := rfl
@[simp] theorem Dev.setCap_dtime (d : Dev) (n : Nat) (c : CapSt) : (d.setCap n c).dtime = d.dtime := rfl
@[simp] theorem Dev.setCap_fresh (d : Dev) (n : Nat) (c : CapSt) : (d.setCap n c).fresh = d.fresh := rfl
@[simp] theorem Dev.setCap_chans (d : Dev) (n : Nat) (c : CapSt) : (d.setCap n c).chans = d.chans := rfl
@[simp] theorem Dev.setCap_servers (d : Dev) (n : Nat) (c : CapSt) : (d.setCap n c).servers = d.servers := rfl
@[simp] theorem Dev.setCap_tribs (d : Dev) (n : Nat) (c : CapSt) : (d.setCap n c).tribs = d.tribs := rfl
@[simp] theorem Dev.setCap_flexe (d : Dev) (n : Nat) (c : CapSt) : (d.setCap n c).flexe = d.flexe := rfl
@[simp] theorem Dev.setCap_ohs (d : Dev) (n : Nat) (c : CapSt) : (d.setCap n c).ohs = d.ohs := rfl
@[simp] theorem Dev.setCap_heats (d : Dev) (n : Nat) (c : CapSt) : (d.setCap n c).heats = d.heats := rfl
@[simp] theorem Dev.setCap_engines (d : Dev) (n : Nat) (c : CapSt) : (d.setCap n c).engines = d.engines := rfl
@[simp] theorem Dev.setCap_ctxs (d : Dev) (n : Nat) (c : CapSt) : (d.setCap n c).ctxs = d.ctxs := rfl
@[simp] theorem Dev.setCap_shadows (d : Dev) (n : Nat) (c : CapSt) : (d.setCap n c).shadows = d.shadows := rfl
@[simp] theorem Dev.setCap_sync (d : Dev) (n : Nat) (c : CapSt) : (d.setCap n c).sync = d.sync := rfl
@[simp] theorem Dev.setCap_groups (d : Dev) (n : Nat) (c : CapSt) : (d.setCap n c).groups = d.groups := rfl
@[simp] theorem Dev.setCap_laps (d : Dev) (n : Nat) (c : CapSt) : (d.setCap n c).laps = d.laps := rfl
@[simp] theorem Dev.setCap_pair (d : Dev) (n : Nat) (c : CapSt) : (d.setCap n c).pair = d.pair := rfl
@[simp] theorem Dev.setCap_check (d : Dev) (n : Nat) (c : CapSt) : (d.setCap n c).check = d.check := rfl
@[simp] theorem Dev.setCap_matrix (d : Dev) (n : Nat) (c : CapSt) : (d.setCap n c).matrix = d.matrix := rfl
@[simp] theorem Dev.setCap_recr (d : Dev) (n : Nat) (c : CapSt) : (d.setCap n c).recr = d.recr := rfl
@[simp] theorem Dev.setCap_host (d : Dev) (n : Nat) (c : CapSt) : (d.setCap n c).host = d.host := rfl
@[simp] theorem Dev.setCap_boot (d : Dev) (n : Nat) (c : CapSt) : (d.setCap n c).boot = d.boot := rfl
@[simp] theorem Dev.setCap_sys (d : Dev) (n : Nat) (c : CapSt) : (d.setCap n c).sys = d.sys := rfl
@[simp] theorem Dev.record_regs (d : Dev) (ty : Nat) (at_ : DTime) (body : List Byte) (full : Bool) : (d.record ty at_ body full).regs = d.regs := rfl
@[simp] theorem Dev.record_shadow (d : Dev) (ty : Nat) (at_ : DTime) (body : List Byte) (full : Bool) : (d.record ty at_ body full).shadow = d.shadow := rfl
@[simp] theorem Dev.record_ticks (d : Dev) (ty : Nat) (at_ : DTime) (body : List Byte) (full : Bool) : (d.record ty at_ body full).ticks = d.ticks := rfl
@[simp] theorem Dev.record_dtime (d : Dev) (ty : Nat) (at_ : DTime) (body : List Byte) (full : Bool) : (d.record ty at_ body full).dtime = d.dtime := rfl
@[simp] theorem Dev.record_fresh (d : Dev) (ty : Nat) (at_ : DTime) (body : List Byte) (full : Bool) : (d.record ty at_ body full).fresh = d.fresh := rfl
@[simp] theorem Dev.record_chans (d : Dev) (ty : Nat) (at_ : DTime) (body : List Byte) (full : Bool) : (d.record ty at_ body full).chans = d.chans := rfl
@[simp] theorem Dev.record_servers (d : Dev) (ty : Nat) (at_ : DTime) (body : List Byte) (full : Bool) : (d.record ty at_ body full).servers = d.servers := rfl
@[simp] theorem Dev.record_tribs (d : Dev) (ty : Nat) (at_ : DTime) (body : List Byte) (full : Bool) : (d.record ty at_ body full).tribs = d.tribs := rfl
@[simp] theorem Dev.record_flexe (d : Dev) (ty : Nat) (at_ : DTime) (body : List Byte) (full : Bool) : (d.record ty at_ body full).flexe = d.flexe := rfl
@[simp] theorem Dev.record_ohs (d : Dev) (ty : Nat) (at_ : DTime) (body : List Byte) (full : Bool) : (d.record ty at_ body full).ohs = d.ohs := rfl
@[simp] theorem Dev.record_heats (d : Dev) (ty : Nat) (at_ : DTime) (body : List Byte) (full : Bool) : (d.record ty at_ body full).heats = d.heats := rfl
@[simp] theorem Dev.record_engines (d : Dev) (ty : Nat) (at_ : DTime) (body : List Byte) (full : Bool) : (d.record ty at_ body full).engines = d.engines := rfl
@[simp] theorem Dev.record_ctxs (d : Dev) (ty : Nat) (at_ : DTime) (body : List Byte) (full : Bool) : (d.record ty at_ body full).ctxs = d.ctxs := rfl
@[simp] theorem Dev.record_shadows (d : Dev) (ty : Nat) (at_ : DTime) (body : List Byte) (full : Bool) : (d.record ty at_ body full).shadows = d.shadows := rfl
@[simp] theorem Dev.record_sync (d : Dev) (ty : Nat) (at_ : DTime) (body : List Byte) (full : Bool) : (d.record ty at_ body full).sync = d.sync := rfl
@[simp] theorem Dev.record_groups (d : Dev) (ty : Nat) (at_ : DTime) (body : List Byte) (full : Bool) : (d.record ty at_ body full).groups = d.groups := rfl
@[simp] theorem Dev.record_laps (d : Dev) (ty : Nat) (at_ : DTime) (body : List Byte) (full : Bool) : (d.record ty at_ body full).laps = d.laps := rfl
@[simp] theorem Dev.record_pair (d : Dev) (ty : Nat) (at_ : DTime) (body : List Byte) (full : Bool) : (d.record ty at_ body full).pair = d.pair := rfl
@[simp] theorem Dev.record_check (d : Dev) (ty : Nat) (at_ : DTime) (body : List Byte) (full : Bool) : (d.record ty at_ body full).check = d.check := rfl
@[simp] theorem Dev.record_matrix (d : Dev) (ty : Nat) (at_ : DTime) (body : List Byte) (full : Bool) : (d.record ty at_ body full).matrix = d.matrix := rfl
@[simp] theorem Dev.record_caps (d : Dev) (ty : Nat) (at_ : DTime) (body : List Byte) (full : Bool) : (d.record ty at_ body full).caps = d.caps := rfl
@[simp] theorem Dev.record_host (d : Dev) (ty : Nat) (at_ : DTime) (body : List Byte) (full : Bool) : (d.record ty at_ body full).host = d.host := rfl
@[simp] theorem Dev.record_boot (d : Dev) (ty : Nat) (at_ : DTime) (body : List Byte) (full : Bool) : (d.record ty at_ body full).boot = d.boot := rfl
@[simp] theorem Dev.record_sys (d : Dev) (ty : Nat) (at_ : DTime) (body : List Byte) (full : Bool) : (d.record ty at_ body full).sys = d.sys := rfl
end Sys2Proof.Machine
end

