-- ==== Sys2Proof/Laws/Control.lean ====
section
/-!
SUPPORT. What the unit-control engine does with an operation of software, what the beats of a burst can be, when DTIME is
corrected, and what a pin presents in reset: each said once.
-/
namespace Sys2Proof.Machine

/-! ### The unit-control engine (R340, R342) -/

/-- The engine is free. -/
def State.ucFree (s : State) : State :=
  s.onDev (fun d => ({ d with host := { d.host with ucOp := none } } : Dev).set .GLB_UC_STAT_uc_busy 0 0)

/-- An engine busy with another operation discards this one. -/
theorem State.software_discarded (s : State) (op : Nat) (u : UnitId) (f : State → State) (h : s.dev.ucTakes op u = false) :
    s.software op u f = s.onDev (·.set .GLB_UC_STAT_uc_overrun 0 1) := by
  simp only [Dev.ucTakes, Bool.or_eq_false_iff, Bool.not_eq_false', beq_eq_false_iff_ne] at h
  simp [State.software, h.1, h.2]

/-- An operation that the engine takes on a unit that the device itself stops is refused with busy. -/
theorem State.software_busy (s : State) (op : Nat) (u : UnitId) (f : State → State) (h : s.dev.ucTakes op u = true)
    (hb : s.dev.devBusy u = true) : s.software op u f = (s.onDev (·.ucEnd u 2 0)).ucFree := by
  simp only [Dev.ucTakes, Bool.or_eq_true, Bool.not_eq_true', beq_iff_eq] at h
  have hd : (s.dev.ucBusy && s.dev.host.ucOp != some (op, u)) = false := by
    rcases h with h | h <;> simp [h]
  simp [State.software, State.ucFree, hd, hb]

/-- Any other operation is carried out, and the engine is free. -/
theorem State.software_carried (s : State) (op : Nat) (u : UnitId) (f : State → State) (h : s.dev.takesOp op u = true) :
    s.software op u f = (f s).ucFree := by
  simp only [Dev.takesOp, Dev.ucTakes, Bool.and_eq_true, Bool.or_eq_true, Bool.not_eq_true', beq_iff_eq] at h
  have hd : (s.dev.ucBusy && s.dev.host.ucOp != some (op, u)) = false := by
    rcases h.1 with h | h <;> simp [h]
  simp [State.software, State.ucFree, hd, h.2]

/-! ### Beats of a burst (R292) -/

/-- No path has carried more beats than the burst has. -/
theorem Txn.beatsBy_le (x : Txn) (now : Nat) : x.beatsBy now ≤ x.req.beats := Nat.min_le_left _ _

/-- The beats that have passed only grow, and stay within what the path can have carried. -/
theorem Dev.beatsNow_passed (d : Dev) (x : Txn) (h : x.passed ≤ x.beatsBy d.ticks) :
    x.passed ≤ (d.beatsNow x).1.passed ∧ (d.beatsNow x).1.passed ≤ x.beatsBy d.ticks := by
  unfold Dev.beatsNow
  split
  · have hm : (d.draw).1.toNat % (x.beatsBy d.ticks - x.passed + 1) < x.beatsBy d.ticks - x.passed + 1 :=
      Nat.mod_lt _ (Nat.succ_pos _)
    constructor
    · exact Nat.le_add_right _ _
    · show x.passed + (d.draw).1.toNat % (x.beatsBy d.ticks - x.passed + 1) ≤ x.beatsBy d.ticks
      omega
  · exact ⟨le_refl _, h⟩

/-! ### Corrections of DTIME (R375, R378) -/

/-- A tick adds 3, 4 or 5 ns to DTIME by slewing. -/
theorem Dev.slewTick_bounds (d : Dev) : 3 ≤ d.slewTick.1 ∧ d.slewTick.1 ≤ 5 := by
  unfold Dev.slewTick
  simp only
  repeat' split
  all_goals simp

/-- Slewing never moves the offset left to correct away from 0. -/
theorem Dev.slewTick_left (d : Dev) : d.slewTick.2.natAbs ≤ d.sys.slewLeft.natAbs := by
  unfold Dev.slewTick
  simp only
  repeat' split
  all_goals simp only
  all_goals omega

/-! ### Pins (R397) -/

/-- A held device presents the levels of the column "In reset". -/
theorem Dev.pinLevel_held (d : Dev) (p : Pin) (h : d.sys.held = true) : d.pinLevel p = d.pinInReset p := by
  simp [Dev.pinLevel, h]

end Sys2Proof.Machine
end

