-- ==== Sys2Proof/Laws/Ops.lean ====
section
/-!
SUPPORT. The laws of the shared operations of Machine/Ops.lean: what raising an event, reaching a unit state, handing a
record to the recorder and setting a ready bit can change.
-/
namespace Sys2Proof.Machine

/-- e is d but for events raised: everything outside the event registers and the host port is unchanged. -/
structure Calm (d e : Dev) : Prop where
  word : ∀ r i, evRegs.contains r = false → e.word r i = d.word r i
  shadow : e.shadow = d.shadow
  ticks : e.ticks = d.ticks
  dtime : e.dtime = d.dtime
  fresh : e.fresh = d.fresh
  chans : e.chans = d.chans
  servers : e.servers = d.servers
  tribs : e.tribs = d.tribs
  flexe : e.flexe = d.flexe
  ohs : e.ohs = d.ohs
  heats : e.heats = d.heats
  engines : e.engines = d.engines
  ctxs : e.ctxs = d.ctxs
  shadows : e.shadows = d.shadows
  sync : e.sync = d.sync
  groups : e.groups = d.groups
  laps : e.laps = d.laps
  pair : e.pair = d.pair
  check : e.check = d.check
  matrix : e.matrix = d.matrix
  recr : e.recr = d.recr
  caps : e.caps = d.caps
  boot : e.boot = d.boot
  sys : e.sys = d.sys

theorem Calm.refl (d : Dev) : Calm d d := ⟨fun _ _ _ => rfl, rfl, rfl, rfl, rfl, rfl, rfl, rfl, rfl, rfl, rfl, rfl, rfl, rfl, rfl, rfl, rfl, rfl, rfl, rfl, rfl, rfl, rfl, rfl⟩

theorem Calm.trans {a b c : Dev} (h : Calm a b) (k : Calm b c) : Calm a c :=
  ⟨fun r i hr => (k.word r i hr).trans (h.word r i hr),
    k.shadow.trans h.shadow,
    k.ticks.trans h.ticks,
    k.dtime.trans h.dtime,
    k.fresh.trans h.fresh,
    k.chans.trans h.chans,
    k.servers.trans h.servers,
    k.tribs.trans h.tribs,
    k.flexe.trans h.flexe,
    k.ohs.trans h.ohs,
    k.heats.trans h.heats,
    k.engines.trans h.engines,
    k.ctxs.trans h.ctxs,
    k.shadows.trans h.shadows,
    k.sync.trans h.sync,
    k.groups.trans h.groups,
    k.laps.trans h.laps,
    k.pair.trans h.pair,
    k.check.trans h.check,
    k.matrix.trans h.matrix,
    k.recr.trans h.recr,
    k.caps.trans h.caps,
    k.boot.trans h.boot,
    k.sys.trans h.sys⟩

/-- Writing one event register is calm. -/
theorem calm_setWord (d : Dev) (r : Reg) (i : Nat) (w : Word) (h : evRegs.contains r = true) : Calm d (d.setWord r i w) := by
  refine ⟨fun q j hq => ?_, rfl, rfl, rfl, rfl, rfl, rfl, rfl, rfl, rfl, rfl, rfl, rfl, rfl, rfl, rfl, rfl, rfl, rfl, rfl, rfl, rfl, rfl, rfl⟩
  apply Dev.word_setWord_reg
  intro e
  rw [e, h] at hq
  exact absurd hq (by decide)

/-- Changing the host port alone is calm. -/
theorem calm_host (d : Dev) (h : HostSt) : Calm d { d with host := h } :=
  ⟨fun _ _ _ => rfl, rfl, rfl, rfl, rfl, rfl, rfl, rfl, rfl, rfl, rfl, rfl, rfl, rfl, rfl, rfl, rfl, rfl, rfl, rfl, rfl, rfl, rfl, rfl⟩

theorem calm_bump (d : Dev) (f : Fld) (i n : Nat) (h : evRegs.contains f.reg = true) : Calm d (d.bump f i n) :=
  calm_setWord d f.reg i _ h

theorem calm_wrap (d : Dev) (f : Fld) (i n : Nat) (h : evRegs.contains f.reg = true) : Calm d (d.wrap f i n) :=
  calm_setWord d f.reg i _ h

theorem pba_calm (d : Dev) (v : Nat) (b : Bool) : Calm d (d.pba v b) := calm_setWord _ _ _ _ (by decide)

theorem sendMsix_calm (d : Dev) (v : Nat) : Calm d (d.sendMsix v) := by
  unfold Dev.sendMsix
  split
  · exact .refl d
  · split
    · exact pba_calm d v true
    · exact (pba_calm d v false).trans (calm_host _ _)

theorem msixDue_calm (d : Dev) (v : Nat) : Calm d (d.msixDue v) := by
  unfold Dev.msixDue
  split
  · exact calm_host d _
  · exact sendMsix_calm d v

theorem interrupt_calm (d : Dev) (a : Nat) : Calm d (d.interrupt a) := by
  unfold Dev.interrupt
  have h := calm_setWord d .GLB_EVT_PEND 0 (d.word .GLB_EVT_PEND 0 ||| BitVec.ofNat 32 (1 <<< a)) (by decide)
  simp only
  split
  · exact h
  · exact h.trans (msixDue_calm _ _)

theorem ringPut_calm (d : Dev) (r : EvRec) : Calm d (d.ringPut r) := by
  unfold Dev.ringPut
  exact (calm_host d _).trans (calm_wrap _ _ _ _ (by decide))

theorem hostAdvance_calm (d : Dev) (n : Nat) : Calm d (d.hostAdvance n) := by
  unfold Dev.hostAdvance
  split
  · exact .refl d
  · exact (calm_setWord d .GLB_EVT_RD 0 _ (by decide)).trans (calm_bump _ .GLB_EVT_LOST_lost 0 n (by decide))

theorem i2cAdvance_calm (d : Dev) (n : Nat) : Calm d (d.i2cAdvance n) := by
  unfold Dev.i2cAdvance
  split
  · exact .refl d
  · exact calm_host d _

theorem ringAdvance_calm (d : Dev) : Calm d d.ringAdvance := by
  unfold Dev.ringAdvance Dev.i2cFollow
  exact (hostAdvance_calm d _).trans (i2cAdvance_calm _ _)

theorem note_calm (d : Dev) (k : Nat) : Calm d (d.note k) := by
  unfold Dev.note
  exact calm_host d _

theorem raiseRec_calm (d : Dev) (r : EvRec) : Calm d (d.raiseRec r) := by
  unfold Dev.raiseRec Dev.ringOverrun
  simp only
  have h := (ringPut_calm d r).trans (interrupt_calm _ (r.id.toNat / 256))
  split
  · exact h.trans (ringAdvance_calm _)
  · split
    · exact (h.trans (ringAdvance_calm _)).trans
        ((((note_calm _ _).trans (ringPut_calm _ _)).trans (interrupt_calm _ _)).trans (ringAdvance_calm _))
    · exact h.trans (ringAdvance_calm _)

/-- Raising an event changes the event registers and the host port, nothing else. -/
theorem raise_calm (d : Dev) (id arg : Nat) : Calm d (d.raise id arg) := by
  unfold Dev.raise
  split
  · exact raiseRec_calm d _
  · exact calm_host d _

theorem raiseUpTo_calm (d : Dev) (cap id i arg : Nat) : Calm d (d.raiseUpTo cap id i arg) := by
  unfold Dev.raiseUpTo
  split
  · exact (note_calm _ _).trans (raise_calm _ _ _)
  · exact .refl d

theorem raise1_calm (d : Dev) (id i arg : Nat) : Calm d (d.raise1 id i arg) := raiseUpTo_calm d 1 id i arg

theorem raiseIf_calm (d : Dev) (b : Bool) (id arg : Nat) : Calm d (d.raiseIf b id arg) := by
  unfold Dev.raiseIf
  split
  · exact raise_calm _ _ _
  · exact .refl d

/-- A field outside the event registers survives a calm change. -/
theorem Calm.get {d e : Dev} (h : Calm d e) (f : Fld) (i : Nat) (hf : evRegs.contains f.reg = false) : e.get f i = d.get f i := by
  simp only [Dev.get, h.word f.reg i hf]

theorem Calm.bit {d e : Dev} (h : Calm d e) (f : Fld) (i : Nat) (hf : evRegs.contains f.reg = false) : e.bit f i = d.bit f i := by
  simp only [Dev.bit, h.get f i hf]

@[simp] theorem Dev.raise_shadow (d : Dev) (id arg : Nat) : (d.raise id arg).shadow = d.shadow := (raise_calm d id arg).shadow
@[simp] theorem Dev.raise_ticks (d : Dev) (id arg : Nat) : (d.raise id arg).ticks = d.ticks := (raise_calm d id arg).ticks
@[simp] theorem Dev.raise_dtime (d : Dev) (id arg : Nat) : (d.raise id arg).dtime = d.dtime := (raise_calm d id arg).dtime
@[simp] theorem Dev.raise_fresh (d : Dev) (id arg : Nat) : (d.raise id arg).fresh = d.fresh := (raise_calm d id arg).fresh
@[simp] theorem Dev.raise_chans (d : Dev) (id arg : Nat) : (d.raise id arg).chans = d.chans := (raise_calm d id arg).chans
@[simp] theorem Dev.raise_servers (d : Dev) (id arg : Nat) : (d.raise id arg).servers = d.servers := (raise_calm d id arg).servers
@[simp] theorem Dev.raise_tribs (d : Dev) (id arg : Nat) : (d.raise id arg).tribs = d.tribs := (raise_calm d id arg).tribs
@[simp] theorem Dev.raise_flexe (d : Dev) (id arg : Nat) : (d.raise id arg).flexe = d.flexe := (raise_calm d id arg).flexe
@[simp] theorem Dev.raise_ohs (d : Dev) (id arg : Nat) : (d.raise id arg).ohs = d.ohs := (raise_calm d id arg).ohs
@[simp] theorem Dev.raise_heats (d : Dev) (id arg : Nat) : (d.raise id arg).heats = d.heats := (raise_calm d id arg).heats
@[simp] theorem Dev.raise_engines (d : Dev) (id arg : Nat) : (d.raise id arg).engines = d.engines := (raise_calm d id arg).engines
@[simp] theorem Dev.raise_ctxs (d : Dev) (id arg : Nat) : (d.raise id arg).ctxs = d.ctxs := (raise_calm d id arg).ctxs
@[simp] theorem Dev.raise_shadows (d : Dev) (id arg : Nat) : (d.raise id arg).shadows = d.shadows := (raise_calm d id arg).shadows
@[simp] theorem Dev.raise_sync (d : Dev) (id arg : Nat) : (d.raise id arg).sync = d.sync := (raise_calm d id arg).sync
@[simp] theorem Dev.raise_groups (d : Dev) (id arg : Nat) : (d.raise id arg).groups = d.groups := (raise_calm d id arg).groups
@[simp] theorem Dev.raise_laps (d : Dev) (id arg : Nat) : (d.raise id arg).laps = d.laps := (raise_calm d id arg).laps
@[simp] theorem Dev.raise_pair (d : Dev) (id arg : Nat) : (d.raise id arg).pair = d.pair := (raise_calm d id arg).pair
@[simp] theorem Dev.raise_check (d : Dev) (id arg : Nat) : (d.raise id arg).check = d.check := (raise_calm d id arg).check
@[simp] theorem Dev.raise_matrix (d : Dev) (id arg : Nat) : (d.raise id arg).matrix = d.matrix := (raise_calm d id arg).matrix
@[simp] theorem Dev.raise_recr (d : Dev) (id arg : Nat) : (d.raise id arg).recr = d.recr := (raise_calm d id arg).recr
@[simp] theorem Dev.raise_caps (d : Dev) (id arg : Nat) : (d.raise id arg).caps = d.caps := (raise_calm d id arg).caps
@[simp] theorem Dev.raise_boot (d : Dev) (id arg : Nat) : (d.raise id arg).boot = d.boot := (raise_calm d id arg).boot
@[simp] theorem Dev.raise_sys (d : Dev) (id arg : Nat) : (d.raise id arg).sys = d.sys := (raise_calm d id arg).sys
theorem Dev.word_raise (d : Dev) (id arg : Nat) (r : Reg) (j : Nat) (h : evRegs.contains r = false) :
    (d.raise id arg).word r j = d.word r j := (raise_calm d id arg).word r j h
theorem Dev.get_raise (d : Dev) (id arg : Nat) (f : Fld) (j : Nat) (h : evRegs.contains f.reg = false) :
    (d.raise id arg).get f j = d.get f j := (raise_calm d id arg).get f j h
theorem Dev.bit_raise (d : Dev) (id arg : Nat) (f : Fld) (j : Nat) (h : evRegs.contains f.reg = false) :
    (d.raise id arg).bit f j = d.bit f j := (raise_calm d id arg).bit f j h
@[simp] theorem Dev.raiseUpTo_shadow (d : Dev) (cap id i arg : Nat) : (d.raiseUpTo cap id i arg).shadow = d.shadow := (raiseUpTo_calm d cap id i arg).shadow
@[simp] theorem Dev.raiseUpTo_ticks (d : Dev) (cap id i arg : Nat) : (d.raiseUpTo cap id i arg).ticks = d.ticks := (raiseUpTo_calm d cap id i arg).ticks
@[simp] theorem Dev.raiseUpTo_dtime (d : Dev) (cap id i arg : Nat) : (d.raiseUpTo cap id i arg).dtime = d.dtime := (raiseUpTo_calm d cap id i arg).dtime
@[simp] theorem Dev.raiseUpTo_fresh (d : Dev) (cap id i arg : Nat) : (d.raiseUpTo cap id i arg).fresh = d.fresh := (raiseUpTo_calm d cap id i arg).fresh
@[simp] theorem Dev.raiseUpTo_chans (d : Dev) (cap id i arg : Nat) : (d.raiseUpTo cap id i arg).chans = d.chans := (raiseUpTo_calm d cap id i arg).chans
@[simp] theorem Dev.raiseUpTo_servers (d : Dev) (cap id i arg : Nat) : (d.raiseUpTo cap id i arg).servers = d.servers := (raiseUpTo_calm d cap id i arg).servers
@[simp] theorem Dev.raiseUpTo_tribs (d : Dev) (cap id i arg : Nat) : (d.raiseUpTo cap id i arg).tribs = d.tribs := (raiseUpTo_calm d cap id i arg).tribs
@[simp] theorem Dev.raiseUpTo_flexe (d : Dev) (cap id i arg : Nat) : (d.raiseUpTo cap id i arg).flexe = d.flexe := (raiseUpTo_calm d cap id i arg).flexe
@[simp] theorem Dev.raiseUpTo_ohs (d : Dev) (cap id i arg : Nat) : (d.raiseUpTo cap id i arg).ohs = d.ohs := (raiseUpTo_calm d cap id i arg).ohs
@[simp] theorem Dev.raiseUpTo_heats (d : Dev) (cap id i arg : Nat) : (d.raiseUpTo cap id i arg).heats = d.heats := (raiseUpTo_calm d cap id i arg).heats
@[simp] theorem Dev.raiseUpTo_engines (d : Dev) (cap id i arg : Nat) : (d.raiseUpTo cap id i arg).engines = d.engines := (raiseUpTo_calm d cap id i arg).engines
@[simp] theorem Dev.raiseUpTo_ctxs (d : Dev) (cap id i arg : Nat) : (d.raiseUpTo cap id i arg).ctxs = d.ctxs := (raiseUpTo_calm d cap id i arg).ctxs
@[simp] theorem Dev.raiseUpTo_shadows (d : Dev) (cap id i arg : Nat) : (d.raiseUpTo cap id i arg).shadows = d.shadows := (raiseUpTo_calm d cap id i arg).shadows
@[simp] theorem Dev.raiseUpTo_sync (d : Dev) (cap id i arg : Nat) : (d.raiseUpTo cap id i arg).sync = d.sync := (raiseUpTo_calm d cap id i arg).sync
@[simp] theorem Dev.raiseUpTo_groups (d : Dev) (cap id i arg : Nat) : (d.raiseUpTo cap id i arg).groups = d.groups := (raiseUpTo_calm d cap id i arg).groups
@[simp] theorem Dev.raiseUpTo_laps (d : Dev) (cap id i arg : Nat) : (d.raiseUpTo cap id i arg).laps = d.laps := (raiseUpTo_calm d cap id i arg).laps
@[simp] theorem Dev.raiseUpTo_pair (d : Dev) (cap id i arg : Nat) : (d.raiseUpTo cap id i arg).pair = d.pair := (raiseUpTo_calm d cap id i arg).pair
@[simp] theorem Dev.raiseUpTo_check (d : Dev) (cap id i arg : Nat) : (d.raiseUpTo cap id i arg).check = d.check := (raiseUpTo_calm d cap id i arg).check
@[simp] theorem Dev.raiseUpTo_matrix (d : Dev) (cap id i arg : Nat) : (d.raiseUpTo cap id i arg).matrix = d.matrix := (raiseUpTo_calm d cap id i arg).matrix
@[simp] theorem Dev.raiseUpTo_recr (d : Dev) (cap id i arg : Nat) : (d.raiseUpTo cap id i arg).recr = d.recr := (raiseUpTo_calm d cap id i arg).recr
@[simp] theorem Dev.raiseUpTo_caps (d : Dev) (cap id i arg : Nat) : (d.raiseUpTo cap id i arg).caps = d.caps := (raiseUpTo_calm d cap id i arg).caps
@[simp] theorem Dev.raiseUpTo_boot (d : Dev) (cap id i arg : Nat) : (d.raiseUpTo cap id i arg).boot = d.boot := (raiseUpTo_calm d cap id i arg).boot
@[simp] theorem Dev.raiseUpTo_sys (d : Dev) (cap id i arg : Nat) : (d.raiseUpTo cap id i arg).sys = d.sys := (raiseUpTo_calm d cap id i arg).sys
theorem Dev.word_raiseUpTo (d : Dev) (cap id i arg : Nat) (r : Reg) (j : Nat) (h : evRegs.contains r = false) :
    (d.raiseUpTo cap id i arg).word r j = d.word r j := (raiseUpTo_calm d cap id i arg).word r j h
theorem Dev.get_raiseUpTo (d : Dev) (cap id i arg : Nat) (f : Fld) (j : Nat) (h : evRegs.contains f.reg = false) :
    (d.raiseUpTo cap id i arg).get f j = d.get f j := (raiseUpTo_calm d cap id i arg).get f j h
theorem Dev.bit_raiseUpTo (d : Dev) (cap id i arg : Nat) (f : Fld) (j : Nat) (h : evRegs.contains f.reg = false) :
    (d.raiseUpTo cap id i arg).bit f j = d.bit f j := (raiseUpTo_calm d cap id i arg).bit f j h
@[simp] theorem Dev.raise1_shadow (d : Dev) (id i arg : Nat) : (d.raise1 id i arg).shadow = d.shadow := (raise1_calm d id i arg).shadow
@[simp] theorem Dev.raise1_ticks (d : Dev) (id i arg : Nat) : (d.raise1 id i arg).ticks = d.ticks := (raise1_calm d id i arg).ticks
@[simp] theorem Dev.raise1_dtime (d : Dev) (id i arg : Nat) : (d.raise1 id i arg).dtime = d.dtime := (raise1_calm d id i arg).dtime
@[simp] theorem Dev.raise1_fresh (d : Dev) (id i arg : Nat) : (d.raise1 id i arg).fresh = d.fresh := (raise1_calm d id i arg).fresh
@[simp] theorem Dev.raise1_chans (d : Dev) (id i arg : Nat) : (d.raise1 id i arg).chans = d.chans := (raise1_calm d id i arg).chans
@[simp] theorem Dev.raise1_servers (d : Dev) (id i arg : Nat) : (d.raise1 id i arg).servers = d.servers := (raise1_calm d id i arg).servers
@[simp] theorem Dev.raise1_tribs (d : Dev) (id i arg : Nat) : (d.raise1 id i arg).tribs = d.tribs := (raise1_calm d id i arg).tribs
@[simp] theorem Dev.raise1_flexe (d : Dev) (id i arg : Nat) : (d.raise1 id i arg).flexe = d.flexe := (raise1_calm d id i arg).flexe
@[simp] theorem Dev.raise1_ohs (d : Dev) (id i arg : Nat) : (d.raise1 id i arg).ohs = d.ohs := (raise1_calm d id i arg).ohs
@[simp] theorem Dev.raise1_heats (d : Dev) (id i arg : Nat) : (d.raise1 id i arg).heats = d.heats := (raise1_calm d id i arg).heats
@[simp] theorem Dev.raise1_engines (d : Dev) (id i arg : Nat) : (d.raise1 id i arg).engines = d.engines := (raise1_calm d id i arg).engines
@[simp] theorem Dev.raise1_ctxs (d : Dev) (id i arg : Nat) : (d.raise1 id i arg).ctxs = d.ctxs := (raise1_calm d id i arg).ctxs
@[simp] theorem Dev.raise1_shadows (d : Dev) (id i arg : Nat) : (d.raise1 id i arg).shadows = d.shadows := (raise1_calm d id i arg).shadows
@[simp] theorem Dev.raise1_sync (d : Dev) (id i arg : Nat) : (d.raise1 id i arg).sync = d.sync := (raise1_calm d id i arg).sync
@[simp] theorem Dev.raise1_groups (d : Dev) (id i arg : Nat) : (d.raise1 id i arg).groups = d.groups := (raise1_calm d id i arg).groups
@[simp] theorem Dev.raise1_laps (d : Dev) (id i arg : Nat) : (d.raise1 id i arg).laps = d.laps := (raise1_calm d id i arg).laps
@[simp] theorem Dev.raise1_pair (d : Dev) (id i arg : Nat) : (d.raise1 id i arg).pair = d.pair := (raise1_calm d id i arg).pair
@[simp] theorem Dev.raise1_check (d : Dev) (id i arg : Nat) : (d.raise1 id i arg).check = d.check := (raise1_calm d id i arg).check
@[simp] theorem Dev.raise1_matrix (d : Dev) (id i arg : Nat) : (d.raise1 id i arg).matrix = d.matrix := (raise1_calm d id i arg).matrix
@[simp] theorem Dev.raise1_recr (d : Dev) (id i arg : Nat) : (d.raise1 id i arg).recr = d.recr := (raise1_calm d id i arg).recr
@[simp] theorem Dev.raise1_caps (d : Dev) (id i arg : Nat) : (d.raise1 id i arg).caps = d.caps := (raise1_calm d id i arg).caps
@[simp] theorem Dev.raise1_boot (d : Dev) (id i arg : Nat) : (d.raise1 id i arg).boot = d.boot := (raise1_calm d id i arg).boot
@[simp] theorem Dev.raise1_sys (d : Dev) (id i arg : Nat) : (d.raise1 id i arg).sys = d.sys := (raise1_calm d id i arg).sys
theorem Dev.word_raise1 (d : Dev) (id i arg : Nat) (r : Reg) (j : Nat) (h : evRegs.contains r = false) :
    (d.raise1 id i arg).word r j = d.word r j := (raise1_calm d id i arg).word r j h
theorem Dev.get_raise1 (d : Dev) (id i arg : Nat) (f : Fld) (j : Nat) (h : evRegs.contains f.reg = false) :
    (d.raise1 id i arg).get f j = d.get f j := (raise1_calm d id i arg).get f j h
theorem Dev.bit_raise1 (d : Dev) (id i arg : Nat) (f : Fld) (j : Nat) (h : evRegs.contains f.reg = false) :
    (d.raise1 id i arg).bit f j = d.bit f j := (raise1_calm d id i arg).bit f j h
@[simp] theorem Dev.raiseIf_shadow (d : Dev) (b : Bool) (id arg : Nat) : (d.raiseIf b id arg).shadow = d.shadow := (raiseIf_calm d b id arg).shadow
@[simp] theorem Dev.raiseIf_ticks (d : Dev) (b : Bool) (id arg : Nat) : (d.raiseIf b id arg).ticks = d.ticks := (raiseIf_calm d b id arg).ticks
@[simp] theorem Dev.raiseIf_dtime (d : Dev) (b : Bool) (id arg : Nat) : (d.raiseIf b id arg).dtime = d.dtime := (raiseIf_calm d b id arg).dtime
@[simp] theorem Dev.raiseIf_fresh (d : Dev) (b : Bool) (id arg : Nat) : (d.raiseIf b id arg).fresh = d.fresh := (raiseIf_calm d b id arg).fresh
@[simp] theorem Dev.raiseIf_chans (d : Dev) (b : Bool) (id arg : Nat) : (d.raiseIf b id arg).chans = d.chans := (raiseIf_calm d b id arg).chans
@[simp] theorem Dev.raiseIf_servers (d : Dev) (b : Bool) (id arg : Nat) : (d.raiseIf b id arg).servers = d.servers := (raiseIf_calm d b id arg).servers
@[simp] theorem Dev.raiseIf_tribs (d : Dev) (b : Bool) (id arg : Nat) : (d.raiseIf b id arg).tribs = d.tribs := (raiseIf_calm d b id arg).tribs
@[simp] theorem Dev.raiseIf_flexe (d : Dev) (b : Bool) (id arg : Nat) : (d.raiseIf b id arg).flexe = d.flexe := (raiseIf_calm d b id arg).flexe
@[simp] theorem Dev.raiseIf_ohs (d : Dev) (b : Bool) (id arg : Nat) : (d.raiseIf b id arg).ohs = d.ohs := (raiseIf_calm d b id arg).ohs
@[simp] theorem Dev.raiseIf_heats (d : Dev) (b : Bool) (id arg : Nat) : (d.raiseIf b id arg).heats = d.heats := (raiseIf_calm d b id arg).heats
@[simp] theorem Dev.raiseIf_engines (d : Dev) (b : Bool) (id arg : Nat) : (d.raiseIf b id arg).engines = d.engines := (raiseIf_calm d b id arg).engines
@[simp] theorem Dev.raiseIf_ctxs (d : Dev) (b : Bool) (id arg : Nat) : (d.raiseIf b id arg).ctxs = d.ctxs := (raiseIf_calm d b id arg).ctxs
@[simp] theorem Dev.raiseIf_shadows (d : Dev) (b : Bool) (id arg : Nat) : (d.raiseIf b id arg).shadows = d.shadows := (raiseIf_calm d b id arg).shadows
@[simp] theorem Dev.raiseIf_sync (d : Dev) (b : Bool) (id arg : Nat) : (d.raiseIf b id arg).sync = d.sync := (raiseIf_calm d b id arg).sync
@[simp] theorem Dev.raiseIf_groups (d : Dev) (b : Bool) (id arg : Nat) : (d.raiseIf b id arg).groups = d.groups := (raiseIf_calm d b id arg).groups
@[simp] theorem Dev.raiseIf_laps (d : Dev) (b : Bool) (id arg : Nat) : (d.raiseIf b id arg).laps = d.laps := (raiseIf_calm d b id arg).laps
@[simp] theorem Dev.raiseIf_pair (d : Dev) (b : Bool) (id arg : Nat) : (d.raiseIf b id arg).pair = d.pair := (raiseIf_calm d b id arg).pair
@[simp] theorem Dev.raiseIf_check (d : Dev) (b : Bool) (id arg : Nat) : (d.raiseIf b id arg).check = d.check := (raiseIf_calm d b id arg).check
@[simp] theorem Dev.raiseIf_matrix (d : Dev) (b : Bool) (id arg : Nat) : (d.raiseIf b id arg).matrix = d.matrix := (raiseIf_calm d b id arg).matrix
@[simp] theorem Dev.raiseIf_recr (d : Dev) (b : Bool) (id arg : Nat) : (d.raiseIf b id arg).recr = d.recr := (raiseIf_calm d b id arg).recr
@[simp] theorem Dev.raiseIf_caps (d : Dev) (b : Bool) (id arg : Nat) : (d.raiseIf b id arg).caps = d.caps := (raiseIf_calm d b id arg).caps
@[simp] theorem Dev.raiseIf_boot (d : Dev) (b : Bool) (id arg : Nat) : (d.raiseIf b id arg).boot = d.boot := (raiseIf_calm d b id arg).boot
@[simp] theorem Dev.raiseIf_sys (d : Dev) (b : Bool) (id arg : Nat) : (d.raiseIf b id arg).sys = d.sys := (raiseIf_calm d b id arg).sys
theorem Dev.word_raiseIf (d : Dev) (b : Bool) (id arg : Nat) (r : Reg) (j : Nat) (h : evRegs.contains r = false) :
    (d.raiseIf b id arg).word r j = d.word r j := (raiseIf_calm d b id arg).word r j h
theorem Dev.get_raiseIf (d : Dev) (b : Bool) (id arg : Nat) (f : Fld) (j : Nat) (h : evRegs.contains f.reg = false) :
    (d.raiseIf b id arg).get f j = d.get f j := (raiseIf_calm d b id arg).get f j h
theorem Dev.bit_raiseIf (d : Dev) (b : Bool) (id arg : Nat) (f : Fld) (j : Nat) (h : evRegs.contains f.reg = false) :
    (d.raiseIf b id arg).bit f j = d.bit f j := (raiseIf_calm d b id arg).bit f j h

/-! ### Unit states, ready bits, records -/

@[simp] theorem Dev.reach_shadow (d : Dev) (c : UClass) (i v : Nat) : (d.reach c i v).shadow = d.shadow := by simp [Dev.reach]
@[simp] theorem Dev.reach_ticks (d : Dev) (c : UClass) (i v : Nat) : (d.reach c i v).ticks = d.ticks := by simp [Dev.reach]
@[simp] theorem Dev.reach_dtime (d : Dev) (c : UClass) (i v : Nat) : (d.reach c i v).dtime = d.dtime := by simp [Dev.reach]
@[simp] theorem Dev.reach_fresh (d : Dev) (c : UClass) (i v : Nat) : (d.reach c i v).fresh = d.fresh := by simp [Dev.reach]
@[simp] theorem Dev.reach_chans (d : Dev) (c : UClass) (i v : Nat) : (d.reach c i v).chans = d.chans := by simp [Dev.reach]
@[simp] theorem Dev.reach_servers (d : Dev) (c : UClass) (i v : Nat) : (d.reach c i v).servers = d.servers := by simp [Dev.reach]
@[simp] theorem Dev.reach_tribs (d : Dev) (c : UClass) (i v : Nat) : (d.reach c i v).tribs = d.tribs := by simp [Dev.reach]
@[simp] theorem Dev.reach_flexe (d : Dev) (c : UClass) (i v : Nat) : (d.reach c i v).flexe = d.flexe := by simp [Dev.reach]
@[simp] theorem Dev.reach_ohs (d : Dev) (c : UClass) (i v : Nat) : (d.reach c i v).ohs = d.ohs := by simp [Dev.reach]
@[simp] theorem Dev.reach_heats (d : Dev) (c : UClass) (i v : Nat) : (d.reach c i v).heats = d.heats := by simp [Dev.reach]
@[simp] theorem Dev.reach_engines (d : Dev) (c : UClass) (i v : Nat) : (d.reach c i v).engines = d.engines := by simp [Dev.reach]
@[simp] theorem Dev.reach_ctxs (d : Dev) (c : UClass) (i v : Nat) : (d.reach c i v).ctxs = d.ctxs := by simp [Dev.reach]
@[simp] theorem Dev.reach_shadows (d : Dev) (c : UClass) (i v : Nat) : (d.reach c i v).shadows = d.shadows := by simp [Dev.reach]
@[simp] theorem Dev.reach_sync (d : Dev) (c : UClass) (i v : Nat) : (d.reach c i v).sync = d.sync := by simp [Dev.reach]
@[simp] theorem Dev.reach_groups (d : Dev) (c : UClass) (i v : Nat) : (d.reach c i v).groups = d.groups := by simp [Dev.reach]
@[simp] theorem Dev.reach_laps (d : Dev) (c : UClass) (i v : Nat) : (d.reach c i v).laps = d.laps := by simp [Dev.reach]
@[simp] theorem Dev.reach_pair (d : Dev) (c : UClass) (i v : Nat) : (d.reach c i v).pair = d.pair := by simp [Dev.reach]
@[simp] theorem Dev.reach_check (d : Dev) (c : UClass) (i v : Nat) : (d.reach c i v).check = d.check := by simp [Dev.reach]
@[simp] theorem Dev.reach_matrix (d : Dev) (c : UClass) (i v : Nat) : (d.reach c i v).matrix = d.matrix := by simp [Dev.reach]
@[simp] theorem Dev.reach_recr (d : Dev) (c : UClass) (i v : Nat) : (d.reach c i v).recr = d.recr := by simp [Dev.reach]
@[simp] theorem Dev.reach_caps (d : Dev) (c : UClass) (i v : Nat) : (d.reach c i v).caps = d.caps := by simp [Dev.reach]
@[simp] theorem Dev.reach_boot (d : Dev) (c : UClass) (i v : Nat) : (d.reach c i v).boot = d.boot := by simp [Dev.reach]
@[simp] theorem Dev.reach_sys (d : Dev) (c : UClass) (i v : Nat) : (d.reach c i v).sys = d.sys := by simp [Dev.reach]

/-- Reaching a unit state changes no register but the unit states and the event registers. -/
theorem Dev.word_reach (d : Dev) (c : UClass) (i v : Nat) (r : Reg) (j : Nat) (h : evRegs.contains r = false)
    (hu : r ≠ .GLB_UC_ST) : (d.reach c i v).word r j = d.word r j := by
  rw [Dev.reach, Dev.word_raise _ _ _ _ _ h]
  exact Dev.word_setWord_reg _ _ _ _ hu

/-- A unit that reaches state v is in state v. -/
theorem Dev.ust_setUst (d : Dev) (c : UClass) (i v : Nat) : (d.setUst c i v).ust c i = v % 4 := by
  have hf : Fld.fits ⟨.GLB_UC_ST, 2 * (i % 16), 2⟩ = true := by
    have : i % 16 < 16 := Nat.mod_lt _ (by decide)
    simp only [Fld.fits, decide_eq_true_eq]
    omega
  exact Dev.get_set_same d ⟨.GLB_UC_ST, 2 * (i % 16), 2⟩ ((uclassCode c - 1) * 256 + i / 16) v hf

theorem Dev.ust_raise (d : Dev) (id arg : Nat) (c : UClass) (i : Nat) : (d.raise id arg).ust c i = d.ust c i := by
  simp only [Dev.ust, Dev.word_raise d id arg .GLB_UC_ST _ (by decide)]

theorem Dev.ust_reach (d : Dev) (c : UClass) (i v : Nat) : (d.reach c i v).ust c i = v % 4 := by
  rw [Dev.reach, Dev.ust_raise, Dev.ust_setUst]

/-- An operation on a register that holds no unit state leaves the unit states. -/
theorem Dev.ust_set (d : Dev) (f : Fld) (j v : Nat) (c : UClass) (i : Nat) (h : f.reg ≠ .GLB_UC_ST) :
    (d.set f j v).ust c i = d.ust c i := by
  simp only [Dev.ust, Dev.word_set_reg d f _ _ _ h.symm]

/-- Setting a ready bit changes no register but that one and the event registers. -/
theorem Dev.word_ready (d : Dev) (f : Fld) (i code : Nat) (b : Bool) (r : Reg) (j : Nat) (h : evRegs.contains r = false)
    (hr : r ≠ f.reg) : (d.ready f i code b).word r j = d.word r j := by
  unfold Dev.ready
  split
  · rfl
  · rw [Dev.word_raise _ _ _ _ _ h]
    exact Dev.word_setWord_reg _ _ _ _ hr

@[simp] theorem Dev.ready_shadow (d : Dev) (g : Fld) (i code : Nat) (b : Bool) : (d.ready g i code b).shadow = d.shadow := by
  unfold Dev.ready; split <;> simp
@[simp] theorem Dev.ready_ticks (d : Dev) (g : Fld) (i code : Nat) (b : Bool) : (d.ready g i code b).ticks = d.ticks := by
  unfold Dev.ready; split <;> simp
@[simp] theorem Dev.ready_dtime (d : Dev) (g : Fld) (i code : Nat) (b : Bool) : (d.ready g i code b).dtime = d.dtime := by
  unfold Dev.ready; split <;> simp
@[simp] theorem Dev.ready_fresh (d : Dev) (g : Fld) (i code : Nat) (b : Bool) : (d.ready g i code b).fresh = d.fresh := by
  unfold Dev.ready; split <;> simp
@[simp] theorem Dev.ready_chans (d : Dev) (g : Fld) (i code : Nat) (b : Bool) : (d.ready g i code b).chans = d.chans := by
  unfold Dev.ready; split <;> simp
@[simp] theorem Dev.ready_servers (d : Dev) (g : Fld) (i code : Nat) (b : Bool) : (d.ready g i code b).servers = d.servers := by
  unfold Dev.ready; split <;> simp
@[simp] theorem Dev.ready_tribs (d : Dev) (g : Fld) (i code : Nat) (b : Bool) : (d.ready g i code b).tribs = d.tribs := by
  unfold Dev.ready; split <;> simp
@[simp] theorem Dev.ready_flexe (d : Dev) (g : Fld) (i code : Nat) (b : Bool) : (d.ready g i code b).flexe = d.flexe := by
  unfold Dev.ready; split <;> simp
@[simp] theorem Dev.ready_ohs (d : Dev) (g : Fld) (i code : Nat) (b : Bool) : (d.ready g i code b).ohs = d.ohs := by
  unfold Dev.ready; split <;> simp
@[simp] theorem Dev.ready_heats (d : Dev) (g : Fld) (i code : Nat) (b : Bool) : (d.ready g i code b).heats = d.heats := by
  unfold Dev.ready; split <;> simp
@[simp] theorem Dev.ready_engines (d : Dev) (g : Fld) (i code : Nat) (b : Bool) : (d.ready g i code b).engines = d.engines := by
  unfold Dev.ready; split <;> simp
@[simp] theorem Dev.ready_ctxs (d : Dev) (g : Fld) (i code : Nat) (b : Bool) : (d.ready g i code b).ctxs = d.ctxs := by
  unfold Dev.ready; split <;> simp
@[simp] theorem Dev.ready_shadows (d : Dev) (g : Fld) (i code : Nat) (b : Bool) : (d.ready g i code b).shadows = d.shadows := by
  unfold Dev.ready; split <;> simp
@[simp] theorem Dev.ready_sync (d : Dev) (g : Fld) (i code : Nat) (b : Bool) : (d.ready g i code b).sync = d.sync := by
  unfold Dev.ready; split <;> simp
@[simp] theorem Dev.ready_groups (d : Dev) (g : Fld) (i code : Nat) (b : Bool) : (d.ready g i code b).groups = d.groups := by
  unfold Dev.ready; split <;> simp
@[simp] theorem Dev.ready_laps (d : Dev) (g : Fld) (i code : Nat) (b : Bool) : (d.ready g i code b).laps = d.laps := by
  unfold Dev.ready; split <;> simp
@[simp] theorem Dev.ready_pair (d : Dev) (g : Fld) (i code : Nat) (b : Bool) : (d.ready g i code b).pair = d.pair := by
  unfold Dev.ready; split <;> simp
@[simp] theorem Dev.ready_check (d : Dev) (g : Fld) (i code : Nat) (b : Bool) : (d.ready g i code b).check = d.check := by
  unfold Dev.ready; split <;> simp
@[simp] theorem Dev.ready_matrix (d : Dev) (g : Fld) (i code : Nat) (b : Bool) : (d.ready g i code b).matrix = d.matrix := by
  unfold Dev.ready; split <;> simp
@[simp] theorem Dev.ready_recr (d : Dev) (g : Fld) (i code : Nat) (b : Bool) : (d.ready g i code b).recr = d.recr := by
  unfold Dev.ready; split <;> simp
@[simp] theorem Dev.ready_caps (d : Dev) (g : Fld) (i code : Nat) (b : Bool) : (d.ready g i code b).caps = d.caps := by
  unfold Dev.ready; split <;> simp
@[simp] theorem Dev.ready_boot (d : Dev) (g : Fld) (i code : Nat) (b : Bool) : (d.ready g i code b).boot = d.boot := by
  unfold Dev.ready; split <;> simp
@[simp] theorem Dev.ready_sys (d : Dev) (g : Fld) (i code : Nat) (b : Bool) : (d.ready g i code b).sys = d.sys := by
  unfold Dev.ready; split <;> simp

end Sys2Proof.Machine
end

