-- ==== Sys2Proof/Laws/Frame.lean ====
section
/-!
SUPPORT. How the register frame of Safety.lean is shown: each update of the device extends it, so that a frame of a chain
of updates is one chain of lemmas.
-/
namespace Sys2Proof.Machine

theorem RegsKept.refl (skip : List Reg) (fs : List (Fld × Nat)) (d : Dev) : RegsKept skip fs d d := fun _ _ _ _ _ _ => rfl

theorem RegsKept.trans {skip : List Reg} {fs : List (Fld × Nat)} {a b c : Dev} (h : RegsKept skip fs a b)
    (k : RegsKept skip fs b c) : RegsKept skip fs a c :=
  fun r i n hi hs hf => (k r i n hi hs hf).trans (h r i n hi hs hf)

/-- A device whose registers are the same keeps the frame. -/
theorem RegsKept.of_regs {skip : List Reg} {fs : List (Fld × Nat)} {a b c : Dev} (h : RegsKept skip fs a b)
    (e : c.regs = b.regs) : RegsKept skip fs a c := by
  intro r i n hi hs hf
  rw [← h r i n hi hs hf]
  simp only [Dev.word, e]

/-- A frame with more fields, or that skips more registers, is weaker. -/
theorem RegsKept.mono {skip skip' : List Reg} {fs gs : List (Fld × Nat)} {a b : Dev} (h : RegsKept skip fs a b)
    (hs : ∀ r, skip.contains r = true → skip'.contains r = true) (hf : ∀ p ∈ fs, p ∈ gs) : RegsKept skip' gs a b := by
  intro r i n hi hk hg
  apply h r i n hi
  · cases hc : skip.contains r with
    | false => rfl
    | true => rw [hs r hc] at hk; exact absurd hk (by decide)
  · cases hc : inFields fs r i n with
    | false => rfl
    | true =>
      have : inFields gs r i n = true := by
        simp only [inFields, List.any_eq_true] at hc ⊢
        obtain ⟨p, hp, hb⟩ := hc
        exact ⟨p, hf p hp, hb⟩
      rw [this] at hg
      exact absurd hg (by decide)

/-- A word outside the frame's skipped registers with no field named is unchanged as a whole. -/
theorem RegsKept.word {skip : List Reg} {fs : List (Fld × Nat)} {a b : Dev} (h : RegsKept skip fs a b) (r : Reg) (i : Nat)
    (hi : i < 2 ^ 20) (hs : skip.contains r = false) (hf : ∀ p ∈ fs, p.1.reg ≠ r ∨ p.2 ≠ i) : b.word r i = a.word r i := by
  apply BitVec.eq_of_getLsbD_eq
  intro n _
  apply h r i n hi hs
  rw [inFields, List.any_eq_false]
  intro p hp
  rcases hf p hp with h1 | h1 <;> simp [h1]

theorem RegsKept.setWord {skip : List Reg} {fs : List (Fld × Nat)} {a b : Dev} (h : RegsKept skip fs a b) (r : Reg) (i : Nat)
    (w : Word) (hi : i < 2 ^ 20) (hm : wholeWord r i ∈ fs) : RegsKept skip fs a (b.setWord r i w) := by
  intro q j n hj hs hf
  rw [← h q j n hj hs hf]
  by_cases hq : q = r
  · subst hq
    by_cases hij : j = i
    · subst hij
      by_cases hn : n < 32
      · exfalso
        have : inFields fs q j n = true := by
          simp only [inFields, List.any_eq_true]
          exact ⟨_, hm, by simp [wholeWord, hn]⟩
        rw [this] at hf
        exact absurd hf (by decide)
      · rw [BitVec.getLsbD_of_ge _ _ (by omega), BitVec.getLsbD_of_ge _ _ (by omega)]
    · rw [Dev.word_setWord_idx _ _ _ hi hj hij]
  · rw [Dev.word_setWord_reg _ _ _ _ hq]

theorem RegsKept.setWord_skip {skip : List Reg} {fs : List (Fld × Nat)} {a b : Dev} (h : RegsKept skip fs a b) (r : Reg) (i : Nat)
    (w : Word) (hs : skip.contains r = true) : RegsKept skip fs a (b.setWord r i w) := by
  intro q j n hj hk hf
  rw [← h q j n hj hk hf]
  have hq : q ≠ r := by
    intro e
    rw [e, hs] at hk
    exact absurd hk (by decide)
  rw [Dev.word_setWord_reg _ _ _ _ hq]

theorem RegsKept.set {skip : List Reg} {fs : List (Fld × Nat)} {a b : Dev} (h : RegsKept skip fs a b) (f : Fld) (i v : Nat)
    (hi : i < 2 ^ 20) (hm : (f, i) ∈ fs) : RegsKept skip fs a (b.set f i v) := by
  intro q j n hj hs hf
  rw [← h q j n hj hs hf]
  by_cases hq : q = f.reg
  · by_cases hij : j = i
    · subst hij
      by_cases hn : n < 32
      · rw [hq, Dev.set, Dev.word_setWord_same, Fld.into_bit _ _ _ _ hn, if_neg]
        intro hb
        have : inFields fs q j n = true := by
          simp only [inFields, List.any_eq_true]
          exact ⟨_, hm, by simp [hq, hb.1, hb.2]⟩
        rw [this] at hf
        exact absurd hf (by decide)
      · rw [BitVec.getLsbD_of_ge _ _ (by omega), BitVec.getLsbD_of_ge _ _ (by omega)]
    · rw [hq, Dev.set, Dev.word_setWord_idx _ _ _ hi hj hij]
  · rw [Dev.set, Dev.word_setWord_reg _ _ _ _ hq]

theorem RegsKept.setB {skip : List Reg} {fs : List (Fld × Nat)} {a b : Dev} (h : RegsKept skip fs a b) (f : Fld) (i : Nat) (v : Bool)
    (hi : i < 2 ^ 20) (hm : (f, i) ∈ fs) : RegsKept skip fs a (b.setB f i v) := h.set f i _ hi hm

theorem RegsKept.bump {skip : List Reg} {fs : List (Fld × Nat)} {a b : Dev} (h : RegsKept skip fs a b) (f : Fld) (i n : Nat)
    (hi : i < 2 ^ 20) (hm : (f, i) ∈ fs) : RegsKept skip fs a (b.bump f i n) := h.set f i _ hi hm

theorem RegsKept.wrap {skip : List Reg} {fs : List (Fld × Nat)} {a b : Dev} (h : RegsKept skip fs a b) (f : Fld) (i n : Nat)
    (hi : i < 2 ^ 20) (hm : (f, i) ∈ fs) : RegsKept skip fs a (b.wrap f i n) := h.set f i _ hi hm

/-- A step that is calm extends a frame that skips the event registers. -/
theorem RegsKept.calm {fs : List (Fld × Nat)} {a b c : Dev} (h : RegsKept evRegs fs a b) (k : Calm b c) :
    RegsKept evRegs fs a c := by
  intro r i n hi hs hf
  rw [k.word r i hs]
  exact h r i n hi hs hf

theorem RegsKept.raise {fs : List (Fld × Nat)} {a b : Dev} (h : RegsKept evRegs fs a b) (id arg : Nat) :
    RegsKept evRegs fs a (b.raise id arg) := h.calm (raise_calm b id arg)

theorem RegsKept.raise1 {fs : List (Fld × Nat)} {a b : Dev} (h : RegsKept evRegs fs a b) (id i arg : Nat) :
    RegsKept evRegs fs a (b.raise1 id i arg) := h.calm (raise1_calm b id i arg)

theorem RegsKept.raiseUpTo {fs : List (Fld × Nat)} {a b : Dev} (h : RegsKept evRegs fs a b) (cap id i arg : Nat) :
    RegsKept evRegs fs a (b.raiseUpTo cap id i arg) := h.calm (raiseUpTo_calm b cap id i arg)

theorem RegsKept.raiseIf {fs : List (Fld × Nat)} {a b : Dev} (h : RegsKept evRegs fs a b) (c : Bool) (id arg : Nat) :
    RegsKept evRegs fs a (b.raiseIf c id arg) := h.calm (raiseIf_calm b c id arg)

/-- A calm step changes registers and the host port alone. -/
theorem Calm.eq {d e : Dev} (h : Calm d e) : e = { d with regs := e.regs, host := e.host } := by
  obtain ⟨_, h1, h2, h3, h4, h5, h6, h7, h8, h9, h10, h11, h12, h13, h14, h15, h16, h17, h18, h19, h20, h21, h22, h23⟩ := h
  cases d; cases e
  simp_all

theorem onlyRegs_of_set (fs : List (Fld × Nat)) (s : State) (f : Fld) (i v : Nat) (hi : i < 2 ^ 20) (hm : (f, i) ∈ fs) :
    OnlyRegs fs s (s.onDev (·.set f i v)) :=
  ⟨rfl, (RegsKept.refl [] fs s.dev).set f i v hi hm⟩

end Sys2Proof.Machine
end

