-- ==== Sys2Proof/Laws/Event.lean ====
section
/-!
SUPPORT. An event that is raised is logged: its record stands in the event ring, or waits while the ring is not usable.
-/
namespace Sys2Proof.Machine

theorem sendMsix_ring (d : Dev) (v : Nat) : (d.sendMsix v).host.ring = d.host.ring ∧ (d.sendMsix v).host.evSeq = d.host.evSeq := by
  unfold Dev.sendMsix
  split
  · exact ⟨rfl, rfl⟩
  · split <;> exact ⟨rfl, rfl⟩

theorem msixDue_ring (d : Dev) (v : Nat) : (d.msixDue v).host.ring = d.host.ring ∧ (d.msixDue v).host.evSeq = d.host.evSeq := by
  unfold Dev.msixDue
  split
  · exact ⟨rfl, rfl⟩
  · exact sendMsix_ring d v

theorem interrupt_ring (d : Dev) (a : Nat) : (d.interrupt a).host.ring = d.host.ring ∧ (d.interrupt a).host.evSeq = d.host.evSeq := by
  unfold Dev.interrupt
  extract_lets e
  have he : e.host = d.host := Dev.setWord_host ..
  clear_value e
  split
  · rw [he]; exact ⟨rfl, rfl⟩
  · rw [← he]; exact msixDue_ring e _

/-- The read counts follow an overrun by some numbers of records. -/
theorem ringAdvance_eq (d : Dev) : ∃ n m, d.ringAdvance = (d.hostAdvance n).i2cAdvance m := by
  unfold Dev.ringAdvance Dev.i2cFollow
  exact ⟨_, _, rfl⟩

theorem ringAdvance_ring (d : Dev) : d.ringAdvance.host.ring = d.host.ring := by
  have hh : ∀ (d : Dev) n, (d.hostAdvance n).host = d.host := by
    intro d n; unfold Dev.hostAdvance; split <;> rfl
  have hi : ∀ (d : Dev) n, (d.i2cAdvance n).host.ring = d.host.ring := by
    intro d n; unfold Dev.i2cAdvance; split <;> rfl
  obtain ⟨n, m, h⟩ := ringAdvance_eq d
  rw [h, hi, hh]

/-- Raising an event leaves the write count where only the ring writes of `ringPut` move it. -/
theorem interrupt_wr (d : Dev) (a : Nat) : (d.interrupt a).word .GLB_EVT_WR 0 = d.word .GLB_EVT_WR 0 := by
  have hm : ∀ (d : Dev) v, (d.sendMsix v).word .GLB_EVT_WR 0 = d.word .GLB_EVT_WR 0 := by
    intro d v
    unfold Dev.sendMsix
    split
    · rfl
    · split
      · exact Dev.word_setWord_reg _ _ _ _ (by decide)
      · exact (Dev.word_setWord_reg _ _ _ _ (by decide) : (d.pba v false).word .GLB_EVT_WR 0 = _)
  have hd : ∀ (d : Dev) v, (d.msixDue v).word .GLB_EVT_WR 0 = d.word .GLB_EVT_WR 0 := by
    intro d v
    unfold Dev.msixDue
    split
    · rfl
    · exact hm d v
  have hp : (d.setWord .GLB_EVT_PEND 0 (d.word .GLB_EVT_PEND 0 ||| BitVec.ofNat 32 (1 <<< a))).word .GLB_EVT_WR 0
      = d.word .GLB_EVT_WR 0 := Dev.word_setWord_reg _ _ _ _ (by decide)
  unfold Dev.interrupt
  simp only
  split
  · exact hp
  · rw [hd]; exact hp

theorem ringAdvance_wr (d : Dev) : d.ringAdvance.word .GLB_EVT_WR 0 = d.word .GLB_EVT_WR 0 := by
  have hh : ∀ (d : Dev) n, (d.hostAdvance n).word .GLB_EVT_WR 0 = d.word .GLB_EVT_WR 0 := by
    intro d n
    unfold Dev.hostAdvance
    split
    · rfl
    · rw [Dev.bump, Dev.word_set_reg _ _ _ _ _ (by decide)]
      exact Dev.word_setWord_reg _ _ _ _ (by decide)
  have hi : ∀ (d : Dev) n, (d.i2cAdvance n).word .GLB_EVT_WR 0 = d.word .GLB_EVT_WR 0 := by
    intro d n; unfold Dev.i2cAdvance; split <;> rfl
  unfold Dev.ringAdvance Dev.i2cFollow
  rw [hi, hh]

theorem ringPut_wr (d : Dev) (r : EvRec) : (d.ringPut r).get .GLB_EVT_WR_wr 0 = (d.get .GLB_EVT_WR_wr 0 + 1) % 2 ^ 32 := by
  unfold Dev.ringPut
  exact Dev.get_set_same _ _ _ _ (by decide)

theorem ringPut_slot (d : Dev) (r : EvRec) :
    Table.find (d.ringPut r).host.ring (d.get .GLB_EVT_WR_wr 0 % 4096) = some { r with seq := BitVec.ofNat 32 d.host.evSeq } :=
  Table.find_ins_same _ _ _

theorem ringPut_other (d : Dev) (r : EvRec) (k : Nat) (h : k ≠ d.get .GLB_EVT_WR_wr 0 % 4096) :
    Table.find (d.ringPut r).host.ring k = Table.find d.host.ring k := Table.find_ins_ne _ _ h

theorem note_ring (d : Dev) (k : Nat) : (d.note k).host.ring = d.host.ring := rfl

theorem note_word (d : Dev) (k : Nat) (r : Reg) (i : Nat) : (d.note k).word r i = d.word r i := rfl

/-- A record that enters the ring is found in the slot that was next, with the next sequence number. -/
theorem raiseRec_slot (d : Dev) (r : EvRec) :
    Table.find (d.raiseRec r).host.ring (d.get .GLB_EVT_WR_wr 0 % 4096) = some { r with seq := BitVec.ofNat 32 d.host.evSeq } := by
  have h1 : Table.find ((d.ringPut r).interrupt (r.id.toNat / 256)).host.ring (d.get .GLB_EVT_WR_wr 0 % 4096)
      = some { r with seq := BitVec.ofNat 32 d.host.evSeq } := by
    rw [(interrupt_ring _ _).1]; exact ringPut_slot d r
  unfold Dev.raiseRec Dev.ringOverrun
  simp only
  split
  · rw [ringAdvance_ring]; exact h1
  · split
    · rw [ringAdvance_ring, (interrupt_ring _ _).1, ringPut_other]
      · rw [note_ring, ringAdvance_ring]
        exact h1
      · have hw : (((d.ringPut r).interrupt (r.id.toNat / 256)).ringAdvance.note (evKey 0x0E04 0)).get .GLB_EVT_WR_wr 0
            = (d.get .GLB_EVT_WR_wr 0 + 1) % 2 ^ 32 := by
          rw [← ringPut_wr d r]
          simp only [Dev.get, show Fld.GLB_EVT_WR_wr.reg = .GLB_EVT_WR from rfl]
          rw [note_word, ringAdvance_wr, interrupt_wr]
        rw [hw]
        omega
    · rw [ringAdvance_ring]; exact h1

/-- An event that is raised is logged. -/
theorem logged_raise (d : Dev) (id arg : Nat) : Logged d (d.raise id arg) id arg := by
  unfold Logged Dev.raise
  by_cases h : d.ringUsable = true
  · simp only [h, if_true]
    exact ⟨_, rfl, rfl, rfl, raiseRec_slot d _, rfl⟩
  · simp only [h]
    exact ⟨_, rfl, rfl, rfl, [], rfl⟩

/-- Updates before the event that leave the host port, DTIME and the two registers read do not matter. -/
theorem Logged.before {d c e : Dev} {id arg : Nat} (h : Logged c e id arg) (hh : c.host = d.host) (ht : c.dtime = d.dtime)
    (hw : c.word .GLB_EVT_WR 0 = d.word .GLB_EVT_WR 0) (hr : c.word .GLB_READY_FN 0 = d.word .GLB_READY_FN 0) :
    Logged d e id arg := by
  obtain ⟨r, h1, h2, h3, h4⟩ := h
  refine ⟨r, h1, h2, h3.trans ht, ?_⟩
  have hu : c.ringUsable = d.ringUsable := by simp only [Dev.ringUsable, Dev.bit, Dev.get, hr]
  have hg : c.get .GLB_EVT_WR_wr 0 = d.get .GLB_EVT_WR_wr 0 := by
    simp only [Dev.get]; rw [show Fld.GLB_EVT_WR_wr.reg = .GLB_EVT_WR from rfl, hw]
  rw [hu, hg, hh] at h4
  exact h4

/-- Updates after the event that leave the host port do not matter. -/
theorem Logged.after {d e c : Dev} {id arg : Nat} (h : Logged d e id arg) (hh : c.host = e.host) : Logged d c id arg := by
  obtain ⟨r, h1, h2, h3, h4⟩ := h
  refine ⟨r, h1, h2, h3, ?_⟩
  rw [hh]
  exact h4

/-- A register outside the two that raising reads, set before the event, does not matter. -/
theorem Logged.set {d e : Dev} {id arg : Nat} (f : Fld) (i v : Nat) (h : Logged (d.set f i v) e id arg)
    (hw : f.reg ≠ .GLB_EVT_WR) (hr : f.reg ≠ .GLB_READY_FN) : Logged d e id arg :=
  h.before rfl rfl (Dev.word_set_reg d f 0 i v hw.symm) (Dev.word_set_reg d f 0 i v hr.symm)

theorem Logged.setB {d e : Dev} {id arg : Nat} (f : Fld) (i : Nat) (v : Bool) (h : Logged (d.setB f i v) e id arg)
    (hw : f.reg ≠ .GLB_EVT_WR) (hr : f.reg ≠ .GLB_READY_FN) : Logged d e id arg := Logged.set f i _ h hw hr

theorem Logged.bump {d e : Dev} {id arg : Nat} (f : Fld) (i n : Nat) (h : Logged (d.bump f i n) e id arg)
    (hw : f.reg ≠ .GLB_EVT_WR) (hr : f.reg ≠ .GLB_READY_FN) : Logged d e id arg := Logged.set f i _ h hw hr

theorem Logged.setWord {d e : Dev} {id arg : Nat} (r : Reg) (i : Nat) (w : Word) (h : Logged (d.setWord r i w) e id arg)
    (hw : r ≠ .GLB_EVT_WR) (hr : r ≠ .GLB_READY_FN) : Logged d e id arg :=
  h.before rfl rfl (Dev.word_setWord_reg d _ _ _ hw.symm) (Dev.word_setWord_reg d _ _ _ hr.symm)

/-! ### More events after the first -/

theorem raiseRec_wr (d : Dev) (r : EvRec) : ∃ k, 1 ≤ k ∧ k ≤ 2 ∧
    (d.raiseRec r).get .GLB_EVT_WR_wr 0 = (d.get .GLB_EVT_WR_wr 0 + k) % 2 ^ 32 := by
  have hg : ∀ (a b : Dev), a.word .GLB_EVT_WR 0 = b.word .GLB_EVT_WR 0 → a.get .GLB_EVT_WR_wr 0 = b.get .GLB_EVT_WR_wr 0 := by
    intro a b h
    simp only [Dev.get, show Fld.GLB_EVT_WR_wr.reg = .GLB_EVT_WR from rfl, h]
  have h1 : ((d.ringPut r).interrupt (r.id.toNat / 256)).ringAdvance.get .GLB_EVT_WR_wr 0
      = (d.get .GLB_EVT_WR_wr 0 + 1) % 2 ^ 32 := by
    rw [← ringPut_wr d r]
    exact hg _ _ ((ringAdvance_wr _).trans (interrupt_wr _ _))
  unfold Dev.raiseRec Dev.ringOverrun
  simp only
  split
  · exact ⟨1, by omega, by omega, h1⟩
  · split
    · refine ⟨2, by omega, by omega, ?_⟩
      rw [hg _ _ ((ringAdvance_wr _).trans (interrupt_wr _ _)), ringPut_wr]
      rw [hg _ _ (note_word _ _ _ _), h1]
      omega
    · exact ⟨1, by omega, by omega, h1⟩

/-- A record that enters the ring leaves the other slots but the one or two written. -/
theorem raiseRec_other (d : Dev) (r : EvRec) (k : Nat) (h1 : k ≠ d.get .GLB_EVT_WR_wr 0 % 4096)
    (h2 : k ≠ (d.get .GLB_EVT_WR_wr 0 + 1) % 2 ^ 32 % 4096) :
    Table.find (d.raiseRec r).host.ring k = Table.find d.host.ring k := by
  have hr : Table.find ((d.ringPut r).interrupt (r.id.toNat / 256)).host.ring k = Table.find d.host.ring k := by
    rw [(interrupt_ring _ _).1]; exact ringPut_other d r k h1
  unfold Dev.raiseRec Dev.ringOverrun
  simp only
  split
  · rw [ringAdvance_ring]; exact hr
  · split
    · rw [ringAdvance_ring, (interrupt_ring _ _).1, ringPut_other]
      · rw [note_ring, ringAdvance_ring]
        exact hr
      · have hw : (((d.ringPut r).interrupt (r.id.toNat / 256)).ringAdvance.note (evKey 0x0E04 0)).get .GLB_EVT_WR_wr 0
            = (d.get .GLB_EVT_WR_wr 0 + 1) % 2 ^ 32 := by
          rw [← ringPut_wr d r]
          simp only [Dev.get, show Fld.GLB_EVT_WR_wr.reg = .GLB_EVT_WR from rfl]
          rw [note_word, ringAdvance_wr, interrupt_wr]
        rw [hw]
        exact h2
    · rw [ringAdvance_ring]; exact hr

/-- An event was raised first, and at most n − 1 more ring writes have followed it. -/
structure LoggedBy (d e : Dev) (id arg n : Nat) : Prop where
  logged : Logged d e id arg
  usable : e.ringUsable = d.ringUsable
  moved : d.ringUsable = true → ∃ k, 1 ≤ k ∧ k ≤ n ∧ e.get .GLB_EVT_WR_wr 0 = (d.get .GLB_EVT_WR_wr 0 + k) % 2 ^ 32

theorem ringUsable_raise (d : Dev) (id arg : Nat) : (d.raise id arg).ringUsable = d.ringUsable :=
  Dev.bit_raise d id arg ⟨.GLB_READY_FN, 1, 1⟩ 0 (by decide)

theorem loggedBy_raise (d : Dev) (id arg : Nat) : LoggedBy d (d.raise id arg) id arg 2 := by
  refine ⟨logged_raise d id arg, ringUsable_raise d id arg, fun hu => ?_⟩
  unfold Dev.raise
  simp only [hu, if_true]
  exact raiseRec_wr d _

theorem LoggedBy.raise {d e : Dev} {id arg n : Nat} (h : LoggedBy d e id arg n) (hn : n + 2 ≤ 4000) (id' arg' : Nat) :
    LoggedBy d (e.raise id' arg') id arg (n + 2) := by
  obtain ⟨⟨r, h1, h2, h3, h4⟩, hu, hm⟩ := h
  refine ⟨⟨r, h1, h2, h3, ?_⟩, (ringUsable_raise e id' arg').trans hu, fun hd => ?_⟩
  · by_cases hd : d.ringUsable = true
    · have he : e.ringUsable = true := hu.trans hd
      obtain ⟨k, hk1, hk2, hk⟩ := hm hd
      simp only [hd, if_true] at h4 ⊢
      refine ⟨?_, h4.2⟩
      rw [← h4.1]
      unfold Dev.raise
      simp only [he, if_true]
      apply raiseRec_other
      · rw [hk]; omega
      · rw [hk]; omega
    · have he : ¬ e.ringUsable = true := by rw [hu]; exact hd
      simp only [hd] at h4 ⊢
      obtain ⟨l, hl⟩ := h4
      refine ⟨l ++ [e.evNow id' arg'], ?_⟩
      unfold Dev.raise
      simp only [he]
      show e.host.early ++ [e.evNow id' arg'] = _
      rw [hl]
      simp
  · have he : e.ringUsable = true := hu.trans hd
    obtain ⟨k, hk1, hk2, hk⟩ := hm hd
    obtain ⟨j, hj1, hj2, hj⟩ := raiseRec_wr e (e.evNow id' arg')
    refine ⟨k + j, by omega, by omega, ?_⟩
    unfold Dev.raise
    simp only [he, if_true]
    rw [hj, hk]
    omega

theorem LoggedBy.mono {d e : Dev} {id arg n m : Nat} (h : LoggedBy d e id arg n) (hm : n ≤ m) : LoggedBy d e id arg m :=
  ⟨h.logged, h.usable, fun hd => by
    obtain ⟨k, h1, h2, h3⟩ := h.moved hd
    exact ⟨k, h1, h2.trans hm, h3⟩⟩

/-- Updates that leave the host port and the two registers read keep what was logged. -/
theorem LoggedBy.same {d e c : Dev} {id arg n : Nat} (h : LoggedBy d e id arg n) (hh : c.host = e.host)
    (hw : c.word .GLB_EVT_WR 0 = e.word .GLB_EVT_WR 0) (hr : c.ringUsable = e.ringUsable) : LoggedBy d c id arg n :=
  ⟨h.logged.after hh, hr.trans h.usable, fun hd => by
    obtain ⟨k, h1, h2, h3⟩ := h.moved hd
    refine ⟨k, h1, h2, ?_⟩
    rw [← h3]
    simp only [Dev.get, show Fld.GLB_EVT_WR_wr.reg = .GLB_EVT_WR from rfl, hw]⟩

theorem ringUsable_set (d : Dev) (f : Fld) (i v : Nat) (h : f.reg ≠ .GLB_READY_FN) : (d.set f i v).ringUsable = d.ringUsable := by
  simp only [Dev.ringUsable, Dev.bit, Dev.get, Dev.word_set_reg d f 0 i v h.symm]

theorem LoggedBy.set {d e : Dev} {id arg n : Nat} (h : LoggedBy d e id arg n) (f : Fld) (i v : Nat)
    (hw : f.reg ≠ .GLB_EVT_WR) (hr : f.reg ≠ .GLB_READY_FN) : LoggedBy d (e.set f i v) id arg n :=
  h.same rfl (Dev.word_set_reg e f 0 i v hw.symm) (ringUsable_set e f i v hr)

/-- A ready bit outside GLB_READY_FN follows. -/
theorem LoggedBy.ready {d e : Dev} {id arg n : Nat} (h : LoggedBy d e id arg n) (hn : n + 2 ≤ 4000) (f : Fld) (i code : Nat) (b : Bool)
    (hw : f.reg ≠ .GLB_EVT_WR) (hr : f.reg ≠ .GLB_READY_FN) : LoggedBy d (e.ready f i code b) id arg (n + 2) := by
  unfold Dev.ready
  split
  · exact h.mono (by omega)
  · exact (h.set f i _ hw hr).raise hn _ _

/-- A bit of GLB_READY_FN that is not the event ring's follows. -/
theorem LoggedBy.readyFn {d e : Dev} {id arg n : Nat} (h : LoggedBy d e id arg n) (hn : n + 2 ≤ 4000) (k : Nat) (b : Bool)
    (hk : k ≠ 1) (hk2 : k < 32) : LoggedBy d (e.readyFn k b) id arg (n + 2) := by
  unfold Dev.readyFn Dev.ready
  split
  · exact h.mono (by omega)
  · apply LoggedBy.raise _ hn
    have hw : (e.setB ⟨.GLB_READY_FN, k, 1⟩ 0 b).word .GLB_EVT_WR 0 = e.word .GLB_EVT_WR 0 :=
      Dev.word_set_reg e ⟨.GLB_READY_FN, k, 1⟩ 0 0 _ (show Reg.GLB_EVT_WR ≠ Reg.GLB_READY_FN by decide)
    refine h.same rfl hw ?_
    simp only [Dev.ringUsable, Dev.bit]
    rw [Dev.setB, Dev.get_set_apart _ _ _ _ _ _ (by decide) (by decide)]
    simp only [Fld.apart, bne_self_eq_false, Bool.false_or, Bool.or_eq_true, decide_eq_true_eq]
    omega

end Sys2Proof.Machine
end

