-- ==== Sys2Proof/Laws/Field.lean ====
section
/-!
SUPPORT. Fields after the updates of Machine/Ops.lean: what was written reads back, what shares no bit with it stays.
-/
namespace Sys2Proof.Machine

theorem Dev.bit_set_same (d : Dev) (f : Fld) (i v : Nat) (h : f.fits = true) : (d.set f i v).bit f i = (v % 2 ^ f.w != 0) := by
  rw [Dev.bit, Dev.get_set_same _ _ _ _ h]

theorem Dev.bit_setB_same (d : Dev) (f : Fld) (i : Nat) (b : Bool) (h : f.fits = true) (hw : f.w = 1) :
    (d.setB f i b).bit f i = b := by
  rw [Dev.setB, Dev.bit_set_same _ _ _ _ h, hw]
  cases b <;> rfl

theorem Dev.bit_set_apart (d : Dev) (f g : Fld) (i j v : Nat) (hj : j < 2 ^ 20) (hi : i < 2 ^ 20) (h : f.apart g = true) :
    (d.set g j v).bit f i = d.bit f i := by
  rw [Dev.bit, Dev.get_set_apart _ _ _ _ _ _ hj hi h, Dev.bit]

theorem Dev.bit_set_reg (d : Dev) {f g : Fld} (i j v : Nat) (h : f.reg ≠ g.reg) : (d.set g j v).bit f i = d.bit f i := by
  rw [Dev.bit, Dev.get_set_reg _ _ _ _ h, Dev.bit]

theorem Dev.bit_set_idx (d : Dev) (f g : Fld) {i j : Nat} (v : Nat) (hj : j < 2 ^ 20) (hi : i < 2 ^ 20) (h : i ≠ j) :
    (d.set g j v).bit f i = d.bit f i := by
  rw [Dev.bit, Dev.get_set_idx _ _ _ _ hj hi h, Dev.bit]

theorem Dev.get_setB_apart (d : Dev) (f g : Fld) (i j : Nat) (b : Bool) (hj : j < 2 ^ 20) (hi : i < 2 ^ 20) (h : f.apart g = true) :
    (d.setB g j b).get f i = d.get f i := Dev.get_set_apart d f g i j _ hj hi h

theorem Dev.bit_setB_apart (d : Dev) (f g : Fld) (i j : Nat) (b : Bool) (hj : j < 2 ^ 20) (hi : i < 2 ^ 20) (h : f.apart g = true) :
    (d.setB g j b).bit f i = d.bit f i := Dev.bit_set_apart d f g i j _ hj hi h

theorem Dev.get_setB_same (d : Dev) (f : Fld) (i : Nat) (b : Bool) (h : f.fits = true) (hw : f.w = 1) :
    (d.setB f i b).get f i = if b then 1 else 0 := by
  rw [Dev.setB, Dev.get_set_same _ _ _ _ h, hw]
  cases b <;> rfl

theorem Dev.get_bump_same (d : Dev) (f : Fld) (i n : Nat) (h : f.fits = true) :
    (d.bump f i n).get f i = min (d.get f i + n) (2 ^ f.w - 1) := by
  rw [Dev.bump, Dev.get_set_same _ _ _ _ h]
  apply Nat.mod_eq_of_lt
  have : 0 < 2 ^ f.w := Nat.two_pow_pos _
  omega

theorem Dev.get_bump_apart (d : Dev) (f g : Fld) (i j n : Nat) (hj : j < 2 ^ 20) (hi : i < 2 ^ 20) (h : f.apart g = true) :
    (d.bump g j n).get f i = d.get f i := Dev.get_set_apart d f g i j _ hj hi h

theorem Dev.bit_bump_apart (d : Dev) (f g : Fld) (i j n : Nat) (hj : j < 2 ^ 20) (hi : i < 2 ^ 20) (h : f.apart g = true) :
    (d.bump g j n).bit f i = d.bit f i := Dev.bit_set_apart d f g i j _ hj hi h

theorem Dev.get_wrap_same (d : Dev) (f : Fld) (i n : Nat) (h : f.fits = true) :
    (d.wrap f i n).get f i = (d.get f i + n) % 2 ^ f.w := by
  rw [Dev.wrap, Dev.get_set_same _ _ _ _ h]

theorem Dev.get_wrap_apart (d : Dev) (f g : Fld) (i j n : Nat) (hj : j < 2 ^ 20) (hi : i < 2 ^ 20) (h : f.apart g = true) :
    (d.wrap g j n).get f i = d.get f i := Dev.get_set_apart d f g i j _ hj hi h

/-- A field whose registers are the same reads the same. -/
theorem Dev.get_of_regs {d e : Dev} (h : e.regs = d.regs) (f : Fld) (i : Nat) : e.get f i = d.get f i := by
  simp only [Dev.get, Dev.word, h]

theorem Dev.bit_of_regs {d e : Dev} (h : e.regs = d.regs) (f : Fld) (i : Nat) : e.bit f i = d.bit f i := by
  rw [Dev.bit, Dev.get_of_regs h, Dev.bit]

theorem Dev.word_of_regs {d e : Dev} (h : e.regs = d.regs) (r : Reg) (i : Nat) : e.word r i = d.word r i := by
  simp only [Dev.word, h]

/-- A field is less than its width allows. -/
theorem Dev.get_lt (d : Dev) (f : Fld) (i : Nat) : d.get f i < 2 ^ f.w := Nat.mod_lt _ (Nat.two_pow_pos _)

@[simp] theorem Dev.get_setChan (d : Dev) (n : Nat) (c : ChanSt) (f : Fld) (i : Nat) : (d.setChan n c).get f i = d.get f i := rfl
@[simp] theorem Dev.bit_setChan (d : Dev) (n : Nat) (c : ChanSt) (f : Fld) (i : Nat) : (d.setChan n c).bit f i = d.bit f i := rfl
@[simp] theorem Dev.get_setServer (d : Dev) (n : Nat) (c : ServerSt) (f : Fld) (i : Nat) : (d.setServer n c).get f i = d.get f i := rfl
@[simp] theorem Dev.bit_setServer (d : Dev) (n : Nat) (c : ServerSt) (f : Fld) (i : Nat) : (d.setServer n c).bit f i = d.bit f i := rfl
@[simp] theorem Dev.get_setTrib (d : Dev) (n : Nat) (c : TribSt) (f : Fld) (i : Nat) : (d.setTrib n c).get f i = d.get f i := rfl
@[simp] theorem Dev.bit_setTrib (d : Dev) (n : Nat) (c : TribSt) (f : Fld) (i : Nat) : (d.setTrib n c).bit f i = d.bit f i := rfl
@[simp] theorem Dev.get_setFx (d : Dev) (n : Nat) (c : FlexeSt) (f : Fld) (i : Nat) : (d.setFx n c).get f i = d.get f i := rfl
@[simp] theorem Dev.bit_setFx (d : Dev) (n : Nat) (c : FlexeSt) (f : Fld) (i : Nat) : (d.setFx n c).bit f i = d.bit f i := rfl
@[simp] theorem Dev.get_setOh (d : Dev) (n : Nat) (c : OhSt) (f : Fld) (i : Nat) : (d.setOh n c).get f i = d.get f i := rfl
@[simp] theorem Dev.bit_setOh (d : Dev) (n : Nat) (c : OhSt) (f : Fld) (i : Nat) : (d.setOh n c).bit f i = d.bit f i := rfl
@[simp] theorem Dev.get_setHeat (d : Dev) (n : Nat) (c : HeatSt) (f : Fld) (i : Nat) : (d.setHeat n c).get f i = d.get f i := rfl
@[simp] theorem Dev.bit_setHeat (d : Dev) (n : Nat) (c : HeatSt) (f : Fld) (i : Nat) : (d.setHeat n c).bit f i = d.bit f i := rfl
@[simp] theorem Dev.get_setCtx (d : Dev) (n : Nat) (c : CtxSt) (f : Fld) (i : Nat) : (d.setCtx n c).get f i = d.get f i := rfl
@[simp] theorem Dev.bit_setCtx (d : Dev) (n : Nat) (c : CtxSt) (f : Fld) (i : Nat) : (d.setCtx n c).bit f i = d.bit f i := rfl
@[simp] theorem Dev.get_setGroup (d : Dev) (n : Nat) (c : GroupSt) (f : Fld) (i : Nat) : (d.setGroup n c).get f i = d.get f i := rfl
@[simp] theorem Dev.bit_setGroup (d : Dev) (n : Nat) (c : GroupSt) (f : Fld) (i : Nat) : (d.setGroup n c).bit f i = d.bit f i := rfl
@[simp] theorem Dev.get_setCap (d : Dev) (n : Nat) (c : CapSt) (f : Fld) (i : Nat) : (d.setCap n c).get f i = d.get f i := rfl
@[simp] theorem Dev.bit_setCap (d : Dev) (n : Nat) (c : CapSt) (f : Fld) (i : Nat) : (d.setCap n c).bit f i = d.bit f i := rfl

end Sys2Proof.Machine
end

