-- ==== Sys2Proof/Laws/Pool.lean ====
section
/-!
SUPPORT. The laws of the two byte memories, the pool's data bytes and the flash: a read after a write, and that every
memory operation keeps the canonical form.
-/
namespace Sys2Proof.Machine

/-! ### Reading as a search -/

theorem memRead_eq (m : List Host.Cell) (a : Nat) : memRead m a = ((m.find? (·.1 == a)).map (·.2)).getD 0 := by
  induction m with
  | nil => rfl
  | cons e r ih =>
    obtain ⟨i, b⟩ := e
    by_cases h : i = a <;> simp [memRead, h, ih]

/-- The canonical form as order and absence of listed zeros. -/
theorem memWf_iff (m : List Host.Cell) : memWf m = true ↔ m.Pairwise (·.1 < ·.1) ∧ ∀ e ∈ m, e.2 ≠ 0 := by
  induction m with
  | nil => simp [memWf]
  | cons e r ih =>
    obtain ⟨i, b⟩ := e
    cases r with
    | nil => simp [memWf]
    | cons f r =>
      obtain ⟨j, c⟩ := f
      simp only [memWf, Bool.and_eq_true, bne_iff_ne, decide_eq_true_eq, ih, List.pairwise_cons, List.mem_cons,
        forall_eq_or_imp]
      constructor
      · rintro ⟨⟨hb, hij⟩, ⟨hj, hp⟩, hc, hz⟩
        exact ⟨⟨⟨hij, fun x hx => Nat.lt_trans hij (hj x hx)⟩, hj, hp⟩, hb, hc, hz⟩
      · rintro ⟨⟨⟨hij, -⟩, hj, hp⟩, hb, hc, hz⟩
        exact ⟨⟨hb, hij⟩, ⟨hj, hp⟩, hc, hz⟩

/-! ### One byte -/

theorem memWrite_mem (m : List Host.Cell) (a : Nat) (b : Byte) (e : Host.Cell) (h : e ∈ memWrite m a b) :
    e ∈ m ∨ e = (a, b) ∧ b ≠ 0 := by
  induction m with
  | nil => by_cases hb : b = 0 <;> simp_all [memWrite]
  | cons f r ih =>
    obtain ⟨i, c⟩ := f
    simp only [memWrite] at h
    split at h
    · split at h <;> simp_all
      tauto
    · split at h
      · split at h <;> simp_all
        tauto
      · simp only [List.mem_cons] at h ⊢
        tauto

theorem memWrite_wf (m : List Host.Cell) (a : Nat) (b : Byte) (h : memWf m = true) : memWf (memWrite m a b) = true := by
  rw [memWf_iff] at h ⊢
  obtain ⟨hp, hz⟩ := h
  refine ⟨?_, fun e he => (memWrite_mem m a b e he).elim (hz e) (fun x => x.1 ▸ x.2)⟩
  clear hz
  induction m with
  | nil =>
    simp only [memWrite]
    split <;> simp
  | cons f r ih =>
    obtain ⟨i, c⟩ := f
    have hp' := List.pairwise_cons.1 hp
    simp only [memWrite]
    split
    · split
      · exact hp
      · refine List.pairwise_cons.2 ⟨fun x hx => ?_, hp⟩
        rcases List.mem_cons.1 hx with rfl | hx
        · assumption
        · exact Nat.lt_trans (by assumption) (hp'.1 x hx)
    · split
      · split
        · exact hp'.2
        · subst_vars
          exact List.pairwise_cons.2 ⟨hp'.1, hp'.2⟩
      · refine List.pairwise_cons.2 ⟨fun x hx => ?_, ih hp'.2⟩
        rcases memWrite_mem r a b x hx with hx | ⟨rfl, -⟩
        · exact hp'.1 x hx
        · show i < a
          omega

theorem memRead_above (m : List Host.Cell) (a : Nat) (h : ∀ e ∈ m, a < e.1) : memRead m a = 0 := by
  induction m with
  | nil => rfl
  | cons e r ih =>
    have := h e (List.mem_cons_self ..)
    rw [memRead, if_neg (by omega), ih fun x hx => h x (List.mem_cons_of_mem _ hx)]

/-- A read after the write of one byte. -/
theorem memRead_memWrite (m : List Host.Cell) (a : Nat) (b : Byte) (x : Nat) (h : memWf m = true) :
    memRead (memWrite m a b) x = if x = a then b else memRead m x := by
  have hp := ((memWf_iff m).1 h).1
  clear h
  induction m with
  | nil =>
    by_cases hb : b = 0
    · subst hb; simp [memWrite, memRead]
    · rw [memWrite, if_neg hb]
      by_cases hx : x = a
      · simp [memRead, hx]
      · simp [memRead, hx, Ne.symm hx]
  | cons f r ih =>
    obtain ⟨i, c⟩ := f
    have hp' := List.pairwise_cons.1 hp
    have ih' := ih hp'.2
    simp only [memWrite]
    split
    · rename_i hai
      split
      · rename_i hb
        subst hb
        split
        · rename_i hx
          subst hx
          refine memRead_above _ _ fun e he => ?_
          rcases List.mem_cons.1 he with rfl | he
          · exact hai
          · exact Nat.lt_trans hai (hp'.1 e he)
        · rfl
      · by_cases hx : x = a
        · simp [memRead, hx]
        · simp [memRead, hx, Ne.symm hx]
    · split
      · rename_i hia
        subst hia
        split
        · rename_i hb
          subst hb
          by_cases hx : x = i
          · subst hx
            rw [if_pos rfl]
            exact memRead_above _ _ fun e he => hp'.1 e he
          · rw [if_neg hx, memRead, if_neg (Ne.symm hx)]
        · by_cases hx : x = i
          · simp [memRead, hx]
          · simp [memRead, hx, Ne.symm hx]
      · by_cases hix : i = x
        · subst hix
          have : i ≠ a := by assumption
          simp [memRead, this]
        · simp [memRead, hix, ih']

/-! ### A run of bytes -/

theorem find_key (p : Nat → Bool) (m : List Host.Cell) (x : Nat) :
    (m.filter (fun e => p e.1)).find? (·.1 == x) = if p x then m.find? (·.1 == x) else none := by
  rw [List.find?_filter]
  split
  · rename_i h
    congr 1
    funext e
    by_cases he : e.1 = x
    · simp [he, h]
    · simp [he]
  · rename_i h
    refine List.find?_eq_none.2 fun e _ => ?_
    by_cases he : e.1 = x
    · simp [he, h]
    · simp [he]

theorem find_lt (m : List Host.Cell) (a x : Nat) :
    (m.filter (·.1 < a)).find? (·.1 == x) = if x < a then m.find? (·.1 == x) else none := by
  simpa using find_key (fun k => decide (k < a)) m x

theorem find_ge (m : List Host.Cell) (a x : Nat) :
    (m.filter (a ≤ ·.1)).find? (·.1 == x) = if a ≤ x then m.find? (·.1 == x) else none := by
  simpa using find_key (fun k => decide (a ≤ k)) m x

theorem run_mem (bs : List Byte) (a n : Nat) (e : Host.Cell)
    (h : e ∈ ((bs.zipIdx n).filter (·.1 != 0)).map (fun p => (a + p.2, p.1))) : a + n ≤ e.1 ∧ e.1 < a + n + bs.length ∧ e.2 ≠ 0 := by
  simp only [List.mem_map, List.mem_filter, bne_iff_ne, ne_eq] at h
  obtain ⟨p, ⟨hp, hz⟩, rfl⟩ := h
  have h1 := List.le_snd_of_mem_zipIdx hp
  have h2 := List.snd_lt_add_of_mem_zipIdx hp
  exact ⟨by show a + n ≤ a + p.2; omega, by show a + p.2 < a + n + bs.length; omega, hz⟩

theorem run_read (bs : List Byte) (a n x : Nat) :
    memRead (((bs.zipIdx n).filter (·.1 != 0)).map (fun p => (a + p.2, p.1))) x =
      if a + n ≤ x then bs.getD (x - a - n) 0 else 0 := by
  induction bs generalizing n with
  | nil => simp [memRead]
  | cons b r ih =>
    rw [List.zipIdx_cons, List.filter_cons]
    have step : ∀ v, (if a + n = x then b else if a + (n + 1) ≤ x then r.getD (x - a - (n + 1)) 0 else v) =
        if a + n ≤ x then (b :: r).getD (x - a - n) 0 else v := by
      intro v
      by_cases h1 : a + n = x
      · have h0 : x - a - n = 0 := by omega
        simp [h1, h0]
      · by_cases h2 : a + n ≤ x
        · obtain ⟨k, hk⟩ : ∃ k, x - a - n = k + 1 := ⟨x - a - n - 1, by omega⟩
          have h4 : x - a - (n + 1) = k := by omega
          have h5 : a + (n + 1) ≤ x := by omega
          simp [h1, h2, h5, hk, h4]
        · have h5 : ¬ a + (n + 1) ≤ x := by omega
          simp [h1, h2, h5]
    by_cases hb : b = 0
    · subst hb
      simp only [bne_self_eq_false, Bool.false_eq_true, if_false, ih, ← step]
      by_cases h1 : a + n = x
      · have h5 : ¬ a + (n + 1) ≤ x := by omega
        simp [h1, h5]
      · simp [h1]
    · have : (b != 0) = true := by simpa using hb
      simp only [this, if_true, List.map_cons, memRead, ih, ← step]

/-- The bytes written are read back, every other byte is as it was. -/
theorem memRead_memWriteAll (m : List Host.Cell) (a : Nat) (bs : List Byte) (x : Nat) :
    memRead (memWriteAll m a bs) x = if a ≤ x ∧ x < a + bs.length then byteAt bs (x - a) else memRead m x := by
  have hrun := run_read bs a 0 x
  rw [memRead_eq] at hrun
  rw [memRead_eq, memWriteAll, List.find?_append, List.find?_append, find_lt, find_ge, memRead_eq]
  by_cases h1 : x < a
  · have h2 : ¬ a ≤ x := by omega
    have h3 : ((bs.zipIdx.filter (·.1 != 0)).map (fun p => (a + p.2, p.1))).find? (·.1 == x) = none :=
      List.find?_eq_none.2 fun e he => by
        have := run_mem bs a 0 e he
        simp; omega
    have h4 : ¬ a + bs.length ≤ x := by omega
    rw [h3]
    simp [h1, h2, h4]
  · by_cases h5 : x < a + bs.length
    · have h2 : a ≤ x := by omega
      have h4 : ¬ a + bs.length ≤ x := by omega
      simp only [h1, if_false, Option.none_or, h4, Option.or_none, h2, h5, and_self, if_true]
      rw [show byteAt bs (x - a) = bs.getD (x - a) 0 from rfl]
      simpa [h2] using hrun
    · have h2 : a + bs.length ≤ x := by omega
      have h3 : ((bs.zipIdx.filter (·.1 != 0)).map (fun p => (a + p.2, p.1))).find? (·.1 == x) = none :=
        List.find?_eq_none.2 fun e he => by
          have := run_mem bs a 0 e he
          simp; omega
      rw [h3]
      simp [h1, h5, h2]

theorem memWriteAll_wf (m : List Host.Cell) (a : Nat) (bs : List Byte) (h : memWf m = true) :
    memWf (memWriteAll m a bs) = true := by
  rw [memWf_iff] at h ⊢
  obtain ⟨hp, hz⟩ := h
  have hrun : (((bs.zipIdx).filter (·.1 != 0)).map (fun p => (a + p.2, p.1))).Pairwise (fun x y : Host.Cell => x.1 < y.1) := by
    refine List.pairwise_map.2 (List.Pairwise.filter _ ?_)
    have := List.pairwise_lt_range (n := bs.length)
    have h2 : (bs.zipIdx.map (·.2)).Pairwise (· < ·) := by
      simpa [List.zipIdx_map_snd, List.range_eq_range'] using this
    exact (List.pairwise_map.1 h2).imp fun hlt => by simpa using hlt
  refine ⟨?_, fun e he => ?_⟩
  · rw [memWriteAll, List.pairwise_append, List.pairwise_append]
    refine ⟨⟨hp.filter _, hrun, fun x hx y hy => ?_⟩, hp.filter _, fun x hx y hy => ?_⟩
    · have := run_mem bs a 0 y hy
      have hx' := (List.mem_filter.1 hx).2
      simp only [decide_eq_true_eq] at hx'
      omega
    · have hy' := (List.mem_filter.1 hy).2
      simp only [decide_eq_true_eq] at hy'
      rcases List.mem_append.1 hx with hx | hx
      · have hx' := (List.mem_filter.1 hx).2
        simp only [decide_eq_true_eq] at hx'
        omega
      · have := run_mem bs a 0 x hx
        omega
  · rw [memWriteAll] at he
    rcases List.mem_append.1 he with he | he
    · rcases List.mem_append.1 he with he | he
      · exact hz e (List.mem_filter.1 he).1
      · exact (run_mem bs a 0 e he).2.2
    · exact hz e (List.mem_filter.1 he).1

/-! ### The memory operations -/

/-- A slice is the bytes one by one. -/
theorem byteAt_memSlice (m : List Host.Cell) (a n j : Nat) (h : j < n) : byteAt (memSlice m a n) j = memRead m (a + j) := by
  have h1 : byteAt (memSlice m a n) j = memRead (m.filter (fun e => a ≤ e.1 && e.1 < a + n)) (a + j) := by
    simp [byteAt, memSlice, List.getD_eq_getElem?_getD, h]
  rw [h1, memRead_eq, memRead_eq, List.find?_filter]
  congr 2
  apply congrFun
  congr 1
  funext e
  by_cases he : e.1 = a + j
  · simp [he, h]
  · simp [he]

/-- Writing a cell keeps the canonical form. -/
theorem writeCell_wf (p : Pool) (c : Nat) (data : List Byte) (next : Nat) (seq : BitVec 16) (h : Memory.wf p = true) :
    Memory.wf (p.writeCell c data next seq) = true :=
  memWriteAll_wf _ _ _ h

/-- Reading cells through the window counts and poisons; it changes no byte, and no base of the window. -/
theorem bar2Cell_mem (s : State) (c : Nat) (r : CellRead) (ws : List Nat → List Nat) :
    (s.bar2Cell c r ws).pool.mem = s.pool.mem := by
  have h1 : ∀ (s : State) k n, (s.countCe k n).pool.mem = s.pool.mem := by
    intro s k n; unfold State.countCe; split <;> rfl
  have h2 : ∀ (s : State) i p n, (s.poisonCell i p n).pool.mem = s.pool.mem := by
    intro s i p n; unfold State.poisonCell; split <;> rfl
  unfold State.bar2Cell
  split
  · rfl
  · rw [h2, h1]

theorem bar2Cells_mem (f : Nat × Nat → CellRead) (g : Nat × Nat → List Nat → List Nat) (l : List (Nat × Nat)) (s : State) :
    (l.foldl (fun s c => s.bar2Cell c.1 (f c) (g c)) s).pool.mem = s.pool.mem := by
  induction l generalizing s with
  | nil => rfl
  | cons c l ih => exact (ih _).trans (bar2Cell_mem ..)

/-- Bytes put one by one, where p admits them, keep the canonical form. -/
theorem memWrites_wf (p : Nat → Bool) (a : Nat → Nat) (b : Nat → Byte) (l : List Nat) (m : List Host.Cell) (h : memWf m = true) :
    memWf (l.foldl (fun m j => if p j then m else memWrite m (a j) (b j)) m) = true := by
  induction l generalizing m with
  | nil => exact h
  | cons j l ih =>
    refine ih _ ?_
    dsimp only
    split
    · exact h
    · exact memWrite_wf _ _ _ h

/-- A BAR2 write keeps the canonical form. -/
theorem bar2Write_wf (s : State) (off : Nat) (data : List Byte) (reads : List CellRead) (h : Safe s) :
    Safe (s.bar2Write off data reads) := by
  unfold State.bar2Write
  split
  · exact h
  split
  · exact h
  split
  · exact h
  · dsimp only [Safe]
    refine memWrites_wf _ _ _ _ _ ?_
    rw [bar2Cells_mem (fun c => reads.getD c.2 cleanRead)
      (fun c => wordsInPart (s.dev.bar2Addr (off + 0)) (s.dev.bar2Addr (off + 0) + data.length) c.1)]
    exact h

/-- Links of a free list are headers, no bytes. -/
theorem linkFree_mem (p : Pool) (k : Nat) : (p.linkFree k).mem = p.mem := by
  unfold Pool.linkFree
  have key : ∀ (l : List (Nat × Nat)) (p : Pool),
      (l.foldl (fun p e => p.setHdr e.1 { p.hdr e.1 with next := e.2 }) p).mem = p.mem := by
    intro l
    induction l with
    | nil => intro p; rfl
    | cons e l ih => intro p; exact (ih _).trans rfl
  exact key _ p

/-- Returned cells keep their bytes. -/
theorem giveBack_mem (p : Pool) (l : List Nat) : (p.giveBack l).mem = p.mem := by
  unfold Pool.giveBack
  induction l generalizing p with
  | nil => rfl
  | cons c l ih =>
    refine (ih _).trans ?_
    unfold Pool.giveOne
    split <;> rfl

/-- Rewriting a free cell with zero data keeps the canonical form. -/
theorem scrubFree_wf (s : State) (ptr ue : Nat) (h : Safe s) : Safe (s.scrubFree ptr ue) := by
  unfold State.scrubFree
  dsimp only
  split
  · exact (congrArg memWf (linkFree_mem _ _)).trans h
  · exact memWriteAll_wf _ _ _ h

/-- After reset no byte of the pool is listed. -/
theorem reset_wf : Memory.wf State.reset.pool = true := rfl

/-! ### The flash -/

/-- The canonical form of the flash as order and absence of listed erased bytes. -/
theorem flashWf_iff (m : List Host.Cell) : flashWf m = true ↔ m.Pairwise (·.1 < ·.1) ∧ ∀ e ∈ m, e.2 ≠ 0xFF := by
  induction m with
  | nil => simp [flashWf]
  | cons e r ih =>
    obtain ⟨i, b⟩ := e
    cases r with
    | nil => simp [flashWf]
    | cons f r =>
      obtain ⟨j, c⟩ := f
      simp only [flashWf, Bool.and_eq_true, bne_iff_ne, decide_eq_true_eq, ih, List.pairwise_cons, List.mem_cons,
        forall_eq_or_imp]
      constructor
      · rintro ⟨⟨hb, hij⟩, ⟨hj, hp⟩, hc, hz⟩
        exact ⟨⟨⟨hij, fun x hx => Nat.lt_trans hij (hj x hx)⟩, hj, hp⟩, hb, hc, hz⟩
      · rintro ⟨⟨⟨hij, -⟩, hj, hp⟩, hb, hc, hz⟩
        exact ⟨⟨hb, hij⟩, ⟨hj, hp⟩, hc, hz⟩

theorem flashPut_mem (m : List Host.Cell) (a : Nat) (b : Byte) (e : Host.Cell) (h : e ∈ flashPut m a b) :
    e ∈ m ∨ e = (a, b) ∧ b ≠ 0xFF := by
  induction m with
  | nil => by_cases hb : b = 0xFF <;> simp_all [flashPut]
  | cons f r ih =>
    obtain ⟨i, c⟩ := f
    simp only [flashPut] at h
    split at h
    · split at h <;> simp_all
      tauto
    · split at h
      · split at h <;> simp_all
        tauto
      · simp only [List.mem_cons] at h ⊢
        tauto

/-- Putting a byte into the flash keeps its canonical form. -/
theorem flashPut_wf (m : List Host.Cell) (a : Nat) (b : Byte) (h : flashWf m = true) : flashWf (flashPut m a b) = true := by
  rw [flashWf_iff] at h ⊢
  obtain ⟨hp, hz⟩ := h
  refine ⟨?_, fun e he => (flashPut_mem m a b e he).elim (hz e) (fun x => x.1 ▸ x.2)⟩
  clear hz
  induction m with
  | nil =>
    simp only [flashPut]
    split <;> simp
  | cons f r ih =>
    obtain ⟨i, c⟩ := f
    have hp' := List.pairwise_cons.1 hp
    simp only [flashPut]
    split
    · split
      · exact hp
      · refine List.pairwise_cons.2 ⟨fun x hx => ?_, hp⟩
        rcases List.mem_cons.1 hx with rfl | hx
        · assumption
        · exact Nat.lt_trans (by assumption) (hp'.1 x hx)
    · split
      · split
        · exact hp'.2
        · subst_vars
          exact List.pairwise_cons.2 ⟨hp'.1, hp'.2⟩
      · refine List.pairwise_cons.2 ⟨fun x hx => ?_, ih hp'.2⟩
        rcases flashPut_mem r a b x hx with hx | ⟨rfl, -⟩
        · exact hp'.1 x hx
        · show i < a
          omega

end Sys2Proof.Machine
end

