-- ==== Sys2Proof/WellFormed.lean ====
section
/-!
DEFINITION. Which commands the outside world can form: list lengths and ranges the formats fix.
-/
namespace Sys2Proof

/-- Six pattern bytes (R54), or none where a FlexO marker is missing (R67). -/
def patWf (p : List Byte) : Bool := p.length == 6 || p.length == 0

/-- What overhead extraction delivers: the pattern bytes, the 64 snapshot bytes of R73, the 64 overhead bytes (R96), and no
frame or a whole ODU frame (R221). -/
def FrameRx.wf (r : FrameRx) : Bool :=
  patWf r.pat && r.bytes.length == 64 && r.oh.length == 64 && (r.frame.length == 0 || r.frame.length == 15296)

/-- A cell read names data words 0–55, each once at most (R187). -/
def CellRead.wf (r : CellRead) : Bool := r.uncorr.all (· < 56) && r.uncorr.length ≤ 56

/-- A matrix request has 1 to 16 beats of 32 bytes, starts on a beat and crosses no 512-byte boundary (R292). -/
def MxReq.wf (r : MxReq) : Bool :=
  decide (1 ≤ r.beats ∧ r.addr.toNat % 32 = 0 ∧ r.addr.toNat % 512 + 32 * r.beats ≤ 512)

/-- A unit identifier names a unit of its class (R339). -/
def UnitId.wf (u : UnitId) : Bool :=
  u.idx < (match u.cls with
    | .channel => 192 | .bond => 192 | .trib => 3072 | .pgroup => 2048 | .fctx => 768
    | .queue => 4096 | .cslot => 64 | .recorder => 1 | .pairagent => 1)

/-- Each check of a command's operands. -/
def Instr.wf : Instr → Bool
  | .fecCodeword _ e _ => e.length ≤ 8
  | .frameTick _ r => r.wf
  | .patternMatch _ _ p _ => patWf p
  | .candidateCheck _ _ p _ _ _ => patWf p
  | .tribFrameTick _ r => r.wf && r.frame.length == 15296
  | .tapAdapt _ m => m.all (·.1 < 32)
  | .flexoIdAccept _ _ p => p.length == 8
  | .filterInputSample _ l n c a => [l, n, c, a].all (fun e => decide (-(2 ^ 31) ≤ e ∧ e < 2 ^ 31))
  | .push _ d => d.length == 448
  | .pop _ r => r.wf
  | .popResume _ r => r.wf
  | .hostPop _ r => r.wf
  | .scrubCell r _ => r.wf
  | .scanStop _ _ _ r _ => r.all (·.wf)
  | .scanJobEnd _ _ r _ => r.all (·.wf)
  | .bar2Read _ n r => decide (1 ≤ n ∧ n ≤ 512) && r.all (·.wf)
  | .recordStage r => r.all (·.wf)
  | .pageWrite r => r.all (·.wf)
  | .segmentCommit r => r.all (·.wf)
  | .bar2Write _ d rs => decide (1 ≤ d.length ∧ d.length ≤ 512) && rs.all CellRead.wf
  | .matrixRequest _ r => r.wf
  | .recorderDiscovery f => f.length == 4
  | .siteTrainingDone _ _ _ n => decide (n.toNat ≤ 4)
  | .tapDisturb i => i.disturbs
  | .tapRelease i => !i.disturbs
  | .thermalSample t => t.length == 16
  | .batonHeaderReceived b => b.length == 64
  | .epochReceived b => b.length ≤ 1098872
  | .snapReceived b => b.length ≤ 1098872
  | .ackReceived b => b.length ≤ 1098872
  | .pacerFrameReceived b => b.length == 16
  | .readComplete b _ => b.all (·.length == 4096)
  | .stop u => u.wf
  | .commit u => u.wf
  | .start u => u.wf
  | .unitStopped u => u.wf
  | .unitRun u => u.wf
  | _ => true

end Sys2Proof
end

