-- ==== Sys2Proof/Tests/Slice0.lean ====
section
/-! SUPPORT. Tests of the model: the checks of WellFormed refuse an ill-formed command each, a few values computed by hand
from the rules, and, for every statement with hypotheses, a state and operands that meet them together
(test_hyps_<Name>, one conjunct per clause). -/
namespace Sys2Proof.Tests
open Sys2Proof Sys2Proof.Machine

set_option Elab.async false

/-- The reset state with the fields l (field, index, value) set, then changed by f; its pool is p. -/
def mk (l : List (Fld × Nat × Nat)) (f : Dev → Dev := id) (p : Pool := .init) : State :=
  { State.reset with dev := f (l.foldl (fun d x => d.set x.1 x.2.1 x.2.2) { State.reset.dev with ticks := 10 ^ 12 }), pool := p }

/-! ### Ill-formed commands, one for each check of WellFormed -/

/-- What an extraction point delivers, with the given numbers of pattern, snapshot and overhead bytes. -/
def rxOf (p a b : Nat) : FrameRx := ⟨List.replicate p 0, 0, false, List.replicate a 0, List.replicate b 0, false, [], []⟩

theorem test_wf_frames :
    (Instr.frameTick 0 (rxOf 6 63 64)).wf = false ∧ (Instr.tribFrameTick 0 (rxOf 6 64 63)).wf = false ∧
      (Instr.frameTick 0 (rxOf 5 64 64)).wf = false ∧ (Instr.patternMatch 0 0 [0] 0).wf = false ∧
      (Instr.candidateCheck 0 0 [0] 0 0 0).wf = false ∧ (Instr.frameTick 0 (rxOf 6 64 64)).wf = true := by
  decide +kernel

theorem test_wf_lists :
    (Instr.fecCodeword 0 (List.replicate 9 0) 0).wf = false ∧ (Instr.tapAdapt 0 [(32, true)]).wf = false ∧
      (Instr.flexoIdAccept 0 0 []).wf = false ∧ (Instr.push 0 (List.replicate 449 0)).wf = false ∧
      (Instr.bar2Read 0 513 []).wf = false ∧ (Instr.bar2Read 0 4 [⟨0, [56], false⟩]).wf = false ∧ (Instr.bar2Write 0 [] []).wf = false ∧
      (Instr.recorderDiscovery []).wf = false ∧ (Instr.thermalSample [0]).wf = false ∧
      (Instr.readComplete [[0]] 0).wf = false ∧ (Instr.batonHeaderReceived [0]).wf = false ∧
      (Instr.pacerFrameReceived []).wf = false := by decide +kernel

/-- A baton message is at most header, five full sections and trailer (R248). -/
theorem test_wf_messages (b : List Byte) (h : b.length = 1098873) :
    (Instr.epochReceived b).wf = false ∧ (Instr.snapReceived b).wf = false ∧ (Instr.ackReceived b).wf = false := by
  simp [Instr.wf, h]

theorem test_wf_values :
    (Instr.filterInputSample 0 0 (2 ^ 31) 0 0).wf = false ∧ (Instr.siteTrainingDone 0 .trained false 5).wf = false ∧
      (Instr.matrixRequest 0 ⟨0, false, 17, 0, true⟩).wf = false ∧
      (Instr.filterInputSample 0 (-(2 ^ 31)) 0 0 0).wf = true := by decide +kernel

theorem test_wf_cell_reads :
    (Instr.pop 0 ⟨0, [56], false⟩).wf = false ∧ (Instr.popResume 0 ⟨0, [56], false⟩).wf = false ∧
      (Instr.hostPop 0 ⟨0, [56], false⟩).wf = false ∧ (Instr.scrubCell ⟨0, [56], false⟩ false).wf = false ∧
      (Instr.recordStage [⟨0, [56], false⟩]).wf = false ∧ (Instr.pageWrite [⟨0, [56], false⟩]).wf = false ∧
      (Instr.segmentCommit [⟨0, [56], false⟩]).wf = false ∧ (Instr.scanJobEnd [] 0 [⟨0, [56], false⟩] []).wf = false ∧
      (Instr.scanStop 0 [] 0 [⟨0, [56], false⟩] []).wf = false ∧
      (Instr.pop 0 ⟨0, [55], false⟩).wf = true := by decide +kernel

theorem test_wf_units :
    (Instr.stop ⟨.channel, 192⟩).wf = false ∧ (Instr.commit ⟨.trib, 3072⟩).wf = false ∧
      (Instr.start ⟨.cslot, 64⟩).wf = false ∧ (Instr.unitStopped ⟨.recorder, 1⟩).wf = false ∧
      (Instr.unitRun ⟨.pairagent, 1⟩).wf = false ∧ (Instr.stop ⟨.queue, 4095⟩).wf = true := by decide +kernel

/-- No row of the table has bits (log entry 12). -/
theorem test_no_word_spells_a_command : decodeTableWord 16 0 = none ∧ decodeTableWord 32 0xFFFFFFFF = none := by decide

/-! ### Values worked out in the specification -/

/-- The nine ASCII bytes of R268's check values. -/
def digits : List Byte := [0x31, 0x32, 0x33, 0x34, 0x35, 0x36, 0x37, 0x38, 0x39]

/-- The check value of preset p. -/
def checkValue (p : Nat) : Option Nat := (crcPreset p).map (fun c => crcResult c (crcBytes c c.init digits))

/-- The table of R268. -/
theorem test_crc_check_values :
    checkValue 1 = some 0xE3069283 ∧ checkValue 2 = some 0xCBF43926 ∧ checkValue 3 = some 0x29B1 ∧
      checkValue 4 = some 0x995DC9BBDF1939FA := by decide +kernel

/-- The example below R4: CH137 lies in Q34 and SL5. -/
theorem test_channel_137 : quadOf 137 = 34 ∧ sliceOf 137 = 5 := by decide

/-- The example below R100: frame periods of OTU4, ODU0 and STM-64 in ticks. -/
theorem test_frame_periods :
    framePeriodTicks (chanFrame 8) = 292 ∧ framePeriodTicks (kindFrame 1 0) = 24588 ∧
      framePeriodTicks (chanFrame 1) = 31250 := by decide +kernel

/-- The example of R103. -/
theorem test_heat_ring : ringDist 0 1 = 1 ∧ ringDist 0 15 = 1 ∧ ringDist 0 2 = 2 ∧ ringDist 0 14 = 2 := by decide

/-- The example of R125. -/
theorem test_eth_80_slots : (⟨6, 80⟩ : Kind).slots = 331 := by decide +kernel

/-- The example of R156: an ODU2e strobe is of class B, an ODUflex of s = 80 divides by 3 and is of class A. -/
theorem test_strobe_classes :
    strobeK (kindFrame 3 0) = 1 ∧ strobeClass (kindFrame 3 0) = 1 ∧ strobeK (kindFrame 5 80) = 3 ∧
      strobeClass (kindFrame 5 80) = 0 := by decide +kernel

/-- The example of R221: with w0 = 0 early frame 100,000 begins at position 3,414,285. -/
theorem test_hitless_position : ((State.reset.dev.group 0).pos 100000).toNat = 3414285 := by decide +kernel

/-- On an empty queue a step is a tick, from the first one (log entry 1). -/
theorem test_hyps_StepKeepsSafe : memWf (mk []).pool.mem = true ∧ step (mk []) = .next (mk []).tick :=
  ⟨by decide +kernel, rfl⟩

/-- A command that writes no pool memory completes. -/
theorem test_hyps_PoolBytesChangeOnlyByWrites :
    (match exec (.losSet 0) (mk []) with | .next _ => true | .fault _ => false | .refused _ => false) = true := by
  decide +kernel

/-- An idle engine of H1 takes the task that waits in H0, at distance 1. -/
theorem test_hyps_StealingStaysWithinStealMax_steal :
    (let s : State := mk [(.CH_MODE_mode, 0, 8), (.STR_HEAT_STAT_heat_state, 0, 4), (.STR_HEAT_STAT_heat_state, 1, 4)]
       (fun d => (((d.setUst .channel 0 0).setPd 80 true).setPd 81 true).setHeat 0
         { d.heat 0 with queue := [⟨0, [0, 1], false, false, 0, 0, 0, 100, [], 0, false, []⟩] })
     match exec (.taskTake 16) s with
     | .next t => decide ((t.dev.heat 0).queue ≠ (s.dev.heat 0).queue)
     | .fault _ => false
     | .refused _ => false) = true := by decide +kernel

/-! ### Hypotheses that are met -/

theorem test_hyps_LineUnitsAndQuadPlls :
   (let n : Chan := 0
    let s : State := mk [(.CH_MODE_mode, 0, 8)] (fun d => ((d.setUst .channel 0 3).setPd 80 true).setPd 0 true)
    let l := s.dev.leader n.val
    decide ((s.dev.lineUst l = 3) ∧ (s.dev.unitDomains l = true))) = true ∧
   (let q : Quad := 0
    let s : State := mk [] (fun d => d.setPd 0 true)
    decide ((s.dev.pdOn (domQuad q.val) = true) ∧ (s.dev.quadLocked q.val = false))) = true ∧
   (let q : Quad := 0
    let s : State := mk [(.CH_SDS_STAT_quad_pll_lock, 0, 1)]
    decide ((s.dev.quadLocked q.val = true))) = true := by decide +kernel

theorem test_hyps_ReceiverTransitions_1 :
   (let n : Chan := 0
    let s : State := mk [(.CH_SDS_STAT_adapt_state, 0, 1)]
    decide ((s.dev.rx n.val = rxCal) ∧ (s.dev.rxFor n.val (msTicks 1) = true))) = true ∧
   (let n : Chan := 0
    let s : State := mk [(.CH_SDS_STAT_adapt_state, 0, 2)]
    decide ((s.dev.rx n.val = rxAcquire) ∧ (s.dev.rxFor n.val (msTicks 1) = true))) = true ∧
   (let n : Chan := 0
    let s : State := mk [(.CH_SDS_STAT_adapt_state, 0, 2)]
    decide ((s.dev.rx n.val = rxAcquire) ∧ (s.dev.rxFor n.val (msTicks (if isNrz (s.dev.mode n.val) then 30 else 100)) = true))) = true ∧
   (let n : Chan := 0
    let s : State := mk [(.CH_SDS_STAT_adapt_state, 0, 3)]
    decide ((s.dev.rx n.val = rxTracking) ∧ (s.dev.bit .CH_SDS_STAT_los n.val = false))) = true ∧
   (let n : Chan := 0
    let s : State := mk [(.CH_SDS_STAT_adapt_state, 0, 4)]
    decide ((s.dev.rx n.val = rxHold) ∧ (s.dev.bit .CH_SDS_STAT_los n.val = false) ∧ (s.dev.losFor n.val (msTicks 1) = true))) = true := by decide +kernel

theorem test_hyps_ReceiverTransitions_2 :
   (let n : Chan := 0
    let s : State := mk [] (fun d => d.setChan 0 { d.chan 0 with rxAt := d.ticks, losAt := d.ticks })
    decide ((s.dev.rxFor n.val (msTicks 1) = false) ∧ (s.dev.losFor n.val (msTicks 1) = false))) = true := by decide +kernel

theorem test_hyps_TapsAndLossOfSignal_1 :
   (let n : Chan := 0
    let s : State := mk [(.CH_SDS_STAT_adapt_state, 0, 3)]
    decide ((s.dev.rx n.val = rxTracking))) = true ∧
   (let n : Chan := 0
    let s : State := mk [(.CH_SDS_STAT_adapt_state, 0, 2)]
    decide ((s.dev.rx n.val = rxAcquire))) = true ∧
   (let n : Chan := 0
    let s : State := mk []
    decide ((s.dev.rx n.val ≠ rxAcquire) ∧ (s.dev.rx n.val = rxTracking → s.dev.bit .CH_SDS_CTL_adapt_freeze n.val = true))) = true ∧
   (let n : Chan := 0
    let s : State := mk [(.CH_SDS_STAT_tx_on, 0, 1)]
    decide ((s.dev.bit .CH_SDS_STAT_los n.val = false) ∧ (s.dev.losFor n.val (usTicks 10) = true) ∧ (s.dev.bit .CH_SDS_STAT_tx_on n.val = true) ∧ (s.dev.sys.held = false))) = true ∧
   (let n : Chan := 0
    let s : State := mk [(.CH_SDS_STAT_tx_on, 0, 1), (.CH_SDS_STAT_los, 0, 1)]
    decide ((s.dev.bit .CH_SDS_STAT_los n.val = true) ∧ (s.dev.losFor n.val (usTicks 100) = true) ∧ (s.dev.bit .CH_SDS_STAT_tx_on n.val = true) ∧ (s.dev.sys.held = false))) = true := by decide +kernel

theorem test_hyps_TapsAndLossOfSignal_2 :
   (let n : Chan := 0
    let s : State := mk []
    decide ((s.dev.bit .CH_SDS_STAT_tx_on n.val = false ∨ s.dev.sys.held = true))) = true := by decide +kernel

theorem test_hyps_PcsLocksAndBondAlignment_1 :
   (let n : Chan := 0
    let s : State := mk [(.CH_MODE_mode, 0, 4), (.CH_PCS_STAT_lane_lock, 0, 1)]
    decide ((hasPcs (s.dev.mode n.val) = true) ∧ (s.dev.bit .CH_PCS_STAT_lane_lock n.val = true))) = true ∧
   (let n : Chan := 0
    let s : State := mk [(.CH_MODE_mode, 0, 0x10), (.CH_PCS_STAT_align_status, 0, 1)]
    decide ((s.dev.bit .CH_PCS_STAT_align_status n.val = true) ∧ (s.dev.mode n.val = 0x10 ∨ s.dev.mode n.val = 0x18))) = true ∧
   (let n : Chan := 0
    let w : PcsLock := .lane
    let s : State := mk [(.CH_MODE_mode, 0, 0x10), (.CH_PCS_STAT_align_status, 0, 1)]
    decide ((isBonded (s.dev.mode n.val) = false) ∧ (hasPcs (s.dev.mode n.val) = true) ∧ (match w with | .lane => s.dev.bit .CH_PCS_STAT_lane_lock n.val = false ∧ (hasAlign (s.dev.mode n.val) = true → s.dev.bit .CH_PCS_STAT_align_status n.val = true) | .align => hasAlign (s.dev.mode n.val) = true ∧ s.dev.bit .CH_PCS_STAT_align_status n.val = false ∧ s.dev.bit .CH_PCS_STAT_lane_lock n.val = true))) = true ∧
   (let n : Chan := 0
    let s : State := mk []
    decide ((hasPcs (s.dev.mode n.val) = false))) = true ∧
   (let n : Chan := 0
    let s : State := mk []
    decide ((hasPcs (s.dev.mode n.val) = false))) = true := by decide +kernel

theorem test_hyps_PcsLocksAndBondAlignment_2 :
   (let n : Chan := 0
    let on : Bool := true
    let s : State := mk [(.CH_MODE_mode, 0, 4)]
    decide ((isEther (s.dev.mode n.val) = true) ∧ (s.dev.bit .CH_PCS_STAT_hi_ber n.val ≠ on))) = true ∧
   (let n : Chan := 0
    let s : State := mk [(.CH_MODE_mode, 0, 17), (.CH_MODE_bond_size, 0, 1), (.CH_MODE_mode, 1, 17), (.CH_MODE_bond_size, 1, 1), (.CH_PCS_STAT_lane_lock, 0, 1), (.CH_PCS_STAT_lane_lock, 1, 1)]
    let l := s.dev.leader n.val
    decide ((isBonded (s.dev.mode l) = true) ∧ (s.dev.membersLocked l = true))) = true ∧
   (let n : Chan := 0
    let skew : BitVec 16 := deskewCap 17 + 1
    let s : State := mk [(.CH_MODE_mode, 0, 17), (.CH_MODE_bond_size, 0, 1), (.CH_BOND_STAT_bond_aligned, 0, 1)]
    let l := s.dev.leader n.val
    decide ((isBonded (s.dev.mode l) = true) ∧ (s.dev.bit .CH_BOND_STAT_bond_aligned l = true) ∧ (deskewCap (s.dev.mode l) < skew.toNat))) = true ∧
   (let n : Chan := 0
    let s : State := mk [(.CH_MODE_mode, 0, 17), (.CH_MODE_bond_size, 0, 1), (.CH_MODE_mode, 1, 17), (.CH_MODE_bond_size, 1, 1), (.CH_PCS_STAT_lane_lock, 0, 1), (.CH_BOND_STAT_bond_aligned, 0, 1)]
    let l := s.dev.leader n.val
    decide ((isBonded (s.dev.mode n.val) = true) ∧ (isBonded (s.dev.mode l) = true) ∧ (s.dev.bit .CH_PCS_STAT_lane_lock n.val = true) ∧ (s.dev.ringDepth + 2 ≤ 4096))) = true := by decide +kernel

theorem test_hyps_FecCounting_1 :
   (let n : Chan := 0
    let s : State := mk [(.CH_MODE_mode, 0, 8), (.CH_FEC_CTL_fec_mode, 0, 1), (.CH_ALN_STAT_aln_state, 0, 3), (.CH_SDS_STAT_adapt_state, 0, 3)]
    let l := s.dev.leader n.val
    decide ((s.dev.decoding l = true))) = true ∧
   (let n : Chan := 0
    let c : Instr := .fecSnap 0
    let s : State := mk [(.CH_MODE_mode, 0, 17), (.CH_MODE_bond_size, 0, 1), (.CH_MODE_mode, 1, 17), (.CH_MODE_bond_size, 1, 1)]
    decide ((c = .fecSnap n ∨ c = .fecSnapSecond n ∧ s.dev.bit .CH_FEC_CTL_snap_1s n.val = true) ∧ (s.dev.bit .CH_FEC_SNAP_snap_busy n.val = false) ∧ (n.val ∈ s.dev.members n.val))) = true ∧
   (let n : Chan := 0
    let s : State := mk [(.CH_FEC_SNAP_snap_busy, 0, 1)]
    decide ((s.dev.bit .CH_FEC_SNAP_snap_busy n.val = true) ∧ (s.dev.leader n.val = n.val → ∀ m ∈ s.dev.members n.val, s.dev.bit .CH_FEC_SNAP_snap_busy m = true))) = true ∧
   (let n : Chan := 0
    let m : Nat := 1
    let s : State := mk [(.CH_MODE_mode, 0, 17), (.CH_MODE_bond_size, 0, 1), (.CH_MODE_mode, 1, 17), (.CH_MODE_bond_size, 1, 1), (.CH_FEC_SNAP_snap_busy, 1, 1)]
    decide ((s.dev.leader n.val = n.val) ∧ (m ∈ s.dev.members n.val) ∧ (s.dev.bit .CH_FEC_SNAP_snap_busy m = true))) = true ∧
   (let n : Chan := 0
    let s : State := mk [(.CH_FEC_CTL_snap_1s, 0, 0)]
    decide ((s.dev.bit .CH_FEC_CTL_snap_1s n.val = false))) = true := by decide +kernel

theorem test_hyps_FecCounting_2 :
   (let n : Chan := 0
    let s : State := mk [(.CH_MODE_mode, 0, 8)] (fun d => { ((d.setUst .channel 0 0).setChan 0 { d.chan 0 with winValid := false }) with dtime := BitVec.ofNat 64 (5 * 10 ^ 9) })
    let l := s.dev.leader n.val
    decide ((s.dev.lineRun l = true) ∧ (s.dev.winOver l = true) ∧ (s.dev.chan l).winValid = false)) = true ∧
   (let n : Chan := 0
    let s : State := mk [(.CH_MODE_mode, 0, 8)] (fun d => { ((d.setUst .channel 0 0).setChan 0 { d.chan 0 with winValid := true, winBits := 10 ^ 9 }) with dtime := BitVec.ofNat 64 (5 * 10 ^ 9) })
    let l := s.dev.leader n.val
    let c := s.dev.chan l
    let bits := laneKbps (s.dev.mode l) * s.dev.groupSize l * s.dev.winLen l c.winAt / 10 ^ 6
    decide ((s.dev.lineRun l = true) ∧ (s.dev.winOver l = true) ∧ (c.winValid = true) ∧ (s.dev.get .CH_FEC_DEGTHR_set_m l * bits < c.winBits * 10 ^ s.dev.get .CH_FEC_DEGTHR_set_e l))) = true ∧
   (let n : Chan := 0
    let s : State := mk [(.CH_MODE_mode, 0, 8)] (fun d => { ((d.setUst .channel 0 0).setChan 0 { d.chan 0 with winValid := true, winBits := 0 }) with dtime := BitVec.ofNat 64 (5 * 10 ^ 9) })
    let l := s.dev.leader n.val
    let c := s.dev.chan l
    let bits := laneKbps (s.dev.mode l) * s.dev.groupSize l * s.dev.winLen l c.winAt / 10 ^ 6
    decide ((s.dev.lineRun l = true) ∧ (s.dev.winOver l = true) ∧ (c.winValid = true) ∧ (¬ s.dev.get .CH_FEC_DEGTHR_set_m l * bits < c.winBits * 10 ^ s.dev.get .CH_FEC_DEGTHR_set_e l) ∧ (c.winBits * 10 ^ s.dev.get .CH_FEC_DEGTHR_clr_e l < s.dev.get .CH_FEC_DEGTHR_clr_m l * bits))) = true ∧
   (let n : Chan := 0
    let s : State := mk [(.CH_MODE_mode, 0, 8), (.CH_FEC_DEGTHR_set_m, 0, 9), (.CH_FEC_DEGTHR_set_e, 0, 0), (.CH_FEC_DEGTHR_clr_m, 0, 0)] (fun d => { ((d.setUst .channel 0 0).setChan 0 { d.chan 0 with winValid := true, winBits := 0 }) with dtime := BitVec.ofNat 64 (5 * 10 ^ 9) })
    let l := s.dev.leader n.val
    let c := s.dev.chan l
    let bits := laneKbps (s.dev.mode l) * s.dev.groupSize l * s.dev.winLen l c.winAt / 10 ^ 6
    decide ((s.dev.lineRun l = true) ∧ (s.dev.winOver l = true) ∧ (c.winValid = true) ∧ (¬ s.dev.get .CH_FEC_DEGTHR_set_m l * bits < c.winBits * 10 ^ s.dev.get .CH_FEC_DEGTHR_set_e l) ∧ (¬ c.winBits * 10 ^ s.dev.get .CH_FEC_DEGTHR_clr_e l < s.dev.get .CH_FEC_DEGTHR_clr_m l * bits))) = true ∧
   (let n : Chan := 0
    let s : State := mk []
    decide ((s.dev.winOver (s.dev.leader n.val) = false))) = true := by decide +kernel

theorem test_hyps_FrameTickOfTheAligner :
   (let n : Chan := 0
    let s : State := mk [(.CH_ALN_STAT_aln_state, 0, 3)]
    let l := s.dev.leader n.val
    decide ((s.dev.alnState l = 3))) = true ∧
   (let n : Chan := 0
    let s : State := mk [(.CH_ALN_STAT_aln_state, 0, 2)] (fun d => d.setAln 0 { d.aln 0 with tieLeft := 2 })
    let l := s.dev.leader n.val
    decide ((s.dev.alnState l = 1 ∨ s.dev.alnState l = 2))) = true ∧
   (let n : Chan := 0
    let s : State := mk []
    decide ((s.dev.alnState (s.dev.leader n.val) = 0))) = true := by decide +kernel

theorem test_hyps_Candidates_1 :
   (let n : Chan := 0
    let pos : BitVec 21 := 17
    let pat : List Byte := [0xF6, 0xF6, 0xF6, 0x28, 0x28, 0x28]
    let s : State := mk [(.CH_MODE_mode, 0, 8), (.CH_ALN_STAT_aln_state, 0, 1), (.CH_SDS_STAT_adapt_state, 0, 3)]
    let l := s.dev.leader n.val
    let a := s.dev.aln l
    let p := pos.toNat % framePeriod (s.dev.mode l)
    decide ((s.dev.alnState l ≠ 0) ∧ (s.dev.noData l = false) ∧ (s.dev.patErr l pat = 0) ∧ (isFlexO (s.dev.mode l) = false) ∧ (a.live.all (fun e => e.2.pos != p) = true) ∧ (List.range 4).any (fun k => (a.slot k).isNone) = true)) = true ∧
   (let n : Chan := 0
    let pos : BitVec 21 := 17
    let pat : List Byte := [0xF6, 0xF6, 0xF6, 0x28, 0x28, 0x28]
    let s : State := mk [(.CH_MODE_mode, 0, 8), (.CH_ALN_STAT_aln_state, 0, 3), (.CH_SDS_STAT_adapt_state, 0, 3)] (fun d => d.setAln 0 { d.aln 0 with slots := [some ⟨5, 2, 7, false, false, true, 0, true, 0, true, false⟩, some ⟨6, 1, 7, false, false, false, 9, true, 0, true, false⟩, some ⟨7, 1, 7, false, false, false, 8, true, 0, true, false⟩, some ⟨8, 2, 7, false, false, false, 0, true, 0, true, false⟩] })
    let k : Nat := 2
    let v : CandSlot := ⟨7, 1, 7, false, false, false, 8, true, 0, true, false⟩
    let l := s.dev.leader n.val
    let a := s.dev.aln l
    let p := pos.toNat % framePeriod (s.dev.mode l)
    decide ((s.dev.alnState l ≠ 0) ∧ (s.dev.noData l = false) ∧ (s.dev.patErr l pat = 0) ∧ (isFlexO (s.dev.mode l) = false) ∧ (a.live.all (fun e => e.2.pos != p) = true) ∧ (List.range 4).any (fun k => (a.slot k).isNone) = false ∧ (k < 4) ∧ (a.slot k = some v) ∧ (v.held = false) ∧ (v.contender = false) ∧ (v.run = 1) ∧ (a.live.all (fun e => e.1 == k || e.2.held || e.2.contender || e.2.run != 1 || decide (v.opened.toNat < e.2.opened.toNat)) = true))) = true ∧
   (let n : Chan := 0
    let pos : BitVec 21 := 17
    let pat : List Byte := [0xF6, 0xF6, 0xF6, 0x28, 0x28, 0x28]
    let s : State := mk [(.CH_MODE_mode, 0, 8), (.CH_ALN_STAT_aln_state, 0, 3), (.CH_SDS_STAT_adapt_state, 0, 3)] (fun d => d.setAln 0 { d.aln 0 with slots := [some ⟨5, 2, 7, false, false, true, 0, true, 0, true, false⟩, some ⟨6, 4, 7, false, false, false, 9, true, 0, true, false⟩, some ⟨7, 3, 7, false, false, false, 8, true, 0, true, false⟩, some ⟨8, 2, 7, false, false, false, 0, true, 0, true, false⟩] })
    let l := s.dev.leader n.val
    let a := s.dev.aln l
    let p := pos.toNat % framePeriod (s.dev.mode l)
    decide ((s.dev.alnState l ≠ 0) ∧ (s.dev.noData l = false) ∧ (s.dev.patErr l pat = 0) ∧ (isFlexO (s.dev.mode l) = false) ∧ (a.live.all (fun e => e.2.pos != p) = true) ∧ (List.range 4).any (fun k => (a.slot k).isNone) = false ∧ (a.live.all (fun e => e.2.held || e.2.contender || e.2.run != 1) = true))) = true ∧
   (let n : Chan := 0
    let pat : List Byte := []
    let s : State := mk [(.CH_MODE_mode, 0, 8)]
    decide ((s.dev.patErr (s.dev.leader n.val) pat ≠ 0))) = true ∧
   (let d : Dev := (mk [(.CH_MODE_mode, 0, 8)]).dev
    let l : Nat := 0
    let rx : List Byte := [0xF6, 0xF6, 0xF6, 0x28, 0x28, 0x28]
    decide ((isFlexO (d.mode l) = false) ∧ (rx.length = 6))) = true := by decide +kernel

theorem test_hyps_Candidates_2 :
   (let n : Chan := 0
    let k : Fin 4 := 0
    let s : State := mk [(.CH_MODE_mode, 0, 8), (.CH_SDS_STAT_adapt_state, 0, 3), (.CH_ALN_STAT_aln_state, 0, 1)] (fun d => d.setAln 0 { d.aln 0 with slots := [some ⟨5, 2, 7, false, false, false, 0, true, 0, true, false⟩, none, none, none] })
    let c : CandSlot := ⟨5, 2, 7, false, false, false, 0, true, 0, true, false⟩
    let l := s.dev.leader n.val
    decide ((s.dev.aln l).slot k.val = some c ∧ (c.held = false))) = true := by decide +kernel

theorem test_hyps_SearchTieInframe :
   (let n : Chan := 0
    let k : Fin 4 := 0
    let s : State := mk [(.CH_MODE_mode, 0, 8), (.CH_ALN_STAT_aln_state, 0, 1)] (fun d => d.setAln 0 { d.aln 0 with slots := [some ⟨5, 2, 7, false, false, false, 0, true, 0, true, false⟩, none, none, none] })
    let c : CandSlot := ⟨5, 2, 7, false, false, false, 0, true, 0, true, false⟩
    let l := s.dev.leader n.val
    let rival := (s.dev.aln l).live.any (fun e => e.1 != k.val && decide (max (s.dev.alnN l - 1) 1 ≤ e.2.run))
    decide ((s.dev.aln l).slot k.val = some c ∧ (s.dev.alnN l ≤ c.run) ∧ (c.due = true) ∧ (s.dev.alnState l = 1) ∧ (isFlexO (s.dev.mode l) = false) ∧ (rival = true ∨ c.mimic = false))) = true ∧
   (let n : Chan := 0
    let s : State := mk [(.CH_ALN_STAT_aln_state, 0, 2)]
    let l := s.dev.leader n.val
    decide ((s.dev.alnState l = 2) ∧ (s.dev.aln l).live.filter (fun e => e.2.contender) = [])) = true ∧
   (let n : Chan := 0
    let s : State := mk [(.CH_MODE_mode, 0, 8), (.CH_ALN_STAT_aln_state, 0, 2)] (fun d => d.setAln 0 { d.aln 0 with slots := [some ⟨5, 2, 7, false, true, false, 0, true, 0, true, false⟩, none, none, none] })
    let k : Nat := 0
    let c : CandSlot := ⟨5, 2, 7, false, true, false, 0, true, 0, true, false⟩
    let l := s.dev.leader n.val
    decide ((s.dev.alnState l = 2) ∧ (s.dev.aln l).live.filter (fun e => e.2.contender) = [(k, c)] ∧ (c.mimic = false))) = true := by decide +kernel

theorem test_hyps_MimicsAndOutOfFrame :
   (let n : Chan := 0
    let k : Fin 4 := 0
    let s : State := mk [(.CH_MODE_mode, 0, 8), (.CH_ALN_STAT_aln_state, 0, 3)] (fun d => d.setAln 0 { d.aln 0 with slots := [some ⟨5, 2, 7, false, false, false, 0, true, 0, true, false⟩, none, none, none] })
    let c : CandSlot := ⟨5, 2, 7, false, false, false, 0, true, 0, true, false⟩
    let l := s.dev.leader n.val
    decide ((s.dev.aln l).slot k.val = some c ∧ (s.dev.alnState l = 3) ∧ (c.held = false) ∧ (c.mimic = false) ∧ (c.heldOk = true) ∧ (s.dev.alnN l ≤ c.run))) = true ∧
   (let n : Chan := 0
    let s : State := mk [(.CH_ALN_STAT_aln_state, 0, 3)] (fun d => d.setAln 0 { d.aln 0 with errRun := 5 })
    let l := s.dev.leader n.val
    decide ((s.dev.alnState l = 3) ∧ (s.dev.alnM l ≤ (s.dev.aln l).errRun))) = true := by decide +kernel

theorem test_hyps_MultiframeAndIntegratedDefects_1 :
   (let n : Chan := 0
    let s : State := mk [(.CH_ALN_STAT_aln_state, 0, 3), (.CH_ALN_STAT_mf_state, 0, 1)] (fun d => d.setAln 0 { d.aln 0 with mfRun := 2, prevMf := some 9 })
    let l := s.dev.leader n.val
    decide ((s.dev.alnState l = 3) ∧ (s.dev.get .CH_ALN_STAT_mf_state l = 1) ∧ (s.dev.get .CH_ALN_CTL_mf_confirm l ≤ (s.dev.aln l).mfRun))) = true ∧
   (let n : Chan := 0
    let s : State := mk [(.CH_ALN_STAT_mf_state, 0, 2)] (fun d => d.setAln 0 { d.aln 0 with mfMiss := 5 })
    let l := s.dev.leader n.val
    decide ((s.dev.get .CH_ALN_STAT_mf_state l = 2) ∧ (s.dev.get .CH_ALN_CTL_mf_lose l ≤ (s.dev.aln l).mfMiss))) = true ∧
   (let n : Chan := 0
    let s : State := mk [(.CH_ALN_STAT_oof, 0, 1)] (fun d => d.setAln 0 { d.aln 0 with lofAcc := 10 ^ 8 })
    let l := s.dev.leader n.val
    decide ((s.dev.bit .CH_ALN_STAT_oof l = true) ∧ (s.dev.bit .CH_ALN_STAT_dlof l = false) ∧ (s.dev.get .CH_ALN_TIME_lof_set l * 25000 ≤ reached (s.dev.aln l).lofAcc (s.dev.aln l).lofSince s.dev.ticks))) = true ∧
   (let n : Chan := 0
    let s : State := mk [(.CH_ALN_STAT_aln_state, 0, 3), (.CH_ALN_STAT_dlof, 0, 1)] (fun d => d.setAln 0 { d.aln 0 with lofOk := some 0 })
    let l := s.dev.leader n.val
    decide ((s.dev.alnState l = 3) ∧ (s.dev.bit .CH_ALN_STAT_dlof l = true) ∧ (persisted (s.dev.aln l).lofOk s.dev.ticks (s.dev.get .CH_ALN_TIME_lof_clr l * 25000) = true))) = true ∧
   (let n : Chan := 0
    let s : State := mk [(.CH_ALN_STAT_aln_state, 0, 3), (.CH_ALN_STAT_oom, 0, 1)] (fun d => d.setAln 0 { d.aln 0 with lomAcc := 10 ^ 8 })
    let l := s.dev.leader n.val
    decide ((s.dev.alnState l = 3) ∧ (s.dev.bit .CH_ALN_STAT_oom l = true) ∧ (s.dev.bit .CH_ALN_STAT_dlom l = false) ∧ (s.dev.get .CH_ALN_TIME_lom_set l * 25000 ≤ reached (s.dev.aln l).lomAcc (s.dev.aln l).lomSince s.dev.ticks))) = true := by decide +kernel

theorem test_hyps_MultiframeAndIntegratedDefects_2 :
   (let n : Chan := 0
    let s : State := mk [(.CH_ALN_STAT_mf_state, 0, 2), (.CH_ALN_STAT_dlom, 0, 1)] (fun d => d.setAln 0 { d.aln 0 with lomOk := some 0 })
    let l := s.dev.leader n.val
    decide ((s.dev.get .CH_ALN_STAT_mf_state l = 2) ∧ (s.dev.bit .CH_ALN_STAT_dlom l = true) ∧ (persisted (s.dev.aln l).lomOk s.dev.ticks (s.dev.get .CH_ALN_TIME_lom_clr l * 25000) = true))) = true ∧
   (let n : Chan := 0
    let s : State := mk []
    let l := s.dev.leader n.val
    decide ((s.dev.lofReached l = false))) = true ∧
   (let n : Chan := 0
    let s : State := mk []
    let l := s.dev.leader n.val
    decide ((s.dev.lofPersists l = false))) = true ∧
   (let n : Chan := 0
    let s : State := mk []
    let l := s.dev.leader n.val
    decide ((s.dev.lomReached l = false))) = true ∧
   (let n : Chan := 0
    let s : State := mk []
    let l := s.dev.leader n.val
    decide ((s.dev.lomPersists l = false))) = true := by decide +kernel

theorem test_hyps_FrameTimesOfEgressAndTributaries_1 :
   (let b : Trib := 0
    let s : State := mk [(.ODU_CFG_kind, 0, 2)] (fun d => d.setPd (domSlice 0) true)
    decide ((s.dev.kind b.val ≠ 0) ∧ (s.dev.pdOn (domSlice (sliceOf (s.dev.carrier b.val))) = true) ∧ (s.dev.tribMap b.val = false ∨ (s.dev.trib b.val).egressOn = true))) = true ∧
   (let b : Trib := 0
    let s : State := mk [(.ODU_CFG_kind, 0, 2)]
    decide ((s.dev.pdOn (domSlice (sliceOf (s.dev.carrier b.val))) = false))) = true ∧
   (let d : Dev := (mk [(.CH_MODE_mode, 0, 8)]).dev
    let k : Nat := 0
    decide ((d.pointKind k = .odu) ∧ (d.srcOut k = true))) = true ∧
   (let d : Dev := (mk [(.CH_MODE_mode, 0, 8)] (fun d => d.setUst .channel 0 0)).dev
    let k : Nat := 0
    decide ((d.pointKind k = .odu) ∧ (d.srcOut k = false) ∧ (d.og k .CH_OH_CTL_ins_force = 0) ∧ (d.nullSignal k = false) ∧ (d.feed k = Feed.none))) = true ∧
   (let b : Trib := 0
    let rx : FrameRx := ⟨[], 0, false, [], [], false, [], []⟩
    let s : State := mk [(.ODU_CFG_kind, 0, 2), (.ODU_STAT_tr_state, 0, 3)] (fun d => (d.setUst .trib 0 0).setTrib 0 { d.trib 0 with inFrame := true, errRun := 4 })
    decide ((s.dev.running .trib b.val = true) ∧ (s.dev.kind b.val ≠ 0) ∧ (2 ≤ s.dev.trState b.val) ∧ (s.dev.trib b.val).inFrame = true ∧ (4 ≤ (s.dev.trib b.val).errRun) ∧ (2 < patDiff rx.pat 0 6))) = true := by decide +kernel

theorem test_hyps_FrameTimesOfEgressAndTributaries_2 :
   (let b : Trib := 0
    let rx : FrameRx := ⟨[0xF6, 0xF6, 0xF6, 0x28, 0x28, 0x28], 7, false, [], [], false, [], []⟩
    let s : State := mk [(.ODU_CFG_kind, 0, 2), (.ODU_STAT_tr_state, 0, 3)] (fun d => (d.setUst .trib 0 0).setTrib 0 { d.trib 0 with inFrame := false, goodRun := 1, prevMf := some 6 })
    let m : Byte := 6
    decide ((s.dev.running .trib b.val = true) ∧ (s.dev.kind b.val ≠ 0) ∧ (2 ≤ s.dev.trState b.val) ∧ (s.dev.trib b.val).inFrame = false ∧ (1 ≤ (s.dev.trib b.val).goodRun) ∧ (s.dev.trib b.val).prevMf = some m ∧ (rx.mf = m + 1) ∧ (patDiff rx.pat 0 6 = 0) ∧ (s.dev.bit .ODU_CFG_srv_none b.val = true ∨ (s.dev.oh (s.dev.srvSignal b.val)).noData = false))) = true := by decide +kernel

theorem test_hyps_DefectsWindowsFailures :
   (let src : Src := .chan 0
    let l : Lvl := 0
    let s : State := mk [] (fun d => { d with dtime := 5000000000 })
    let k := srcKey src
    let w := Table.get (s.dev.oh k).deg l.val DegSt.init
    decide ((w.at_ + s.dev.degLen k l.val ≤ s.dev.now ∨ s.dev.now < w.at_))) = true ∧
   (let src : Src := .chan 0
    let l : Lvl := 0
    let s : State := mk []
    let k := srcKey src
    let w := Table.get (s.dev.oh k).deg l.val DegSt.init
    decide ((w.at_ ≤ s.dev.now) ∧ (s.dev.now < w.at_ + s.dev.degLen k l.val))) = true ∧
   (let src : Src := .chan 0
    let l : Lvl := 0
    let code : DefCode := 0
    let clr : Bool := false
    let s : State := mk [(.CH_MODE_mode, 0, 8), (.GLB_READY_FN_stride_fw, 0, 1), (.STR_MAPS_served, 0, 1)] (fun d => (d.setUst .channel 0 0).setOh 0 { d.oh 0 with causes := [(0, ⟨true, 0⟩)] })
    let k := srcKey src
    decide ((s.dev.evaluates k l.val = true) ∧ (s.dev.causeNow k l.val code.val = !clr) ∧ (s.dev.failBit k l.val code.val = clr))) = true := by decide +kernel

theorem test_hyps_AcceptedValues :
   (let src : Src := .chan 0
    let l : Lvl := 1
    let s : State := mk [(.CH_MODE_mode, 0, 8), (.GLB_READY_FN_stride_fw, 0, 1), (.STR_MAPS_served, 0, 1)] (fun d => (d.setUst .channel 0 0).setOh 0 { d.oh 0 with tti := [(1, ⟨List.replicate 64 5, 3, 0⟩)] })
    let k := srcKey src
    let a := Table.get (s.dev.oh k).tti l.val Accept.init
    decide ((s.dev.c3Ready k l.val = true) ∧ (3 ≤ a.run) ∧ (Table.find (s.dev.oh k).ttiAcc l.val ≠ some a.last))) = true ∧
   (let src : Src := .chan 0
    let s : State := mk [(.CH_MODE_mode, 0, 8), (.GLB_READY_FN_stride_fw, 0, 1), (.STR_MAPS_served, 0, 1)] (fun d => (d.setUst .channel 0 0).setOh 0 { d.oh 0 with pt := ⟨[0x21], 3, 0⟩ })
    let k := srcKey src
    let o := s.dev.oh k
    decide ((s.dev.c3Ready k 1 = true) ∧ (s.dev.isStm k = false) ∧ (3 ≤ o.pt.run) ∧ (Table.find o.ohLast 18 ≠ some [o.pt.last.headD 0]))) = true ∧
   (let src : Src := .chan 0
    let l : Lvl := 1
    let s : State := mk [(.CH_MODE_mode, 0, 8), (.GLB_READY_FN_stride_fw, 0, 1), (.STR_MAPS_served, 0, 1)] (fun d => (d.setUst .channel 0 0).setOh 0 { d.oh 0 with aps := [(1, ⟨[1, 2, 3, 4], 3, 0⟩)] })
    let k := srcKey src
    let a := Table.get (s.dev.oh k).aps l.val Accept.init
    decide ((s.dev.evaluates k l.val = true) ∧ (3 ≤ a.run) ∧ (Table.find (s.dev.oh k).apsAcc l.val ≠ some a.last))) = true := by decide +kernel

theorem test_hyps_EngineTasks :
   (let e : Engine := 0
    let s : State := mk [(.CH_MODE_mode, 0, 8), (.STR_HEAT_STAT_heat_state, 0, 4)] (fun d => ((d.setUst .channel 0 0).setPd 80 true).setHeat 0 { d.heat 0 with queue := [⟨0, [0, 1], false, false, 0, 0, 0, 100, [], 0, false, []⟩] })
    let q : Nat := 0
    let dist : Nat := 0
    let i : Nat := 0
    let w : Task := ⟨0, [0, 1], false, false, 0, 0, 0, 100, [], 0, false, []⟩
    decide ((Table.find s.dev.engines e.val = none) ∧ (s.dev.takeFrom (e.val / 16) = some (q, dist)) ∧ (s.dev.eligible q = some i) ∧ (s.dev.heat q).queue[i]? = some w ∧ (s.dev.taskCurrent w = true) ∧ (w.home < 16))) = true ∧
   (let e : Engine := 0
    let s : State := mk [] (fun d => { d with dtime := 5000, engines := [(0, ⟨⟨0, [0, 1], false, false, 0, 0, 0, 100, [], 0, false, []⟩, [1, 2], 0, 0⟩)] })
    let r : EngineSt := ⟨⟨0, [0, 1], false, false, 0, 0, 0, 100, [], 0, false, []⟩, [1, 2], 0, 0⟩
    let p : Nat := 1
    let rest : List Nat := [2]
    decide ((Table.find s.dev.engines e.val = some r) ∧ (r.left = p :: rest))) = true ∧
   (let e : Engine := 0
    let s : State := mk [] (fun d => { d with dtime := 5000, engines := [(0, ⟨⟨0, [0, 1], false, false, 0, 0, 0, 100, [], 0, false, []⟩, [0, 1], 0, 0⟩)] })
    let r : EngineSt := ⟨⟨0, [0, 1], false, false, 0, 0, 0, 100, [], 0, false, []⟩, [0, 1], 0, 0⟩
    let rest : List Nat := [1]
    decide ((Table.find s.dev.engines e.val = some r) ∧ (r.left = 0 :: rest) ∧ (r.task.home < 16) ∧ (deadline r.task 0 < (s.dev.dtime.setWidth 32 - r.task.born.setWidth 32).toNat))) = true ∧
   (let e : Engine := 0
    let s : State := mk [] (fun d => { d with dtime := 20000, engines := [(0, ⟨⟨0, [0, 1], false, false, 0, 0, 0, 100, [], 0, false, []⟩, [0, 1], 0, 0⟩)] })
    let r : EngineSt := ⟨⟨0, [0, 1], false, false, 0, 0, 0, 100, [], 0, false, []⟩, [0, 1], 0, 0⟩
    decide ((Table.find s.dev.engines e.val = some r) ∧ (r.task.home < 16) ∧ (16384 * 4 < (s.dev.dtime - r.start).toNat * 5))) = true ∧
   (let e : Engine := 0
    let s : State := mk [] (fun d => { d with dtime := 5000, engines := [(0, ⟨⟨0, [0, 1], false, false, 0, 0, 0, 100, [], 0, false, []⟩, [0, 1], 0, 0⟩)] })
    let r : EngineSt := ⟨⟨0, [0, 1], false, false, 0, 0, 0, 100, [], 0, false, []⟩, [0, 1], 0, 0⟩
    decide ((Table.find s.dev.engines e.val = some r) ∧ (s.dev.dtime - r.start).toNat * 5 ≤ 16384 * 4)) = true := by decide +kernel

theorem test_hyps_HeatsAndShedding :
   (let h : Heat := 0
    let s : State := mk [(.STR_HEAT_STAT_heat_state, 0, 5)]
    decide ((s.dev.heatState h.val = 5) ∧ (s.dev.engines.all (fun e => e.1 / 16 != h.val) = true))) = true := by decide +kernel

theorem test_hyps_TributariesAndLearning_1 :
   (let b : Trib := 0
    let s : State := mk [(.ODU_CFG_kind, 0, 2), (.ODU_STAT_tr_state, 0, 2), (.ODU_CFG_srv_none, 0, 1)] (fun d => (d.setUst .trib 0 0).setTrib 0 { d.trib 0 with inFrame := true })
    decide ((s.dev.running .trib b.val = true) ∧ (s.dev.trState b.val = 2) ∧ (s.dev.srvLock b.val = true))) = true ∧
   (let b : Trib := 0
    let s : State := mk [(.ODU_CFG_kind, 0, 2), (.ODU_STAT_tr_state, 0, 3), (.ODU_CFG_srv_none, 0, 1)] (fun d => d.setUst .trib 0 0)
    decide ((s.dev.srvUp b.val = true))) = true ∧
   (let b : Trib := 0
    let s : State := mk [(.ODU_CFG_kind, 0, 2), (.ODU_STAT_tr_state, 0, 3)] (fun d => d.setUst .trib 0 0)
    decide ((s.dev.running .trib b.val = true) ∧ (s.dev.srvUp b.val = false) ∧ (s.dev.trState b.val = 3))) = true ∧
   (let b : Trib := 0
    let s : State := mk [(.ODU_CFG_kind, 0, 2), (.ODU_STAT_tr_state, 0, 2), (.ODU_STAT_adapt_lock, 0, 1)] (fun d => d.setUst .trib 0 0)
    decide ((s.dev.running .trib b.val = true) ∧ (s.dev.srvUp b.val = false) ∧ (s.dev.trState b.val = 2))) = true ∧
   (let b : Trib := 0
    let s : State := mk [(.ODU_CFG_kind, 0, 2), (.ODU_STAT_tr_state, 0, 3)] (fun d => d.setUst .trib 0 0)
    decide ((s.dev.running .trib b.val = true))) = true := by decide +kernel

theorem test_hyps_TributariesAndLearning_2 :
   (let n : Chan := 0
    let tpn : Byte := 1
    let s : State := mk [(.CH_MODE_mode, 0, 8), (.GLB_READY_FN_stride_fw, 0, 1), (.STR_MAPS_served, 0, 1), (.SL_SRV_CTL_pay_mode, 0, 2), (.SL_SRV_CTL_psi_mode, 0, 1), (.SL_MSI_ACC_occupied, 3, 1), (.SL_MSI_ACC_tpn, 3, 1), (.SL_LEARN_learn_cnt, 0, 4)] (fun d => (d.setUst .channel 0 0).setServer 0 { d.server 0 with measure := [(1, 0)] })
    decide ((s.dev.isMux n.val = true) ∧ (s.dev.standby = false) ∧ (s.dev.bit .SL_SRV_CTL_psi_mode n.val = true) ∧ (s.dev.c3Ready n.val 1 = true) ∧ (s.dev.measured n.val tpn.toNat = true) ∧ (s.dev.msiSlots n.val tpn.toNat).isEmpty = false ∧ (s.dev.tribOfTpn n.val tpn.toNat = none) ∧ (s.dev.bit .GLB_UC_STAT_uc_busy 0 = false))) = true ∧
   (let x : Trib := 0
    let s : State := mk [(.CH_MODE_mode, 0, 8), (.GLB_READY_FN_stride_fw, 0, 1), (.STR_MAPS_served, 0, 1), (.ODU_STAT_learned, 0, 1), (.ODU_CFG_kind, 0, 1), (.SL_SRV_STAT_msi_acc, 0, 1), (.ODU_STAT_tr_state, 0, 3)] (fun d => { (((d.setUst .channel 0 0).setUst .trib 0 0).setTrib 0 { d.trib 0 with absentSince := some 0 }) with dtime := 10 ^ 13 })
    let n := s.dev.get .ODU_CFG_srv_ch x.val
    decide ((s.dev.bit .ODU_STAT_learned x.val = true) ∧ (s.dev.standby = false) ∧ (s.dev.absentLong x.val = true) ∧ (s.dev.bit .SL_SRV_STAT_msi_acc n = true) ∧ (s.dev.atsf (s.dev.carried n) 1 = false) ∧ (s.dev.c3Ready n 1 = true) ∧ (s.dev.bit .GLB_UC_STAT_uc_busy 0 = false) ∧ (s.dev.freeing x.val = false) ∧ (s.dev.stopped .trib x.val = false))) = true ∧
   (let x : Trib := 0
    let s : State := mk [(.ODU_STAT_learned, 0, 1), (.ODU_CFG_kind, 0, 1), (.ODU_STAT_tr_state, 0, 1)] (fun d => { (d.setUst .trib 0 1) with host := { d.host with freeing := [0] } })
    decide ((s.dev.ust .trib x.val = 1) ∧ (s.dev.freeing x.val = true))) = true ∧
   (let n : Chan := 0
    let tpn : Byte := 0
    let s : State := mk []
    decide ((s.dev.c3Ready n.val 1 = false ∨ s.dev.measured n.val tpn.toNat = false ∨ s.dev.bit .GLB_UC_STAT_uc_busy 0 = true))) = true ∧
   (let x : Trib := 0
    let s : State := mk []
    decide ((s.dev.c3Ready (s.dev.get .ODU_CFG_srv_ch x.val) 1 = false ∨ s.dev.absentLong x.val = false ∨ s.dev.bit .GLB_UC_STAT_uc_busy 0 = true))) = true := by decide +kernel

theorem test_hyps_MappingDefectsAndMsi :
   (let b : Trib := 0
    let clr : Bool := false
    let s : State := mk [(.ODU_CFG_kind, 0, 2), (.GLB_READY_FN_stride_fw, 0, 1), (.STR_MAPS_served, 0, 0xFFFF), (.ODU_STAT_tr_state, 0, 2), (.ODU_STAT_lo_oof, 0, 1)] (fun d => { ((d.setUst .trib 0 0).setTrib 0 { d.trib 0 with loAcc := 750000, loSince := some 0, inFrame := false }) with ticks := 10 ^ 7 })
    decide ((2 ≤ s.dev.trState b.val) ∧ (s.dev.evaluates (192 + b.val) 1 = true) ∧ (s.dev.defectCond (192 + b.val) 1 16 clr = true))) = true ∧
   (let n : Chan := 0
    let clr : Bool := false
    let s : State := mk [(.CH_MODE_mode, 0, 8), (.GLB_READY_FN_stride_fw, 0, 1), (.STR_MAPS_served, 0, 1), (.SL_SRV_CTL_pay_mode, 0, 2)] (fun d => (d.setUst .channel 0 0).setServer 0 { d.server 0 with omfi := some 3, omfiOut := true })
    decide ((s.dev.evaluates n.val 1 = true) ∧ (s.dev.isMux n.val = true) ∧ (s.dev.isCn n.val = false) ∧ (s.dev.server n.val).omfi.isSome = true ∧ (s.dev.server n.val).omfiOut = !clr ∧ (s.dev.server n.val).omfiSince + msTicks 3 ≤ s.dev.ticks)) = true ∧
   (let n : Chan := 0
    let s : State := mk [(.CH_MODE_mode, 0, 8), (.GLB_READY_FN_stride_fw, 0, 1), (.STR_MAPS_served, 0, 1), (.SL_SRV_CTL_pay_mode, 0, 2)] (fun d => (d.setUst .channel 0 0).setServer 0 { d.server 0 with psiRun := 3, psiLast := List.replicate 256 0x83 })
    decide ((s.dev.isMux n.val = true) ∧ (s.dev.c3Ready n.val 1 = true) ∧ (3 ≤ (s.dev.server n.val).psiRun))) = true := by decide +kernel

theorem test_hyps_FlexeAndFlexo_1 :
   (let sl : Slice := 0
    let j : Fin 8 := 0
    let s : State := mk [] (fun d => d.setFx (fxKey 0 0) { d.fx (fxKey 0 0) with crOut := some true })
    decide ((s.dev.fx (fxKey sl.val j.val)).crOut.isSome = true)) = true ∧
   (let sl : Slice := 0
    let j : Fin 8 := 0
    let s : State := mk [] (fun d => d.setFx (fxKey 0 0) { d.fx (fxKey 0 0) with crOut := some true, caIn := true })
    let c : Bool := true
    let x := s.dev.fx (fxKey sl.val j.val)
    decide ((x.crOut = some c) ∧ (x.caIn = true) ∧ (x.switched = false))) = true ∧
   (let sl : Slice := 0
    let j : Fin 8 := 0
    let s : State := mk [] (fun d => d.setFx (fxKey 0 0) { d.fx (fxKey 0 0) with crOut := some true })
    let x := s.dev.fx (fxKey sl.val j.val)
    decide ((x.crOut.isSome = true) ∧ (x.caIn = false))) = true ∧
   (let sl : Slice := 0
    let j : Fin 8 := 0
    let s : State := mk [(.SL_FLXE_GRP0_grp_en, fxKey 0 0, 1)]
    decide ((s.dev.bit .SL_FLXE_GRP0_grp_en (fxKey sl.val j.val) = true))) = true ∧
   (let sl : Slice := 0
    let j : Fin 8 := 0
    let s : State := mk [(.SL_FLXE_GRP0_grp_en, fxKey 0 0, 1)]
    let k := fxKey sl.val j.val
    decide ((s.dev.bit .SL_FLXE_GRP0_grp_en k = true))) = true := by decide +kernel

theorem test_hyps_FlexeAndFlexo_2 :
   (let n : Chan := 0
    let s : State := mk [(.CH_MODE_mode, 0, 9)] (fun d => d.setUst .channel 0 0)
    let l := s.dev.leader n.val
    decide ((isFlexO (s.dev.mode l) = true) ∧ (s.dev.lineRun l = true))) = true := by decide +kernel

theorem test_hyps_FilterSamples :
   (let c : Ctx := 0
    let s : State := mk [(.CH_SDS_STAT_adapt_state, 0, 3), (.FLT_CTX_STAT_in_class, 0, strobeClass (kindFrame 2 0)), (.ODU_CFG_kind, 0, 2), (.ODU_STAT_tr_state, 0, 3), (.ODU_MAP_fctx_en, 0, 1), (.ODU_CFG_pay_mode, 0, 1), (.ODU_CFG_srv_ch, 0, 0), (.CH_MODE_mode, 0, 8), (.CH_ALN_STAT_aln_state, 0, 3), (.FLT_CTX_STAT_ctx_state, 0, 1)] (fun d => (((d.setUst .trib 0 0).setUst .channel 0 0).setPd 91 true).setOh 0 { d.oh 0 with inFrame := true } |> fun d => d.setCtx 0 { d.ctx 0 with input := some (4096, 192), signals := [192, 0], chain := some ⟨1, 0, 1, 0, 0, 0, 0, 0, 0, 0, 0, 0, 1, 1, [0, 0, 0, 0], [0, 0, 0, 0], [], [], [0], 0, false, false, none, 1, 0, 0, 0, 0, 0⟩ })
    let p : Nat := 4096
    let k : Nat := 192
    decide ((s.dev.ctxState c.val ≠ 0) ∧ (s.dev.pdOn (domFilt (ctxArray c.val)) = true) ∧ (s.dev.ctxInput c.val = (some (p, k), false)) ∧ (s.dev.ctx c.val).input = some (p, k) ∧ (s.dev.ctx c.val).signals = s.dev.inputSignals k ∧ (s.dev.get .FLT_CTX_STAT_in_class c.val = strobeClass (s.dev.srcFrame k)) ∧ (s.dev.sampleValid c.val k = true) ∧ (s.dev.ctx c.val).inputNew = false)) = true ∧
   (let c : Ctx := 0
    let s : State := mk [(.CH_SDS_STAT_adapt_state, 0, 3), (.FLT_CTX_STAT_in_class, 0, strobeClass (kindFrame 2 0)), (.ODU_CFG_kind, 0, 2), (.ODU_STAT_tr_state, 0, 2), (.ODU_MAP_fctx_en, 0, 1), (.ODU_CFG_pay_mode, 0, 1), (.ODU_CFG_srv_ch, 0, 0), (.CH_MODE_mode, 0, 8), (.CH_ALN_STAT_aln_state, 0, 3), (.FLT_CTX_STAT_ctx_state, 0, 1)] (fun d => (((d.setUst .trib 0 0).setUst .channel 0 0).setPd 91 true).setCtx 0 { d.ctx 0 with input := some (4096, 192), chain := some ⟨1, 0, 1, 0, 0, 0, 0, 0, 0, 0, 0, 0, 1, 1, [0, 0, 0, 0], [0, 0, 0, 0], [], [], [0], 0, false, false, none, 1, 0, 0, 0, 0, 0⟩ })
    let p : Nat := 4096
    let k : Nat := 192
    decide ((s.dev.ctxState c.val = 1 ∨ s.dev.ctxState c.val = 2) ∧ (s.dev.pdOn (domFilt (ctxArray c.val)) = true) ∧ (s.dev.ctxInput c.val = (some (p, k), false)) ∧ (s.dev.ctx c.val).input = some (p, k) ∧ (s.dev.get .FLT_CTX_STAT_in_class c.val = strobeClass (s.dev.srcFrame k)) ∧ (s.dev.sampleValid c.val k = false) ∧ (s.dev.ctx c.val).chain.isSome = true)) = true ∧
   (let c : Ctx := 0
    let s : State := mk [(.FLT_CTX_STAT_ctx_state, 0, 2)] (fun d => (((d.setUst .trib 0 0).setUst .channel 0 0).setPd 91 true).setCtx 0 { d.ctx 0 with chain := some ⟨1, 0, 1, 0, 0, 0, 0, 0, 0, 0, 0, 0, 1, 1, [0, 0, 0, 0], [0, 0, 0, 0], [], [], [0], 0, false, false, some 3, 1, 0, 0, 0, 0, 0⟩ })
    let x : Chain := ⟨1, 0, 1, 0, 0, 0, 0, 0, 0, 0, 0, 0, 1, 1, [0, 0, 0, 0], [0, 0, 0, 0], [], [], [0], 0, false, false, some 3, 1, 0, 0, 0, 0, 0⟩
    let f : Int := 3
    decide ((s.dev.ctx c.val).chain = some x ∧ (x.out = some f))) = true ∧
   (let x : Chain := ⟨1, 0, 1, 0, 0, 0, 0, 0, 0, 0, 0, 0, 1, 1, [0, 0, 0, 0], [0, 0, 0, 0], [], [], [0], 0, false, false, none, 1, 0, 0, 0, 0, 0⟩
    let f : Int := 0
    decide ((x.loop f).2 = false)) = true := by decide +kernel

theorem test_hyps_ContextsSettle :
   (let c : Ctx := 0
    let s : State := mk [(.FLT_CTX_STAT_ctx_state, 0, 1), (.FLT_CTX_STAT_in_valid, 0, 1)] (fun d => (((d.setUst .trib 0 0).setUst .channel 0 0).setPd 91 true).setCtx 0 { d.ctx 0 with chain := some ⟨1, 0, 1, 0, 0, 0, 0, 0, 0, 0, 0, 0, 1, 1, [0, 0, 0, 0], [0, 0, 0, 0], [], [], [0], 0, false, false, none, 0, 0, 0, 0, 0, 0⟩ })
    let x : Chain := ⟨1, 0, 1, 0, 0, 0, 0, 0, 0, 0, 0, 0, 1, 1, [0, 0, 0, 0], [0, 0, 0, 0], [], [], [0], 0, false, false, none, 0, 0, 0, 0, 0, 0⟩
    decide ((s.dev.ctx c.val).chain = some x ∧ (s.dev.ctxState c.val = 1) ∧ (x.settleLeft = 0) ∧ (s.dev.bit .FLT_CTX_STAT_in_valid c.val = true))) = true ∧
   (let c : Ctx := 0
    let s : State := mk [(.FLT_CTX_STAT_ctx_state, 0, 3)] (fun d => (((d.setUst .trib 0 0).setUst .channel 0 0).setPd 91 true).setCtx 0 { d.ctx 0 with validRun := 16 })
    decide ((s.dev.ctxState c.val = 3) ∧ (16 ≤ (s.dev.ctx c.val).validRun))) = true := by decide +kernel

theorem test_hyps_SyncSwapsAndBanks :
   (let s : State := mk [] (fun d => { d with sync := { d.sync with due := [(5, 1, false)] } })
    let at_ : Nat := 5
    let grps : BitVec 8 := 1
    let pin : Bool := false
    decide ((s.dev.sync.due = [(at_, grps, pin)]))) = true ∧
   (let c : Ctx := 0
    let s : State := mk [(.FLT_CTX_STAT_swap_state, 0, 2)] (fun d => (((d.setUst .trib 0 0).setUst .channel 0 0).setPd 91 true).setCtx 0 { d.ctx 0 with shadow := some ⟨1, 0, 1, 0, 0, 0, 0, 0, 0, 0, 0, 0, 1, 1, [0, 0, 0, 0], [0, 0, 0, 0], [], [], [0], 0, false, false, none, 0, 0, 0, 0, 0, 0⟩ })
    let x : Chain := ⟨1, 0, 1, 0, 0, 0, 0, 0, 0, 0, 0, 0, 1, 1, [0, 0, 0, 0], [0, 0, 0, 0], [], [], [0], 0, false, false, none, 0, 0, 0, 0, 0, 0⟩
    decide ((s.dev.ctx c.val).shadow = some x ∧ (s.dev.get .FLT_CTX_STAT_swap_state c.val = 2) ∧ (x.settleLeft = 0))) = true ∧
   (let c : Ctx := 0
    let s : State := mk [(.FLT_CTX_STAT_swap_state, 0, 3)] (fun d => (((d.setUst .trib 0 0).setUst .channel 0 0).setPd 91 true).setCtx 0 { d.ctx 0 with fadeI := 64, shadow := some ⟨1, 0, 1, 0, 0, 0, 0, 0, 0, 0, 0, 0, 1, 1, [0, 0, 0, 0], [0, 0, 0, 0], [], [], [0], 0, false, false, none, 0, 0, 0, 0, 0, 0⟩ })
    let x : Chain := ⟨1, 0, 1, 0, 0, 0, 0, 0, 0, 0, 0, 0, 1, 1, [0, 0, 0, 0], [0, 0, 0, 0], [], [], [0], 0, false, false, none, 0, 0, 0, 0, 0, 0⟩
    decide ((s.dev.ctx c.val).shadow = some x ∧ (s.dev.get .FLT_CTX_STAT_swap_state c.val = 3) ∧ (s.dev.ctx c.val).fadeI = 64 ∧ (s.dev.bit .FLT_CTX_STAT_pending c.val = false))) = true ∧
   (let mask : BitVec 16 := 0
    let b : Nat := 0
    decide ((mask.getLsbD b = false))) = true := by decide +kernel

theorem test_hyps_Pushes :
   (let q : Queue := 0
    let s : State := mk [(.CPL_Q_QUOTA_quota, 0, 4)] (fun d => d.setUst .queue 0 0) ({ Pool.init with sites := [(0, ⟨100, [], 3, [], [], 0, 0⟩)], queues := [(0, ⟨[], some 1, none, 0⟩)], mem := [] })
    let c : Nat := 1
    let n : Nat := 3
    let p : Pool := { Pool.init with sites := [(0, ⟨100, [], 4, [], [], 0, 0⟩)], queues := [(0, ⟨[], some 1, none, 0⟩)], mem := [], rot := 1 }
    decide ((s.dev.running .queue q.val = true) ∧ (s.dev.qOcc q.val < s.dev.get .CPL_Q_QUOTA_quota q.val) ∧ (s.pool.queue q.val).spare = some c ∧ (s.pool.alloc = some (n, p)))) = true ∧
   (let q : Queue := 0
    let s : State := mk [(.CPL_Q_QUOTA_quota, 0, 0)] (fun d => d.setUst .queue 0 0)
    decide ((s.dev.qStream q.val = false) ∧ (s.dev.get .CPL_Q_QUOTA_quota q.val ≤ s.dev.qOcc q.val))) = true ∧
   (let q : Queue := 0
    let data : List Byte := [9]
    let s : State := mk [(.CPL_Q_QUOTA_quota, 0, 4)] (fun d => d.setUst .queue 0 0) ({ Pool.init with sites := [(0, ⟨100, [], 3, [], [], 0, 0⟩)], queues := [(0, ⟨[], some 1, some [9], 0⟩)], mem := [] })
    let c : Nat := 1
    let n : Nat := 3
    let p : Pool := { Pool.init with sites := [(0, ⟨100, [], 4, [], [], 0, 0⟩)], queues := [(0, ⟨[], some 1, some [9], 0⟩)], mem := [], rot := 1 }
    decide ((s.pool.queue q.val).waiting = some data ∧ (s.dev.qStream q.val = false) ∧ (s.dev.running .queue q.val = true) ∧ (s.dev.qOcc q.val < s.dev.get .CPL_Q_QUOTA_quota q.val) ∧ (s.pool.queue q.val).spare = some c ∧ (s.pool.alloc = some (n, p)))) = true ∧
   (let q : Queue := 0
    let s : State := mk [(.CPL_Q_QUOTA_quota, 0, 4)] (fun d => d.setUst .queue 0 0) ({ Pool.init with sites := [(0, ⟨100, [], 3, [], [], 0, 0⟩)], queues := [(0, ⟨[], some 1, none, 0⟩)], mem := [] })
    let c : Nat := 1
    let n : Nat := 3
    let p : Pool := { Pool.init with sites := [(0, ⟨100, [], 4, [], [], 0, 0⟩)], queues := [(0, ⟨[], some 1, none, 0⟩)], mem := [], rot := 1 }
    decide ((s.dev.hostOpOk q.val = true) ∧ (s.dev.bit .CPL_Q_STAT_prod_wait q.val = false) ∧ (s.dev.qOcc q.val < s.dev.get .CPL_Q_QUOTA_quota q.val) ∧ (s.pool.queue q.val).spare = some c ∧ (s.pool.alloc = some (n, p)))) = true ∧
   (let q : Queue := 0
    let s : State := mk [(.CPL_Q_QUOTA_quota, 0, 1), (.CPL_Q_CFG_owner_kind, 0, 1), (.CPL_Q_WR_wr, 0, 1)] (fun d => d.setUst .queue 0 0) ({ Pool.init with sites := [(0, ⟨100, [], 3, [], [], 0, 0⟩)], queues := [(0, ⟨[2], some 1, none, 0⟩)], mem := [] })
    let c : Nat := 1
    decide ((s.dev.running .queue q.val = true) ∧ (s.dev.qStream q.val = true) ∧ (s.dev.qOcc q.val = s.dev.get .CPL_Q_QUOTA_quota q.val) ∧ (0 < s.dev.qOcc q.val) ∧ (s.pool.queue q.val).spare = some c ∧ (s.pool.alloc.isSome = true))) = true := by decide +kernel

theorem test_hyps_PopsReadCells_1 :
   (let q : Queue := 0
    let r : CellRead := ⟨1, [3], false⟩
    let s : State := mk [(.CPL_Q_QUOTA_quota, 0, 4), (.CPL_Q_WR_wr, 0, 2), (.CPL_Q_RD_rd, 0, 1)] (fun d => d.setUst .queue 0 0) ({ Pool.init with sites := [(0, ⟨100, [], 3, [], [], 0, 0⟩)], queues := [(0, ⟨[1, 2], none, none, 0⟩)], mem := [] })
    decide ((s.dev.running .queue q.val = true) ∧ (s.dev.qDepth q.val ≠ 0) ∧ (r.hdrFault = false) ∧ (s.pool.hole (s.qNext q.val) = false) ∧ (∀ g, s.dev.delayGroup q.val = some g → s.dev.readAhead g q.val = false))) = true ∧
   (let q : Queue := 0
    let s : State := mk [(.PRT_GRP_CFG_en, 0, 1), (.PRT_GRP_CFG_hitless, 0, 1), (.CPL_Q_CFG_en, 0, 1), (.CPL_Q_CFG_owner_kind, 0, 1), (.PRT_ALN_STAT_aln_state, 0, 1), (.PRT_ALN_STAT_seated, 0, 1)] (fun d => d.setUst .queue 0 0)
    let g : Nat := 0
    decide ((s.dev.delayGroup q.val = some g) ∧ (s.dev.readAhead g q.val = true))) = true ∧
   (let q : Queue := 0
    let s : State := mk [] (fun d => d.setUst .queue 0 0)
    decide ((s.dev.running .queue q.val = true) ∧ (s.dev.qDepth q.val = 0) ∧ (∀ g, s.dev.delayGroup q.val = some g → s.dev.readAhead g q.val = false))) = true ∧
   (let q : Queue := 0
    let r : CellRead := ⟨0, [], true⟩
    let s : State := mk [(.CPL_Q_QUOTA_quota, 0, 4), (.CPL_Q_WR_wr, 0, 2), (.CPL_Q_RD_rd, 0, 1)] (fun d => d.setUst .queue 0 0) ({ Pool.init with sites := [(0, ⟨100, [], 3, [], [], 0, 0⟩)], queues := [(0, ⟨[1, 2], none, none, 0⟩)], mem := [] })
    decide ((s.dev.running .queue q.val = true) ∧ (s.dev.qDepth q.val ≠ 0) ∧ (r.hdrFault = true ∨ s.pool.hole (s.qNext q.val) = true) ∧ (∀ g, s.dev.delayGroup q.val = some g → s.dev.readAhead g q.val = false))) = true ∧
   (let q : Queue := 0
    let r : CellRead := ⟨0, [], false⟩
    let s : State := mk [(.CPL_Q_QUOTA_quota, 0, 4), (.CPL_Q_WR_wr, 0, 2), (.CPL_Q_RD_rd, 0, 1), (.CPL_Q_STAT_cons_wait, 0, 1)] (fun d => d.setUst .queue 0 0) ({ Pool.init with sites := [(0, ⟨100, [], 3, [], [], 0, 0⟩)], queues := [(0, ⟨[1, 2], none, none, 0⟩)], mem := [] })
    decide ((s.dev.bit .CPL_Q_STAT_cons_wait q.val = true) ∧ (s.dev.running .queue q.val = true) ∧ (s.dev.qDepth q.val ≠ 0) ∧ (r.hdrFault = false) ∧ (s.pool.hole (s.qNext q.val) = false) ∧ (∀ g, s.dev.delayGroup q.val = some g → s.dev.readAhead g q.val = false))) = true := by decide +kernel

theorem test_hyps_PopsReadCells_2 :
   (let q : Queue := 0
    let r : CellRead := ⟨0, [], false⟩
    let s : State := mk [(.CPL_Q_QUOTA_quota, 0, 4), (.CPL_Q_WR_wr, 0, 2), (.CPL_Q_RD_rd, 0, 1)] (fun d => d.setUst .queue 0 0) ({ Pool.init with sites := [(0, ⟨100, [], 3, [], [], 0, 0⟩)], queues := [(0, ⟨[1, 2], none, none, 0⟩)], mem := [] })
    decide ((s.dev.hostOpOk q.val = true) ∧ (s.dev.qDepth q.val ≠ 0) ∧ (r.hdrFault = false) ∧ (s.pool.hole (s.qNext q.val) = false))) = true ∧
   (let s : State := mk [(.CPL_HOST_OP_busy, 0, 1)]
    decide ((s.dev.bit .CPL_HOST_OP_busy 0 = true))) = true := by decide +kernel

theorem test_hyps_QueueControlOperations :
   (let q : Queue := 0
    let p : Word := 1
    let s : State := mk [(.CPL_Q_QUOTA_quota, 0, 4), (.CPL_Q_WR_wr, 0, 2), (.CPL_Q_RD_rd, 0, 1), (.CPL_Q_STAT_mark_valid, 0, 1)] (fun d => d.setUst .queue 0 0) ({ Pool.init with sites := [(0, ⟨100, [], 3, [], [], 0, 0⟩)], queues := [(0, ⟨[1, 2], none, none, 0⟩)], mem := [] })
    decide ((p - s.dev.qRel q.val).toNat < 2 ^ 31)) = true ∧
   (let q : Queue := 0
    let s : State := mk [(.CPL_Q_QUOTA_quota, 0, 4), (.CPL_Q_WR_wr, 0, 2), (.CPL_Q_RD_rd, 0, 1), (.CPL_Q_CFG_release_mode, 0, 1)] (fun d => d.setUst .queue 0 0) ({ Pool.init with sites := [(0, ⟨100, [], 3, [], [], 0, 0⟩)], queues := [(0, ⟨[1, 2], none, none, 0⟩)], mem := [] })
    decide ((s.dev.bit .CPL_Q_CFG_release_mode q.val = true))) = true ∧
   (let q : Queue := 0
    let data : List Byte := []
    let r : CellRead := ⟨0, [], false⟩
    let p : Word := 0
    let faults : List (Queue × Nat) := []
    let i : Nat := 0
    let c : Instr := .mark 0
    let s : State := mk [(.CPL_Q_QUOTA_quota, 0, 4), (.CPL_Q_WR_wr, 0, 2), (.CPL_Q_RD_rd, 0, 1)] (fun d => d.setUst .queue 0 0) ({ Pool.init with sites := [(0, ⟨100, [], 3, [], [], 0, 0⟩)], queues := [(0, ⟨[1, 2], none, none, 0⟩)], mem := [] })
    decide ((c ∈ [.push q data, .pop q r, .popResume q r, .mark q, .markAt q p, .rewind q, .releaseTo q p, .laggedRelease q, .stallPushProceed q, .hostPush q, .hostPop q r, .hostCancel, .poolRebuild, .poolRebuildDone faults]) ∧ (i < 4096) ∧ (s.dev.qRdOff (i) ≤ s.dev.qOcc (i) ∧ (s.dev.bit .CPL_Q_STAT_mark_valid (i) = true → s.dev.qMarkOff (i) ≤ s.dev.qOcc (i)) ∧ s.dev.qOcc (i) ≤ 2 ^ 30))) = true := by decide +kernel

theorem test_hyps_PoolWindowAndUpkeep_1 :
   (let len : Nat := 4
    let s : State := mk [] (id) ({ Pool.init with sites := [(0, ⟨100, [], 3, [], [], 0, 0⟩)], queues := [(0, ⟨[1, 2], none, none, 0⟩)], mem := [] })
    decide ((s.dev.sys.held = false) ∧ (s.dev.takesMem len = true) ∧ (s.dev.hostStuck = false))) = true ∧
   (let data : List Byte := [1, 2, 0, 4]
    let s : State := mk [] (id) ({ Pool.init with sites := [(0, ⟨100, [], 3, [], [], 0, 0⟩)], queues := [(0, ⟨[1, 2], none, none, 0⟩)], mem := [(512, 3)] })
    decide ((s.dev.sys.held = false) ∧ (s.dev.takesMem data.length = true) ∧ (s.dev.hostStuck = false) ∧ (memWf s.pool.mem = true))) = true ∧
   (let len : Nat := 600
    let s : State := mk []
    decide ((s.dev.sys.held = false) ∧ (s.dev.takesMem len = false))) = true ∧
   (let data : List Byte := List.replicate 600 0
    let s : State := mk []
    decide ((s.dev.sys.held = false) ∧ (s.dev.takesMem data.length = false))) = true ∧
   (let s : State := mk []
    decide ((s.dev.queuesStopped = true) ∧ (s.dev.bit .CPL_POOL_STAT_rebuild_busy 0 = false))) = true := by decide +kernel

theorem test_hyps_PoolWindowAndUpkeep_2 :
   (let s : State := mk [(.CPL_POOL_STAT_rebuild_busy, 0, 1), (.CPL_Q_QUOTA_quota, 0, 4), (.CPL_Q_WR_wr, 0, 2), (.CPL_Q_RD_rd, 0, 1)] (fun d => d.setUst .queue 0 0) ({ Pool.init with sites := [(0, ⟨100, [], 3, [], [], 0, 0⟩)], queues := [(0, ⟨[1, 2], none, none, 0⟩)], mem := [] })
    decide ((s.dev.bit .CPL_POOL_STAT_rebuild_busy 0 = true))) = true ∧
   (let s : State := mk [(.CHK_SCRUB_CTL_scrub_rate, 0, 64)] (fun d => d.setPd 93 true) ({ Pool.init with sites := [(0, ⟨100, [], 3, [], [], 0, 0⟩)], queues := [(0, ⟨[1, 2], none, none, 0⟩)], mem := [] })
    let k : Nat := 0
    let i : Nat := 0
    decide ((s.dev.get .CHK_SCRUB_CTL_scrub_rate 0 ≠ 0) ∧ (s.dev.scanOn = true) ∧ (s.dev.bit .CPL_POOL_STAT_rebuild_busy 0 = false) ∧ (s.pool.scrubNext s.dev.check.scrubSite s.dev.check.scrubIdx).1 = some (k, i) ∧ (i < 2 ^ 25))) = true := by decide +kernel

theorem test_hyps_CommandsOfAGroup_1 :
   (let g : Group := 0
    let s : State := mk [(.PAIR_STAT_agent_state, 0, 2)] (fun d => d.setUst .pgroup 0 0)
    decide ((s.dev.running .pgroup g.val = true) ∧ (s.dev.standby = false))) = true ∧
   (let g : Group := 0
    let sig : BitVec 4 := 1
    let s : State := mk [(.PAIR_STAT_agent_state, 0, 2), (.PRT_GRP_CFG_n, 0, 1)] (fun d => d.setUst .pgroup 0 0)
    decide ((s.dev.running .pgroup g.val = true) ∧ (s.dev.standby = false) ∧ (sig ≠ 0) ∧ (sig.toNat ≤ s.dev.get .PRT_GRP_CFG_n g.val) ∧ (s.dev.topReq g.val ≤ 0xD) ∧ (s.dev.group g.val).condition.1 < 0xD ∧ (s.dev.bidir g.val = false))) = true ∧
   (let g : Group := 0
    let sig : BitVec 4 := 1
    let s : State := mk [(.PAIR_STAT_agent_state, 0, 2), (.PRT_GRP_CFG_n, 0, 1)] (fun d => d.setUst .pgroup 0 0)
    decide ((s.dev.running .pgroup g.val = true) ∧ (s.dev.standby = false) ∧ (sig.toNat ≤ s.dev.get .PRT_GRP_CFG_n g.val) ∧ (s.dev.topReq g.val ≤ 0x7) ∧ (s.dev.group g.val).condition.1 = 0 ∧ (s.dev.bidir g.val = false))) = true ∧
   (let g : Group := 0
    let sig : BitVec 4 := 1
    let s : State := mk [(.PAIR_STAT_agent_state, 0, 2), (.PRT_GRP_CFG_n, 0, 1)] (fun d => d.setUst .pgroup 0 0)
    decide ((s.dev.running .pgroup g.val = true) ∧ (s.dev.standby = false) ∧ (sig.toNat ≤ s.dev.get .PRT_GRP_CFG_n g.val) ∧ (s.dev.topReq g.val ≤ 0x4) ∧ (s.dev.group g.val).condition.1 = 0 ∧ (s.dev.group g.val).wtrAt = none ∧ (s.dev.bidir g.val = false))) = true ∧
   (let g : Group := 0
    let s : State := mk []
    decide ((s.dev.standby = false) ∧ (s.dev.running .pgroup g.val = false))) = true := by decide +kernel

theorem test_hyps_CommandsOfAGroup_2 :
   (let g : Group := 0
    let sig : BitVec 4 := 5
    let s : State := mk []
    decide ((s.dev.standby = false) ∧ (s.dev.get .PRT_GRP_CFG_n g.val < sig.toNat))) = true ∧
   (let s : State := mk []
    decide ((s.dev.standby = false))) = true ∧
   (let g : Group := 0
    let s : State := mk [(.PRT_GRP_STAT_req_local, 0, 15), (.PRT_GRP_CFG_n, 0, 1)] (fun d => d.setUst .pgroup 0 0)
    decide ((s.dev.standby = false) ∧ (0xD < s.dev.topReq g.val))) = true ∧
   (let g : Group := 0
    let s : State := mk [(.PRT_GRP_STAT_req_local, 0, 15), (.PRT_GRP_CFG_n, 0, 1)] (fun d => d.setUst .pgroup 0 0)
    decide ((s.dev.standby = false) ∧ (0x7 < s.dev.topReq g.val))) = true ∧
   (let g : Group := 0
    let s : State := mk [(.PRT_GRP_STAT_req_local, 0, 15), (.PRT_GRP_CFG_n, 0, 1)] (fun d => d.setUst .pgroup 0 0)
    decide ((s.dev.standby = false) ∧ (0x4 < s.dev.topReq g.val))) = true := by decide +kernel

theorem test_hyps_CommandsOfAGroup_3 :
   (let g : Group := 0
    let s : State := mk [(.PAIR_STAT_agent_state, 0, 2)] (fun d => (d.setUst .pgroup 0 0).setGroup 0 { d.group 0 with wtrAt := some 5 })
    decide ((s.dev.running .pgroup g.val = true) ∧ (s.dev.standby = false))) = true ∧
   (let g : Group := 0
    let s : State := mk [(.PAIR_STAT_agent_state, 0, 2), (.PRT_GRP_STAT_frozen, 0, 1)] (fun d => d.setUst .pgroup 0 0)
    decide ((s.dev.running .pgroup g.val = true) ∧ (s.dev.bit .PRT_GRP_STAT_frozen g.val = true) ∧ (s.dev.standby = false))) = true ∧
   (let g : Group := 0
    let s : State := mk []
    decide ((s.dev.bit .PRT_GRP_STAT_frozen g.val = false) ∧ (s.dev.standby = false))) = true := by decide +kernel

theorem test_hyps_TimersAndDecisions_1 :
   (let g : Group := 0
    let s : State := mk [(.PAIR_STAT_agent_state, 0, 2), (.PRT_GRP_STAT_holdoff_run, 0, 1)] (fun d => (d.setUst .pgroup 0 0).setGroup 0 { d.group 0 with rawSf := 2, holdAt := some 0 })
    decide ((s.dev.bit .PRT_GRP_STAT_holdoff_run g.val = true) ∧ (timeUp (s.dev.group g.val).holdAt s.dev.now (s.dev.holdTime g.val) = true))) = true ∧
   (let g : Group := 0
    let s : State := mk [(.PAIR_STAT_agent_state, 0, 2), (.PRT_GRP_STAT_wtr_run, 0, 1), (.PRT_GRP_CFG_revertive, 0, 1)] (fun d => { ((d.setUst .pgroup 0 0).setGroup 0 { d.group 0 with wtrAt := some 0, want := 1 }) with dtime := BitVec.ofNat 64 (10 ^ 13) })
    decide ((s.dev.bit .PRT_GRP_STAT_wtr_run g.val = true) ∧ (timeUp (s.dev.group g.val).wtrAt s.dev.now (s.dev.wtrTime g.val) = true) ∧ (s.dev.bit .PRT_GRP_CFG_revertive g.val = true) ∧ (s.dev.running .pgroup g.val = true) ∧ (s.dev.standby = false) ∧ (s.dev.bidir g.val = false) ∧ (s.dev.group g.val).condition.1 = 0 ∧ (s.dev.group g.val).cmd = 0)) = true ∧
   (let g : Group := 0
    let s : State := mk [(.PAIR_STAT_agent_state, 0, 2)] (fun d => (d.setUst .pgroup 0 0).setGroup 0 { d.group 0 with changed := true, want := 1 })
    decide ((s.dev.running .pgroup g.val = true) ∧ (s.dev.standby = false) ∧ (s.dev.bit .PRT_GRP_STAT_frozen g.val = false) ∧ (s.dev.hlCfg g.val = false) ∧ (s.dev.onePlusOne g.val = true) ∧ (s.dev.group g.val).changed = true ∧ (s.dev.group g.val).want < 16)) = true ∧
   (let g : Group := 0
    let s : State := mk [(.PAIR_STAT_agent_state, 0, 2), (.PRT_GRP_CFG_en, 0, 1), (.PRT_GRP_CFG_hitless, 0, 1), (.CPL_Q_CFG_en, 0, 1), (.CPL_Q_CFG_owner_kind, 0, 1)] (fun d => (d.setUst .pgroup 0 0).setGroup 0 { d.group 0 with changed := true, want := 1 })
    let q : Nat := 0
    decide ((s.dev.running .pgroup g.val = true) ∧ (s.dev.standby = false) ∧ (s.dev.bit .PRT_GRP_STAT_frozen g.val = false) ∧ (s.dev.hlCfg g.val = true) ∧ (s.dev.delayQueue g.val = some q) ∧ (s.dev.group g.val).changed = true ∧ (s.dev.group g.val).want < 16 ∧ (s.dev.group g.val).want ≠ s.dev.get .PRT_GRP_STAT_sel_sig g.val ∧ (s.dev.hlTaken g.val = false) ∧ (s.dev.onePlusOne g.val = true))) = true ∧
   (let g : Group := 0
    let s : State := mk [(.PAIR_STAT_agent_state, 0, 2)] (fun d => (d.setUst .pgroup 0 0).setGroup 0 { d.group 0 with decided := some 1 })
    let new : Nat := 1
    decide ((s.dev.running .pgroup g.val = true) ∧ (s.dev.standby = false) ∧ (s.dev.bit .PRT_GRP_STAT_frozen g.val = false) ∧ (s.dev.group g.val).changed = false ∧ (s.dev.group g.val).decided = some new ∧ (new < 16) ∧ (s.dev.givesBoundary (s.dev.selectedSrc g.val new) = false))) = true := by decide +kernel

theorem test_hyps_TimersAndDecisions_2 :
   (let g : Group := 0
    let s : State := mk [(.PAIR_STAT_agent_state, 0, 2)] (fun d => (d.setUst .pgroup 0 0).setGroup 0 { d.group 0 with decided := some 1 })
    let new : Nat := 1
    decide ((s.dev.running .pgroup g.val = true) ∧ (s.dev.bit .PRT_GRP_STAT_frozen g.val = false) ∧ (s.dev.group g.val).decided = some new ∧ (new < 16))) = true := by decide +kernel

theorem test_hyps_LapsAndProbes :
   (let g : Group := 0
    let late : Bool := false
    let valid : Bool := true
    let s : State := mk [(.PRT_ALN_STAT_aln_state, 0, 1)] (fun d => (d.setUst .pgroup 0 0).setGroup 0 { d.group 0 with lapERun := 3 })
    decide ((s.dev.hlState g.val ≠ 0) ∧ (let run := if late then (s.dev.group g.val).lapLRun else (s.dev.group g.val).lapERun; if valid then 3 ≤ run else run ≤ -3))) = true ∧
   (let g : Group := 0
    let s : State := mk [(.PRT_ALN_STAT_aln_state, 0, 1)] (fun d => (d.setUst .pgroup 0 0).setGroup 0 { d.group 0 with fe := 20, early := (List.range 16).map (fun k => (⟨BitVec.ofNat 32 k, 0, true, true, 0⟩ : FrameSig)) })
    let x := s.dev.group g.val
    let w := (x.early.take 16).reverse
    decide ((s.dev.hlState g.val ≠ 0) ∧ (s.dev.hlLap g.val = false) ∧ (x.probe = none) ∧ (w.length = 16) ∧ (w.all (fun y => y.inFrame && y.clean) = true) ∧ (12 ≤ (w.map (·.sig)).eraseDups.length))) = true ∧
   (let g : Group := 0
    let s : State := mk [(.PRT_ALN_STAT_aln_state, 0, 1)] (fun d => (d.setUst .pgroup 0 0).setGroup 0 { d.group 0 with fl := 30, late := (List.range 16).map (fun k => (⟨BitVec.ofNat 32 k, 0, true, true, 0⟩ : FrameSig)), probe := some ⟨(((List.range 16).map (fun k => (⟨BitVec.ofNat 32 k, 0, true, true, 0⟩ : FrameSig))).take 16).reverse.map (·.sig), 4, 0⟩ })
    let p : Probe := ⟨(((List.range 16).map (fun k => (⟨BitVec.ofNat 32 k, 0, true, true, 0⟩ : FrameSig))).take 16).reverse.map (·.sig), 4, 0⟩
    let x := s.dev.group g.val
    decide ((s.dev.hlState g.val ≠ 0) ∧ (x.probe = some p) ∧ (x.late.take 16).reverse.map (·.sig) = p.sigs)) = true ∧
   (let g : Group := 0
    let s : State := mk [(.PRT_ALN_STAT_aln_state, 0, 1)] (fun d => (d.setUst .pgroup 0 0).setGroup 0 { d.group 0 with fe := 40, early := (List.range 16).map (fun k => (⟨BitVec.ofNat 32 k, 0, true, true, 0⟩ : FrameSig)), probe := some ⟨(((List.range 16).map (fun k => (⟨BitVec.ofNat 32 k, 0, true, true, 0⟩ : FrameSig))).take 16).reverse.map (·.sig), 4, 0⟩ })
    let p : Probe := ⟨(((List.range 16).map (fun k => (⟨BitVec.ofNat 32 k, 0, true, true, 0⟩ : FrameSig))).take 16).reverse.map (·.sig), 4, 0⟩
    let x := s.dev.group g.val
    decide ((x.probe = some p) ∧ (p.fe + 16 < x.fe) ∧ (x.early.take 16).reverse.map (·.sig) = p.sigs)) = true ∧
   (let g : Group := 0
    let s : State := mk [(.PRT_ALN_STAT_aln_state, 0, 3), (.ODU_CFG_kind, 0, 2)] (fun d => (d.setUst .pgroup 0 0).setGroup 0 { d.group 0 with expired := 1, probe := some ⟨(((List.range 16).map (fun k => (⟨BitVec.ofNat 32 k, 0, true, true, 0⟩ : FrameSig))).take 16).reverse.map (·.sig), 4, 10000000⟩ })
    let p : Probe := ⟨(((List.range 16).map (fun k => (⟨BitVec.ofNat 32 k, 0, true, true, 0⟩ : FrameSig))).take 16).reverse.map (·.sig), 4, 10000000⟩
    decide ((s.dev.group g.val).probe = some p ∧ (s.dev.probeLimit g.val ≤ p.late))) = true := by decide +kernel

theorem test_hyps_AlignmentStates :
   (let g : Group := 0
    let s : State := mk [(.PRT_ALN_STAT_aln_state, 0, 1), (.ODU_CFG_kind, 0, 2), (.PRT_GRP_ALN_dmax, 0, 2000), (.CPL_Q_CFG_en, 0, 1), (.CPL_Q_CFG_owner_kind, 0, 1), (.CPL_Q_QUOTA_quota, 0, 65535)] (fun d => (d.setUst .pgroup 0 0).setGroup 0 { d.group 0 with cand := some (0, 8), fe := 10, fl := 10, early := [⟨1, 0, true, true, 0⟩], late := [⟨1, 0, true, true, 5000000⟩] })
    let q : Nat := 0
    let n : Nat := 8
    let dl : Int := 0
    let f : FrameSig := ⟨1, 0, true, true, 5000000⟩
    let y : FrameSig := ⟨1, 0, true, true, 0⟩
    let x := s.dev.group g.val
    decide ((s.dev.hlState g.val = 1) ∧ (x.cand = some (dl, n)) ∧ (8 ≤ n) ∧ (s.dev.delayQueue g.val = some q) ∧ (x.late.head? = some f) ∧ (x.earlyAt ((x.fl : Int) - 1 - dl) = some y) ∧ (s.dev.hlLimit g.val q (f.at_.toNat - y.at_.toNat) = 0))) = true ∧
   (let g : Group := 0
    let s : State := mk [(.PRT_ALN_STAT_aln_state, 0, 3)] (fun d => (d.setUst .pgroup 0 0).setGroup 0 { d.group 0 with matchRun := 8 })
    decide ((s.dev.hlState g.val = 3 ∨ s.dev.hlState g.val = 4) ∧ (8 ≤ (s.dev.group g.val).matchRun))) = true ∧
   (let g : Group := 0
    let s : State := mk [(.PRT_ALN_STAT_aln_state, 0, 2), (.PRT_ALN_STAT_mm_run, 0, 8)] (fun d => d.setUst .pgroup 0 0)
    decide ((s.dev.hlState g.val = 2 ∨ s.dev.hlState g.val = 4) ∧ (s.dev.get .PRT_ALN_STAT_mm_run g.val = 8))) = true ∧
   (let g : Group := 0
    let s : State := mk [(.PRT_ALN_STAT_aln_state, 0, 2)] (fun d => (d.setUst .pgroup 0 0).setGroup 0 { d.group 0 with blindRun := 64 })
    decide ((s.dev.hlState g.val = 2 ∨ s.dev.hlState g.val = 3) ∧ (s.dev.hlLap g.val = false) ∧ (64 ≤ (s.dev.group g.val).blindRun))) = true := by decide +kernel

theorem test_hyps_EpochsAndHeartbeats_1 :
   (let s : State := mk [(.PAIR_STAT_agent_state, 0, 2)] (fun d => { (d.setPd 90 true) with pair := { d.pair with batonLink := true } })
    decide ((s.dev.agentOwns = true) ∧ (s.dev.batonReady = true))) = true ∧
   (let s : State := mk [(.PAIR_STAT_agent_state, 0, 5)] (fun d => { (d.setPd 90 true) with pair := { d.pair with batonLink := true } })
    decide ((s.dev.standby = true) ∧ (s.dev.batonReady = true))) = true ∧
   (let b : List Byte := BatonMsg.bytes id (wholeMsg ⟨3, 1, 5, 100, 0, 5, 0, false, false, true, true, false, false, 0, 80, 0, 3, 0, 1, 1⟩)
    let s : State := mk [(.PAIR_STAT_agent_state, 0, 2)] (fun d => { (d.setPd 90 true) with pair := { d.pair with batonLink := true, hdr := some ((BatonHeader.bytes ⟨3, 1, 5, 100, 0, 5, 0, false, false, true, true, false, false, 0, 80, 0, 3, 0, 1, 1⟩), true) } })
    let h := BatonHeader.read b
    decide ((s.dev.batonReady = true) ∧ (s.dev.pair.hdr = some (b.take 64, true)) ∧ (s.dev.agentOwns = true) ∧ (h.pairId ≠ s.dev.bit .PAIR_CTL_pair_id 0) ∧ (discardReason b true 3 none = 0))) = true ∧
   (let b : List Byte := (BatonHeader.bytes ⟨1, 1, 5, 100, 0, 2, 0, false, false, true, true, false, false, 0, 80, 0, 3, 0, 1, 1⟩)
    let s : State := mk [(.PAIR_STAT_agent_state, 0, 2)] (fun d => { (d.setPd 90 true) with pair := { d.pair with batonLink := true } })
    let n : Nat := 0
    let h := BatonHeader.read b
    decide ((s.dev.batonReady = true) ∧ (hcrcOk b = true) ∧ (s.dev.pair.rxBaton.judge 32 true h.alive).2 = .accepted n ∧ (h.pairId ≠ s.dev.bit .PAIR_CTL_pair_id 0) ∧ (s.dev.bit .PAIR_STAT_baton_up 0 = false))) = true ∧
   (let b : List Byte := PacerFrame.bytes ⟨1, 2, 5, 0, false, false, true, true, false, false, 0, 0⟩
    let s : State := mk [(.PAIR_STAT_agent_state, 0, 5)]
    let n : Nat := 0
    let f := PacerFrame.read b
    decide ((pacerCrcOk b = true) ∧ (f.version = 1) ∧ (s.dev.sys.held = false) ∧ (s.dev.pair.rxPacer.judge 16 true f.alive).2 = .accepted n ∧ (f.pairId ≠ s.dev.bit .PAIR_CTL_pair_id 0) ∧ (s.dev.bit .PAIR_STAT_pacer_up 0 = false))) = true := by decide +kernel

theorem test_hyps_EpochsAndHeartbeats_2 :
   (let p : PairPath := .baton
    let s : State := mk [(.PAIR_STAT_agent_state, 0, 2), (.PAIR_STAT_baton_up, 0, 1), (.PAIR_CTL_iso_policy, 0, 1)]
    let up : Fld := if p = .baton then .PAIR_STAT_baton_up else .PAIR_STAT_pacer_up
    decide ((s.dev.bit up 0 = true) ∧ (s.dev.silenceUp (p == .baton) = true))) = true ∧
   (let s : State := mk [] (fun d => { (d.setPd 90 true) with pair := { d.pair with batonLink := true } })
    decide ((s.dev.pdOn domBaton = true))) = true := by decide +kernel

theorem test_hyps_AgentTransitions_1 :
   (let s : State := mk []
    decide ((s.dev.sys.held = false))) = true ∧
   (let s : State := mk [(.PAIR_STAT_agent_state, 0, 5), (.PAIR_STAT_arb_req, 0, 1), (.PAIR_HEALTH_CTL_health_mask, 0, 0)]
    decide ((s.dev.takeWanted = true) ∧ (s.dev.bit .PAIR_STAT_arb_req 0 = true) ∧ (s.dev.unhealthy = false))) = true ∧
   (let s : State := mk [(.PAIR_STAT_agent_state, 0, 1), (.PAIR_STAT_arb_req, 0, 1)] (fun d => d.onPair (fun p => { p with absentEpochs := 1000 }))
    decide ((s.dev.agent = 1) ∧ (s.dev.get .PAIR_CTL_disc_epochs 0 ≤ s.dev.pair.absentEpochs) ∧ (s.dev.bit .PAIR_STAT_arb_req 0 = true))) = true ∧
   (let s : State := mk [(.PAIR_STAT_agent_state, 0, 4), (.PAIR_STAT_arb_req, 0, 1), (.PAIR_HEALTH_CTL_health_mask, 0, 0)] (fun d => d.onPair (fun p => { p with absentEpochs := 1000 }))
    decide ((s.dev.agent = 4) ∧ (s.dev.get .PAIR_CTL_disc_epochs 0 ≤ s.dev.pair.absentEpochs) ∧ (s.dev.bit .PAIR_STAT_arb_req 0 = true) ∧ (s.dev.unhealthy = false) ∧ (s.dev.bit .PAIR_CTL_pair_id 0 = false))) = true ∧
   (let s : State := mk [(.PAIR_STAT_agent_state, 0, 3)] (fun d => d.onPair (fun p => { p with absentEpochs := 1000 }))
    decide ((s.dev.agent = 3) ∧ (s.dev.get .PAIR_CTL_yield_to 0 ≤ s.dev.pair.absentEpochs))) = true := by decide +kernel

theorem test_hyps_AgentTransitions_2 :
   (let s : State := mk [(.PAIR_STAT_agent_state, 0, 5)]
    decide ((s.dev.agent = 5 ∨ s.dev.agent = 6))) = true ∧
   (let s : State := mk []
    decide ((s.dev.agent ≠ 5) ∧ (s.dev.agent ≠ 6))) = true := by decide +kernel

theorem test_hyps_MirrorReceives :
   (let b : List Byte := BatonMsg.bytes id (wholeMsg ⟨1, 1, 5, 100, 0, 2, 0, false, false, true, true, false, false, 0, 80, 0, 3, 0, 1, 1⟩)
    let s : State := mk [(.PAIR_STAT_agent_state, 0, 5)] (fun d => { ((d.setUst .pairagent 0 0).setPd 90 true) with pair := { d.pair with batonLink := true, lastApplied := 99, hdr := some ((BatonHeader.bytes ⟨1, 1, 5, 100, 0, 2, 0, false, false, true, true, false, false, 0, 80, 0, 3, 0, 1, 1⟩), true) } })
    let m := BatonMsg.read b
    decide ((s.dev.batonReady = true) ∧ (s.dev.pair.hdr = some (b.take 64, true)) ∧ (s.dev.agent = 5) ∧ (s.dev.copying = true) ∧ (m.hdr.pairId ≠ s.dev.bit .PAIR_CTL_pair_id 0) ∧ (discardReason b true 1 (some s.dev.pair.lastApplied) = 0) ∧ (m.hdr.suspended = false) ∧ (m.hdr.resyncReq = false) ∧ (m.hdr.final = false))) = true ∧
   (let b : List Byte := BatonMsg.bytes id (wholeMsg ⟨1, 1, 5, 100, 0, 2, 0, false, false, true, true, false, false, 0, 80, 0, 3, 0, 1, 1⟩)
    let ok : Bool := true
    let s : State := mk [(.PAIR_STAT_agent_state, 0, 5)] (fun d => { ((d.setUst .pairagent 0 0).setPd 90 true) with pair := { d.pair with batonLink := true, lastApplied := 100, hdr := some ((BatonHeader.bytes ⟨1, 1, 5, 100, 0, 2, 0, false, false, true, true, false, false, 0, 80, 0, 3, 0, 1, 1⟩), true) } })
    decide ((s.dev.batonReady = true) ∧ (s.dev.pair.hdr = some (b.take 64, ok)) ∧ (s.dev.agent = 4 ∨ s.dev.agent = 5 ∨ s.dev.agent = 6) ∧ (s.dev.ownMsg b = false) ∧ (discardReason b ok 1 (some s.dev.pair.lastApplied) ≠ 0))) = true ∧
   (let b : List Byte := BatonMsg.bytes id (wholeMsg ⟨2, 1, 5, 100, 0, 2, 0, false, false, true, true, false, false, 0, 80, 0, 3, 0, 1, 1⟩)
    let s : State := mk [(.PAIR_STAT_agent_state, 0, 4)] (fun d => { ((d.setUst .pairagent 0 0).setPd 90 true) with pair := { d.pair with batonLink := true, hdr := some ((BatonHeader.bytes ⟨2, 1, 5, 100, 0, 2, 0, false, false, true, true, false, false, 0, 80, 0, 3, 0, 1, 1⟩), true) } })
    let m := BatonMsg.read b
    let k := m.hdr.part.toNat
    decide ((s.dev.batonReady = true) ∧ (s.dev.pair.hdr = some (b.take 64, true)) ∧ (s.dev.agent = 4) ∧ (s.dev.pair.snapOk = false) ∧ (s.dev.copying = true) ∧ (m.hdr.pairId ≠ s.dev.bit .PAIR_CTL_pair_id 0) ∧ (discardReason b true 2 none = 0) ∧ (k = 0 ∨ (k = s.dev.get .PAIR_SYNC_STAT_parts_rx 0 ∧ m.hdr.epoch.toNat = s.dev.pair.snapCut)))) = true := by decide +kernel

theorem test_hyps_PairBytesReadBack_1 :
   (let e : SelEntry := ⟨65535, 1, 2, 3, 15, 7, 6, true, false, true, 9, 1000, 65535, 5, 0xFFFFFFFF, 3, 0x80000000, 77⟩
    decide ((e.g < 2 ^ 16))) = true ∧
   (let e : FiltEntry := ⟨4095, 3, 2, true, 9, 10, -(2 ^ 47), 2 ^ 47 - 1, -1⟩
    decide ((e.c < 2 ^ 16) ∧ (∀ v ∈ [e.m, e.i, e.phi], -(2 ^ 47) ≤ v ∧ v < 2 ^ 47))) = true ∧
   (let src : Nat → Nat := fun n => n
    let k : Nat := 5
    let l : Nat := 255
    let v : List Byte := List.replicate 64 7
    decide ((src k < 2 ^ 16) ∧ (srcOfWord (src k) = k) ∧ (l < 256) ∧ (v.length = 64))) = true ∧
   (let src : Nat → Nat := fun n => n
    let k : Nat := 5
    let l : Nat := 255
    decide ((src k < 2 ^ 16) ∧ (srcOfWord (src k) = k) ∧ (l < 256))) = true ∧
   (let n : Nat := 191
    let tpn : List Byte := List.replicate 160 3
    let occ : List Bool := (List.range 160).map (fun i => i % 3 == 0)
    decide ((n < 2 ^ 16) ∧ (tpn.length = 160) ∧ (occ.length = 160))) = true := by decide +kernel

theorem test_hyps_PairBytesReadBack_2 :
   (let t : Nat := 3071
    let ts : List Word := [1, 2, 3, 4, 0xFFFFFFFF]
    decide ((t < 2 ^ 16) ∧ (ts.length = 5))) = true ∧
   (let h : BatonHeader := ⟨3, 1, 5, 100, 0, 2, 0, false, false, true, true, false, false, 0, 80, 0, 3, 0, 1, 1⟩
    decide ((h.kind = 3) ∧ (h.version = 1) ∧ (h.nsec = 0) ∧ (h.length = 80))) = true := by decide +kernel

theorem test_hyps_CrcEngines_1 :
   (let k : CkEng := 0
    let s : State := mk [(.CHK_CK_CFG_width, 0, 64)] (fun d => d.setPd 93 true)
    decide ((s.dev.scanOn = true) ∧ (s.dev.bit .CHK_CK_STAT_scan_owned k.val = false) ∧ (s.dev.ckWidthOk k.val = true))) = true ∧
   (let k : CkEng := 0
    let p : BitVec 3 := 1
    let c : CrcParams := (crcPreset 1).getD ⟨0, 0, 0, false, false, 0⟩
    let s : State := mk [] (fun d => d.setPd 93 true)
    decide ((s.dev.scanOn = true) ∧ (s.dev.bit .CHK_CK_STAT_scan_owned k.val = false) ∧ (crcPreset p.toNat = some c))) = true ∧
   (let k : CkEng := 0
    let s : State := mk [(.CHK_CK_CFG_width, 0, 64)] (fun d => d.setPd 93 true)
    decide ((s.dev.scanOn = true) ∧ (s.dev.bit .CHK_CK_STAT_scan_owned k.val = false) ∧ (s.dev.ckWidthOk k.val = true))) = true ∧
   (let k : CkEng := 0
    let s : State := mk [(.CHK_CK_CFG_width, 0, 1)] (fun d => d.setPd 93 true)
    decide ((s.dev.scanOn = true) ∧ (s.dev.bit .CHK_CK_STAT_scan_owned k.val = false) ∧ (s.dev.ckWidthOk k.val = true))) = true ∧
   (let k : CkEng := 0
    let s : State := mk [(.CHK_CK_CFG_width, 0, 32)] (fun d => d.setPd 93 true)
    decide ((s.dev.scanOn = true) ∧ (s.dev.bit .CHK_CK_STAT_scan_owned k.val = false))) = true := by decide +kernel

theorem test_hyps_CrcEngines_2 :
   (let k : CkEng := 0
    let s : State := mk [(.CHK_CK_STAT_scan_owned, 0, 1)] (fun d => d.setPd 93 true)
    decide ((s.dev.scanOn = true) ∧ (s.dev.bit .CHK_CK_STAT_scan_owned k.val = true))) = true := by decide +kernel

theorem test_hyps_ScansAndTables_1 :
   (let s : State := mk [(.CHK_SCAN_COUNT_count, 0, 2), (.CHK_SCAN_CTL_ck, 0, 3)] (fun d => d.setPd 93 true)
    decide ((s.dev.scanOn = true) ∧ (s.dev.bit .CHK_SCAN_CMD_busy 0 = false))) = true ∧
   (let s : State := mk [(.CHK_SCAN_COUNT_count, 0, 2), (.CHK_SCAN_CTL_ck, 0, 3), (.CHK_SCAN_CMD_busy, 0, 1)] (fun d => { (d.setPd 93 true) with check := { d.check with scanJob := some ⟨1, false, 3, 0, 2, 1, 4⟩ } })
    let j : ScanJob := ⟨1, false, 3, 0, 2, 1, 4⟩
    let pos := s.dev.get .CHK_SCAN_POS_pos 0
    decide ((s.dev.check.scanJob = some j) ∧ (j.scrub = false) ∧ (pos ≤ j.count))) = true ∧
   (let s : State := mk [(.CHK_SCAN_COUNT_count, 0, 2), (.CHK_SCAN_CTL_ck, 0, 3), (.CHK_SCAN_CMD_busy, 0, 1), (.CPL_POOL_STAT_rebuild_busy, 0, 1)] (fun d => { (d.setPd 93 true) with check := { d.check with scanJob := some ⟨1, true, 3, 0, 2, 1, 4⟩ } })
    let j : ScanJob := ⟨1, true, 3, 0, 2, 1, 4⟩
    decide ((s.dev.check.scanJob = some j) ∧ (j.scrub = true) ∧ (s.dev.bit .CPL_POOL_STAT_rebuild_busy 0 = true))) = true ∧
   (let s : State := mk [(.CHK_SCAN_COUNT_count, 0, 2), (.CHK_SCAN_CTL_ck, 0, 3), (.CHK_SCAN_CMD_busy, 0, 1)] (fun d => { (d.setPd 93 true) with check := { d.check with scanJob := some ⟨0, true, 3, 1024, 2, 1, 4⟩ } }) ({ Pool.init with sites := [(0, ⟨100, [], 3, [], [], 0, 0⟩)], queues := [(0, ⟨[1, 2], none, none, 0⟩)], mem := [] })
    let j : ScanJob := ⟨0, true, 3, 1024, 2, 1, 4⟩
    decide ((s.dev.check.scanJob = some j) ∧ (j.scrub = true) ∧ (s.dev.bit .CPL_POOL_STAT_rebuild_busy 0 = false) ∧ (s.dev.get .CHK_SCAN_POS_pos 0 ≤ j.count))) = true ∧
   (let r : CellRead := ⟨2, [], false⟩
    let s : State := mk [(.CHK_SCAN_COUNT_count, 0, 2), (.CHK_SCAN_CTL_ck, 0, 3), (.CHK_SCAN_CMD_busy, 0, 1)] (fun d => { (d.setPd 93 true) with check := { d.check with scanJob := some ⟨0, true, 3, 1024, 1, 1, 4⟩ } }) ({ Pool.init with sites := [(0, ⟨100, [], 3, [], [], 0, 0⟩)], queues := [(0, ⟨[1, 2], none, none, 0⟩)], mem := [] })
    let j : ScanJob := ⟨0, true, 3, 1024, 1, 1, 4⟩
    let a := j.start + s.dev.get .CHK_SCAN_POS_pos 0 * j.stride
    decide ((s.dev.check.scanJob = some j) ∧ (j.scrub = true) ∧ (s.dev.bit .CPL_POOL_STAT_rebuild_busy 0 = false) ∧ (j.count = s.dev.get .CHK_SCAN_POS_pos 0 + 1) ∧ (a + j.elem - 1) / 512 = a / 512 ∧ (s.pool.hole (a / 512) = false) ∧ (r.uncorr = []))) = true := by decide +kernel

theorem test_hyps_ScansAndTables_2 :
   (let pos : Nat := 2
    let s : State := mk [(.CHK_SCAN_COUNT_count, 0, 2), (.CHK_SCAN_CTL_ck, 0, 3), (.CHK_SCAN_CMD_busy, 0, 1), (.CHK_SCAN_POS_pos, 0, 1)] (fun d => { (d.setPd 93 true) with check := { d.check with scanJob := some ⟨1, false, 3, 0, 2, 1, 4⟩ } })
    let j : ScanJob := ⟨1, false, 3, 0, 2, 1, 4⟩
    decide ((s.dev.check.scanJob = some j) ∧ (j.scrub = false) ∧ (s.dev.get .CHK_SCAN_POS_pos 0 ≤ pos) ∧ (pos ≤ j.count))) = true ∧
   (let s : State := mk [(.CHK_TBL_CTL_tbl_en, 0, 1)] (fun d => { (d.setPd 93 true) with check := { d.check with nextBlock := 911 } })
    decide ((s.dev.bit .CHK_TBL_CTL_tbl_en 0 = true) ∧ (s.dev.scanOn = true) ∧ (s.dev.check.nextBlock < 912))) = true ∧
   (let b : BitVec 10 := 911
    let s : State := mk [] (fun d => d.setPd 93 true)
    decide ((s.dev.scanOn = true) ∧ (b.toNat < 912))) = true := by decide +kernel

theorem test_hyps_MatrixRequests_1 :
   (let m : MMaster := 1
    let r : MxReq := ⟨0x00000000000, false, 4, 2, true⟩
    let s : State := mk [(.MTX_MODE_mode, 0, 0)]
    let tg := addrTarget r.addr
    decide ((s.dev.bit .MTX_MSTAT_rst_busy m.val = false) ∧ (∀ p, mxMasterDom m.val = some p → s.dev.pdOn p = true) ∧ (mxConnected m.val tg = false) ∧ (s.dev.mxLayered = false) ∧ (Table.find s.dev.matrix.miss m.val = none))) = true ∧
   (let m : MMaster := 0
    let r : MxReq := ⟨0x70000080000, false, 4, 2, false⟩
    let s : State := mk []
    let tg := addrTarget r.addr
    decide ((s.dev.bit .MTX_MSTAT_rst_busy m.val = false) ∧ (∀ p, mxMasterDom m.val = some p → s.dev.pdOn p = true) ∧ (mxConnected m.val tg = true ∨ s.dev.mxLayered = true ∨ (Table.find s.dev.matrix.miss m.val).isSome = true) ∧ (s.dev.mxHeldBack m.val r = true))) = true ∧
   (let m : MMaster := 0
    let r : MxReq := ⟨0x70000000000, false, 4, 2, true⟩
    let s : State := mk []
    let tg := addrTarget r.addr
    decide ((s.dev.bit .MTX_MSTAT_rst_busy m.val = false) ∧ (∀ p, mxMasterDom m.val = some p → s.dev.pdOn p = true) ∧ (mxConnected m.val tg = true) ∧ (s.dev.mxHolds m.val r = false) ∧ (tg = 7) ∧ (0 < r.beats) ∧ (s.dev.periphHit (addrOff r.addr) = false))) = true ∧
   (let m : MMaster := 0
    let r : MxReq := ⟨0x48000000000, false, 4, 2, true⟩
    let s : State := mk []
    let tg := addrTarget r.addr
    decide ((s.dev.bit .MTX_MSTAT_rst_busy m.val = false) ∧ (∀ p, mxMasterDom m.val = some p → s.dev.pdOn p = true) ∧ (mxConnected m.val tg = true) ∧ (s.dev.mxHolds m.val r = false) ∧ (tg = 7 → r.beats = 1 ∧ s.dev.periphHit (addrOff r.addr) = true) ∧ (∃ p, s.dev.addrDom r.addr = some p ∧ s.dev.pdOn p = false))) = true ∧
   (let m : MMaster := 0
    let r : MxReq := ⟨0x70000080000, false, 1, 2, true⟩
    let s : State := mk []
    let tg := addrTarget r.addr
    decide ((s.dev.bit .MTX_MSTAT_rst_busy m.val = false) ∧ (∀ p, mxMasterDom m.val = some p → s.dev.pdOn p = true) ∧ (mxConnected m.val tg = true ∨ s.dev.mxLayered = true) ∧ (s.dev.mxHeldBack m.val r = false) ∧ (tg = 7 → r.beats = 1) ∧ (if mxConnected m.val tg then tg = 7 → s.dev.periphHit (addrOff r.addr) = true else s.dev.bridgeHit r.addr = true) ∧ (∀ p, s.dev.addrDom r.addr = some p → s.dev.pdOn p = true))) = true := by decide +kernel

theorem test_hyps_MatrixRequests_2 :
   (let m : MMaster := 0
    let r : MxReq := ⟨0x70000080000, false, 4, 2, true⟩
    let s : State := mk []
    let tg := addrTarget r.addr
    decide ((s.dev.bit .MTX_MSTAT_rst_busy m.val = false) ∧ (∀ p, mxMasterDom m.val = some p → s.dev.pdOn p = true) ∧ (mxConnected m.val tg = true) ∧ (s.dev.mxHolds m.val r = false) ∧ (tg = 7) ∧ (∀ i, i < r.beats → let a := r.addr + BitVec.ofNat 44 (32 * i); addrTarget a = 7 ∧ s.dev.periphHit (addrOff a) = true ∧ ∀ p, s.dev.addrDom a = some p → s.dev.pdOn p = true))) = true ∧
   (let m : MMaster := 0
    let pre : List Held := []
    let post : List Held := []
    let h : Held := ⟨0, ⟨0x70000080000, false, 1, 2, false⟩, 7⟩
    let s : State := mk [] (fun d => d.onMx (fun x => { x with held := [⟨0, ⟨0x70000080000, false, 1, 2, false⟩, 7⟩] }))
    let r := mxFilled h.req
    decide ((s.dev.matrix.held = pre ++ h :: post) ∧ (h.master = m.val) ∧ (s.dev.mxHolds m.val r = false) ∧ (∀ g ∈ pre, g.master = m.val → s.dev.mxHolds m.val (mxFilled g.req) = true) ∧ (mxConnected m.val (addrTarget r.addr) = true) ∧ (addrTarget r.addr = 7 → r.beats = 1 ∧ s.dev.periphHit (addrOff r.addr) = true) ∧ (∀ p, s.dev.addrDom r.addr = some p → s.dev.pdOn p = true))) = true ∧
   (let m : MMaster := 1
    let pre : List Held := []
    let post : List Held := [⟨3, ⟨0x00000000000, false, 1, 4, true⟩, 7⟩]
    let h : Held := ⟨1, ⟨0x00000000000, false, 1, 2, false⟩, 7⟩
    let s : State := mk [(.MTX_MODE_mode, 0, 1)] (fun d => d.onMx (fun x => { x with held := [⟨1, ⟨0x00000000000, false, 1, 2, false⟩, 7⟩, ⟨3, ⟨0x00000000000, false, 1, 4, true⟩, 7⟩] }))
    let g0 := { h with req := mxFilled h.req }
    decide ((s.dev.matrix.held = pre ++ h :: post) ∧ (h.master = m.val) ∧ (s.dev.mxHolds m.val g0.req = false) ∧ (∀ g ∈ pre, g.master = m.val → s.dev.mxHolds m.val (mxFilled g.req) = true) ∧ (mxConnected m.val (addrTarget h.req.addr) = false))) = true ∧
   (let d : Dev := (mk [(.MTX_MODE_mode, 0, 1)] (fun d => d.onMx (fun x => { x with held := [⟨1, ⟨0x00000000000, false, 1, 2, true⟩, 7⟩, ⟨3, ⟨0x00000000000, false, 1, 4, true⟩, 7⟩] }))).dev
    let h : Held := ⟨1, ⟨0x00000000000, false, 1, 2, true⟩, 7⟩
    let l : List Held := [⟨3, ⟨0x00000000000, false, 1, 4, true⟩, 7⟩]
    decide ((d.bridgeQueue = h :: l))) = true ∧
   (let tg : MTarget := 7
    let m : Nat := 0
    let s : State := mk [] (fun d => d.onMx (fun x => { x with txns := [⟨0, ⟨0x70000080000, false, 1, 2, true⟩, 7, false, 0, 0, false, false, 0, 0⟩] }))
    decide ((s.dev.mxWinner tg.val = some m) ∧ (s.dev.pathHeld tg.val = false))) = true := by decide +kernel

theorem test_hyps_MatrixRequests_3 :
   (let tg : MTarget := 0
    let x : Txn := ⟨0, ⟨0x00000000000, false, 16, 2, true⟩, 0, false, 0, 0, true, false, 10 ^ 12, 0⟩
    let s : State := mk [] (fun d => d.onMx (fun x => { x with txns := [⟨0, ⟨0x00000000000, false, 16, 2, true⟩, 0, false, 0, 0, true, false, 10 ^ 12, 0⟩, ⟨2, ⟨0x00000000000, false, 16, 2, true⟩, 0, false, 0, 0, false, false, 0, 0⟩] }))
    decide ((x ∈ s.dev.matrix.txns) ∧ (x.target = tg.val) ∧ (x.layered = false) ∧ (x.passing = true) ∧ (x.beatsBy s.dev.ticks < x.req.beats))) = true ∧
   (let d : Dev := (mk [] (fun d => d.onMx (fun x => { x with txns := [⟨0, ⟨0x70000080000, false, 1, 2, true⟩, 7, false, 0, 0, false, false, 0, 0⟩] }))).dev
    let tg : Nat := 7
    let m : Nat := 0
    decide ((d.mxWinner tg = some m))) = true ∧
   (let d : Dev := (mk [] (fun d => d.onMx (fun x => { x with txns := [⟨0, ⟨0x70000080000, false, 1, 2, true⟩, 7, false, 0, 0, false, false, 0, 0⟩], lost := [(112, 64)] }))).dev
    let tg : Nat := 7
    let m : Nat := 0
    decide ((d.mxWinner tg = some m) ∧ (∃ n ∈ d.mxWaiting tg, 64 ≤ d.mxLost tg n))) = true ∧
   (let d : Dev := (mk [] (fun d => d.onMx (fun x => { x with txns := [⟨0, ⟨0x70000080000, false, 1, 2, true⟩, 7, false, 0, 0, false, false, 0, 0⟩] }))).dev
    let tg : Nat := 7
    let m : Nat := 0
    decide ((d.mxWinner tg = some m) ∧ (∀ n ∈ d.mxWaiting tg, d.mxLost tg n < 64))) = true ∧
   (let m : MMaster := 0
    let id : BitVec 4 := 2
    let x : Txn := ⟨0, ⟨0x70000080000, false, 1, 2, true⟩, 7, false, 0, 0, true, false, 0, 0⟩
    let pre : List Txn := []
    let post : List Txn := []
    let s : State := mk [] (fun d => d.onMx (fun x => { x with txns := [⟨0, ⟨0x70000080000, false, 1, 2, true⟩, 7, false, 0, 0, true, false, 0, 0⟩] }))
    decide ((s.dev.matrix.txns = pre ++ x :: post) ∧ (∀ y ∈ pre, ¬(y.master = m.val ∧ y.req.id = id)) ∧ (x.master = m.val) ∧ (x.req.id = id) ∧ (x.granted = true))) = true := by decide +kernel

theorem test_hyps_MatrixModesHangsResets_1 :
   (let s : State := mk [(.MTX_MODE_mode, 0, 0)]
    decide ((s.dev.mxLayered = false))) = true ∧
   (let s : State := mk [(.MTX_MODE_mode, 0, 1)]
    decide ((s.dev.mxLayered = true) ∧ (s.dev.mxBusy = false))) = true ∧
   (let s : State := mk [(.MTX_MODE_mode, 0, 1), (.MTX_MODE_mode_busy, 0, 1)] (fun d => d.onMx (fun x => { x with held := [⟨1, ⟨0x00000000000, false, 1, 2, true⟩, 7⟩] }))
    decide ((s.dev.mxBusy = true) ∧ (s.dev.bridgeBusy = false))) = true ∧
   (let s : State := mk [(.MTX_MODE_mode, 0, 1), (.MTX_MODE_mode_busy, 0, 1)] (fun d => d.onMx (fun x => { x with txns := [⟨0, ⟨0x70000080000, false, 1, 2, true⟩, 7, true, 0, 0, true, false, 0, 0⟩] }))
    decide ((s.dev.mxBusy = true) ∧ (s.dev.bridgeBusy = true) ∧ (s.dev.hangReached s.dev.matrix.modeSince = true))) = true ∧
   (let m : MMaster := 0
    let id : BitVec 4 := 2
    let x : Txn := ⟨0, ⟨0x70000080000, false, 1, 2, true⟩, 7, false, 0, 0, true, false, 0, 0⟩
    let s : State := mk [] (fun d => d.onMx (fun x => { x with txns := [⟨0, ⟨0x70000080000, false, 1, 2, true⟩, 7, false, 0, 0, true, false, 0, 0⟩] }))
    decide ((Table.find s.dev.matrix.miss m.val = none) ∧ (s.dev.matrix.txns.find? (fun y => y.master == m.val && y.req.id == id && !y.hung && s.dev.hangReached y.tick) = some x))) = true := by decide +kernel

theorem test_hyps_MatrixModesHangsResets_2 :
   (let m : MMaster := 0
    let x : Txn := ⟨0, ⟨0x70000080000, false, 1, 2, true⟩, 7, false, 0, 0, false, false, 0, 0⟩
    let s : State := mk [] (fun d => d.onMx (fun x => { x with miss := [(0, ⟨0, ⟨0x70000080000, false, 1, 2, true⟩, 7, false, 0, 0, false, false, 0, 0⟩)] }))
    decide ((Table.find s.dev.matrix.miss m.val = some x) ∧ (x.hung = false) ∧ (s.dev.hangReached x.tick = true))) = true ∧
   (let s : State := mk [(.MTX_STAT_hang_recent, 0, 1)] (fun d => { (d.onMx (fun x => { x with hangAt := some 5 })) with dtime := BitVec.ofNat 64 (2 * 10 ^ 9) })
    decide ((timeUp s.dev.matrix.hangAt s.dev.dtime.toNat (10 ^ 9) = true))) = true ∧
   (let m : MMaster := 1
    decide ((m.val = 1))) = true ∧
   (let m : MMaster := 3
    decide ((m.val ≠ 1))) = true := by decide +kernel

theorem test_hyps_RecorderWrites_1 :
   (let s : State := mk [(.REC_STAT_rec_state, 0, 1)] (fun d => ((d.setPd 89 true).setPd 88 true).onRec (fun x => { x with outbox := [⟨0, 2, false, [1, 2, 3]⟩] }))
    let r : Rec := ⟨0, 2, false, [1, 2, 3]⟩
    let rest : List Rec := []
    decide ((s.dev.early = true) ∧ (s.dev.bit .REC_STAT_ready 0 = false) ∧ (s.dev.recr.dropped = []) ∧ (s.dev.recr.outbox = r :: rest) ∧ (s.dev.recr.bootDue = false))) = true ∧
   (let s : State := mk [(.REC_STAT_rec_state, 0, 1), (.GLB_EVT_WR_wr, 0, 1)] (fun d => { (d.setPd 89 true) with host := { d.host with ring := [(0, ⟨0x101, 0, 0, 0, false, false⟩)] } })
    let e : EvRec := ⟨0x101, 0, 0, 0, false, false⟩
    decide ((s.dev.early = true) ∧ (s.dev.bit .REC_STAT_ready 0 = false) ∧ (s.dev.recr.outbox = []) ∧ (s.dev.recr.bootDue = false) ∧ (s.dev.word .GLB_EVT_WR 0 ≠ BitVec.ofNat 32 s.dev.recr.ringPos) ∧ (s.dev.word .GLB_EVT_WR 0 - BitVec.ofNat 32 s.dev.recr.ringPos).toNat ≤ 4096 ∧ (Table.find s.dev.host.ring (s.dev.recr.ringPos % 4096) = some e) ∧ (s.dev.earlyBytes + Rec.size ⟨e.at_, 1, false, evBytes e⟩ ≤ 2 ^ 21))) = true ∧
   (let s : State := mk [(.REC_STAT_rec_state, 0, 3), (.REC_STAT_ready, 0, 1)] (fun d => ((d.setPd 89 true).setPd 88 true).onRec (fun x => { x with seg := some ⟨1, 0, 4, 0, 0, 3, 0, List.replicate 8 (List.replicate 511 1), true, 0, none, 0, [], 0, false, 0, 0⟩, staged := [⟨⟨0, 2, false, [1, 2, 3]⟩, 0, 0⟩] }))
    let g : Segment := ⟨1, 0, 4, 0, 0, 3, 0, List.replicate 8 (List.replicate 511 1), true, 0, none, 0, [], 0, false, 0, 0⟩
    let need := match s.dev.nextStaged with | some e => (encodeRec e.r g.base (s.dev.recr.content e.r).1 (s.dev.recr.content e.r).2).length | none => 16
    decide ((s.dev.recr.seg = some g) ∧ (g.page.isEmpty = false) ∧ (g.pageIdx < 16381) ∧ (s.dev.bit .REC_STAT_ready 0 = true) ∧ (s.dev.bit .REC_STAT_committing 0 = false) ∧ (s.dev.bit .GLB_THERM_STAT_therm 0 = false) ∧ (4096 < g.used + need))) = true ∧
   (let s : State := mk [(.REC_STAT_rec_state, 0, 3), (.REC_STAT_ready, 0, 1)] (fun d => ((d.setPd 89 true).setPd 88 true).onRec (fun x => { x with seg := some ⟨1, 0, 4, 0, 0, 3, 0, [], true, 0, none, 0, [], 0, false, 0, 0⟩ }))
    let g : Segment := ⟨1, 0, 4, 0, 0, 3, 0, [], true, 0, none, 0, [], 0, false, 0, 0⟩
    decide ((s.dev.recr.pageAt + msTicks (1000 * s.dev.get .REC_CTL_rec_flush 0) ≤ s.dev.ticks) ∧ (s.dev.recr.seg = some g) ∧ (g.pageDirty = true) ∧ (s.dev.bit .REC_STAT_ready 0 = true) ∧ (s.dev.bit .REC_STAT_committing 0 = false))) = true ∧
   (let s : State := mk [(.REC_STAT_rec_state, 0, 3), (.REC_STAT_ready, 0, 1)] (fun d => ((d.setPd 89 true).setPd 88 true).onRec (fun x => { x with closing := true, seg := some ⟨1, 0, 4, 0, 0, 3, 0, [], true, 0, none, 0, [], 0, false, 0, 0⟩ }))
    let g : Segment := ⟨1, 0, 4, 0, 0, 3, 0, [], true, 0, none, 0, [], 0, false, 0, 0⟩
    decide ((s.dev.recr.seg = some g) ∧ (s.dev.recr.staged = []) ∧ (s.dev.recr.closing = true) ∧ (s.dev.bit .REC_STAT_ready 0 = true) ∧ (s.dev.bit .REC_STAT_committing 0 = false))) = true := by decide +kernel

theorem test_hyps_RecorderWrites_2 :
   (let k : Drive := 0
    let w : NvmePurpose := .flushA
    let next : NvmePurpose := .trailerA
    let pre : List NvmeCmd := []
    let post : List NvmeCmd := []
    let x : NvmeCmd := ⟨0, .flushA, none, [], 0⟩
    let s : State := mk [(.REC_STAT_rec_state, 0, 3), (.REC_STAT_ready, 0, 1), (.REC_STAT_committing, 0, 1)] (fun d => ((d.setPd 89 true).setPd 88 true).onRec (fun x => { x with nvme := [⟨0, .flushA, none, [], 0⟩], seg := some ⟨1, 0, 4, 0, 0, 3, 0, [], false, 0, none, 0, [], 0, false, 0, 0⟩ }))
    let g : Segment := ⟨1, 0, 4, 0, 0, 3, 0, [], false, 0, none, 0, [], 0, false, 0, 0⟩
    decide ((w, next) ∈ [(.flushA, .trailerA), (.trailerA, .flushTrA), (.flushTrA, .trailerB), (.trailerB, .flushTrB)] ∧ (s.dev.recr.nvme = pre ++ x :: post) ∧ (x.drive = k.val) ∧ (x.what = w) ∧ (∀ c ∈ pre, c.drive = k.val → c.what = .read) ∧ (s.dev.recr.seg = some g))) = true ∧
   (let r : RecSt := { (RecSt.init) with nvme := [⟨0, .flushA, none, [], 0⟩] }
    decide ((∀ y ∈ r.nvme, y.what ≠ .read))) = true ∧
   (let r : RecSt := { (RecSt.init) with nvme := [⟨0, .flushA, none, [], 0⟩] }
    decide ((r.nvme.length ≤ 15))) = true ∧
   (let k : Drive := 0
    let pre : List NvmeCmd := []
    let post : List NvmeCmd := []
    let x : NvmeCmd := ⟨0, .flushTrB, none, [], 0⟩
    let s : State := mk [(.REC_STAT_rec_state, 0, 3), (.REC_STAT_ready, 0, 1), (.REC_STAT_committing, 0, 1)] (fun d => ((d.setPd 89 true).setPd 88 true).onRec (fun x => { x with nvme := [⟨0, .flushTrB, none, [], 0⟩], seg := some ⟨1, 0, 4, 0, 0, 3, 0, [], false, 0, none, 0, [], 0, false, 0, 0⟩ }))
    let g : Segment := ⟨1, 0, 4, 0, 0, 3, 0, [], false, 0, none, 0, [], 0, false, 0, 0⟩
    decide ((s.dev.recr.nvme = pre ++ x :: post) ∧ (x.drive = k.val) ∧ (x.what = .flushTrB) ∧ (∀ c ∈ pre, c.drive = k.val → c.what = .read) ∧ (s.dev.recr.seg = some g))) = true ∧
   (let k : Drive := 0
    let pre : List NvmeCmd := [⟨1, .smart, none, [], 0⟩]
    let post : List NvmeCmd := []
    let x : NvmeCmd := ⟨0, .smart, none, [], 0⟩
    let s : State := mk [(.REC_STAT_rec_state, 0, 3), (.REC_STAT_ready, 0, 1)] (fun d => ((d.setPd 89 true).setPd 88 true).onRec (fun x => { x with nvme := [⟨1, .smart, none, [], 0⟩, ⟨0, .smart, none, [], 0⟩] }))
    decide ((s.dev.recr.nvme = pre ++ x :: post) ∧ (x.drive = k.val) ∧ (x.what = .smart) ∧ (∀ c ∈ pre, c.drive = k.val → c.what = .read))) = true := by decide +kernel

theorem test_hyps_RecorderWrites_3 :
   (let k : Drive := 0
    let s : State := mk [(.REC_STAT_rec_state, 0, 3), (.REC_STAT_ready, 0, 1), (.REC_DRV_STAT_drv_state, 0, 2)] (fun d => ((d.setPd 89 true).setPd 88 true).onRec (fun x => { x with nvme := [⟨0, .flushA, none, [], 0⟩] }))
    decide ((s.dev.drvState k.val = 2) ∧ (∃ c ∈ s.dev.recr.posted k.val false, c.tick + msTicks 5000 ≤ s.dev.ticks))) = true ∧
   (let k : Drive := 0
    let s : State := mk [(.REC_STAT_rec_state, 0, 3), (.REC_STAT_ready, 0, 1), (.REC_DRV_STAT_drv_state, 0, 2)] (fun d => ((d.setPd 89 true).setPd 88 true).onRec (fun x => { x with nvme := [] }))
    decide ((s.dev.drvState k.val = 2) ∧ (s.dev.pdOn domRecEng = true) ∧ (Table.get s.dev.recr.smartAt k.val 0 + msTicks 60000 ≤ s.dev.ticks))) = true := by decide +kernel

theorem test_hyps_RecorderCommands_1 :
   (let found : List (Option DriveInfo) := [some ⟨1, true, true, [1], [⟨1, 2 ^ 30, 4096, 0, false⟩], 0, 0, 0, [], [], []⟩, some ⟨1, true, true, [1], [⟨1, 2 ^ 30, 4096, 0, false⟩], 0, 0, 0, [], [], []⟩, none, none]
    let s : State := mk [(.REC_STAT_rec_state, 0, 1), (.REC_CTL_rp_bif, 0, 1), (.REC_DRV_STAT_drv_state, 3, 2)] (fun d => ((d.setPd 89 true).setPd 88 true).onRec (fun x => { x with nvme := [] }))
    decide ((s.dev.get .REC_STAT_rec_state 0 = 1) ∧ (s.dev.pdOn domRecPort = true) ∧ (s.dev.pdOn domRecEng = true) ∧ (found.length = 4))) = true ∧
   (let s : State := mk [(.REC_STAT_rec_state, 0, 4), (.REC_DRV_STAT_drv_state, 0, 2), (.REC_DRV_STAT_drv_state, 1, 1)] (fun d => ((d.setPd 89 true).setPd 88 true).onRec (fun x => { x with drives := [(0, ⟨1, true, true, [1], [⟨1, 2 ^ 30, 4096, 0, false⟩], 0, 0, 0, [], [], []⟩), (1, ⟨1, true, true, [1], [⟨1, 2 ^ 30, 4096, 0, false⟩], 0, 0, 0, [], [], []⟩)] }))
    decide ((s.dev.recIdle = true) ∧ (s.dev.rings.length + s.dev.recr.scans.length < 2 ^ 63))) = true ∧
   (let key : BitVec 16 := 1
    let s : State := mk []
    decide ((s.dev.recIdle = false ∨ key ≠ 0x464D))) = true ∧
   (let s : State := mk [(.REC_STAT_rec_state, 0, 4), (.REC_DRV_STAT_drv_state, 0, 2)] (fun d => ((d.setPd 89 true).setPd 88 true).onRec (fun x => { x with drives := [(0, ⟨1, true, true, [1], [⟨1, 2 ^ 30, 4096, 0, false⟩], 0, 0, 0, [], [], []⟩)] }))
    decide ((s.dev.recIdle = true))) = true ∧
   (let s : State := mk [(.REC_STAT_rec_state, 0, 4)] (fun d => ((d.setPd 89 true).setPd 88 true).onRec (fun x => { x with nvme := [] }))
    decide ((s.dev.recIdle = true) ∧ (s.dev.noRing = true))) = true := by decide +kernel

theorem test_hyps_RecorderCommands_2 :
   (let s : State := mk [(.REC_STAT_rec_state, 0, 4), (.REC_DRV_STAT_drv_state, 0, 2)] (fun d => ((d.setPd 89 true).setPd 88 true).onRec (fun x => { x with drives := [(0, ⟨1, true, true, [1], [⟨1, 2 ^ 30, 4096, 0, false⟩], 0, 0, 0, [], [], []⟩)] }))
    decide ((s.dev.recIdle = true) ∧ (s.dev.noRing = false) ∧ (s.dev.presentDrives.any (fun k => !(s.dev.batchOn 0 k).isEmpty) = true))) = true ∧
   (let s : State := mk [(.REC_STAT_rec_state, 0, 3), (.REC_STAT_ready, 0, 1)] (fun d => d.setUst .recorder 0 0)
    decide ((s.dev.get .REC_STAT_rec_state 0 = 3) ∧ (s.dev.running .recorder 0 = true))) = true ∧
   (let s : State := mk [(.REC_DRV_STAT_drv_state, 0, 2)] (fun d => ((d.setPd 89 true).setPd 88 true).onRec (fun x => { x with drives := [(0, ⟨1, true, true, [1], [⟨1, 2 ^ 30, 4096, 0, false⟩], 0, 0, 0, [], [], []⟩)] }))
    let k : Nat := 0
    decide ((s.dev.bit .REC_RD_CMD_busy 0 = false) ∧ (s.dev.get .REC_RD_ARG0_arg0 0 < s.dev.ringSlots) ∧ (s.dev.slotDrive (s.dev.get .REC_RD_ARG0_arg0 0) = some k) ∧ (s.dev.driveKnown k = true))) = true ∧
   (let s : State := mk [(.REC_DRV_STAT_drv_state, 0, 2)] (fun d => ((d.setPd 89 true).setPd 88 true).onRec (fun x => { x with drives := [(0, ⟨1, true, true, [1], [⟨1, 2 ^ 30, 4096, 0, false⟩], 0, 0, 0, [], [], []⟩)] }))
    let k := s.dev.get .REC_RD_ARG0_arg0 0
    decide ((s.dev.bit .REC_RD_CMD_busy 0 = false) ∧ (s.dev.driveKnown k = true))) = true ∧
   (let s : State := mk []
    decide ((s.dev.bit .REC_RD_CMD_busy 0 = false))) = true := by decide +kernel

theorem test_hyps_RecorderCommands_3 :
   (let s : State := mk [(.REC_RD_CMD_busy, 0, 1)] (fun d => ((d.setPd 89 true).setPd 88 true).onRec (fun x => { x with rdOp := some 1 }))
    decide ((s.dev.bit .REC_RD_CMD_busy 0 = true))) = true ∧
   (let s : State := mk [(.REC_RD_CMD_busy, 0, 1), (.REC_RD_CMD_count, 0, 1), (.REC_DRV_STAT_drv_state, 0, 2)] (fun d => ((d.setPd 89 true).setPd 88 true).onRec (fun x => { x with rdOp := some 1, nvme := [⟨0, .read, none, [], 0⟩] }))
    let op : Nat := 1
    let c : NvmeCmd := ⟨0, .read, none, [], 0⟩
    decide ((s.dev.recr.rdOp = some op) ∧ (s.dev.readOut = some c))) = true := by decide +kernel

theorem test_hyps_CaptureSlots_1 :
   (let k : CapSlot := 0
    let s : State := mk [(.REC_CS_STAT_cs_state, 0, 0), (.REC_CS_CFG_en, 0, 1)] (fun d => (d.setUst .cslot 0 0).setPd 94 true)
    decide ((s.dev.cs k.val = 0 ∨ s.dev.cs k.val = 6) ∧ (s.dev.running .cslot k.val = true) ∧ (s.dev.bit .REC_CS_CFG_en k.val = true) ∧ (s.dev.pdOn domCapt = true))) = true ∧
   (let k : CapSlot := 0
    let s : State := mk [(.REC_CS_STAT_cs_state, 0, 1), (.REC_CS_CFG_en, 0, 1)] (fun d => (d.setUst .cslot 0 0).setPd 94 true)
    decide ((s.dev.cs k.val = 1))) = true ∧
   (let k : CapSlot := 0
    let s : State := mk [(.REC_CS_STAT_cs_state, 0, 2), (.REC_CS_CFG_en, 0, 1), (.CH_MODE_mode, 0, 8), (.REC_STAT_ready, 0, 1), (.CPL_POOL_STAT_pool_ready, 0, 1), (.CPL_Q_CFG_en, 0, 1), (.CPL_Q_CFG_owner_kind, 0, 2), (.CPL_Q_QUOTA_quota, 0, 60000), (.REC_CAP_BUDGET_budget, 0, 400), (.REC_CS_DEPTH_pre, 0, 1), (.REC_CS_DEPTH_post, 0, 1)] (fun d => (((d.setUst .cslot 0 0).setUst .queue 0 0).setPd 94 true).setCap 0 { d.cap 0 with size := 16320 })
    let q : Nat := 0
    decide ((s.dev.cs k.val = 2 ∨ s.dev.cs k.val = 3 ∨ s.dev.cs k.val = 4) ∧ (s.dev.running .cslot k.val = true) ∧ (s.dev.bit .REC_CS_CFG_en k.val = true) ∧ (s.dev.capCauses k.val = 0) ∧ (s.dev.capQueue k.val = some q) ∧ (s.dev.pdOn domCapt = true))) = true ∧
   (let k : CapSlot := 0
    let at_ : DTime := 7
    let s : State := mk [(.REC_CS_STAT_cs_state, 0, 3), (.REC_CS_CFG_en, 0, 1), (.CH_MODE_mode, 0, 8), (.REC_STAT_ready, 0, 1), (.CPL_POOL_STAT_pool_ready, 0, 1), (.CPL_Q_CFG_en, 0, 1), (.CPL_Q_CFG_owner_kind, 0, 2), (.CPL_Q_QUOTA_quota, 0, 60000), (.REC_CAP_BUDGET_budget, 0, 400), (.REC_CS_DEPTH_pre, 0, 1), (.REC_CS_DEPTH_post, 0, 1), (.REC_CS_CFG_trig_kind, 0, 1), (.CH_OH_DEF_def, 0, 1)] (fun d => ((((d.setUst .cslot 0 0).setUst .queue 0 0).setPd 94 true).setCap 0 { d.cap 0 with size := 16320 }).setOh 0 { d.oh 0 with setAt := [(0, 7)] })
    let q : Nat := 0
    decide ((s.dev.running .cslot k.val = true) ∧ (s.dev.bit .REC_CS_CFG_en k.val = true) ∧ (s.dev.capCauses k.val = 0) ∧ (s.dev.capQueue k.val = some q) ∧ (s.dev.cs k.val = 2 ∨ s.dev.cs k.val = 3) ∧ (s.dev.capTriggers k.val at_ = true))) = true ∧
   (let k : CapSlot := 0
    let s : State := mk [(.REC_CS_STAT_cs_state, 0, 3), (.REC_CS_CFG_en, 0, 1), (.CH_MODE_mode, 0, 8), (.REC_STAT_ready, 0, 1), (.CPL_POOL_STAT_pool_ready, 0, 1), (.CPL_Q_CFG_en, 0, 1), (.CPL_Q_CFG_owner_kind, 0, 2), (.CPL_Q_QUOTA_quota, 0, 60000), (.REC_CAP_BUDGET_budget, 0, 400), (.REC_CS_DEPTH_pre, 0, 1), (.REC_CS_DEPTH_post, 0, 1)] (fun d => (((d.setUst .cslot 0 0).setUst .queue 0 0).setPd 94 true).setCap 0 { d.cap 0 with size := 16320 })
    let q : Nat := 0
    decide ((s.dev.running .cslot k.val = true) ∧ (s.dev.bit .REC_CS_CFG_en k.val = true) ∧ (s.dev.capCauses k.val = 0) ∧ (s.dev.capQueue k.val = some q) ∧ (s.dev.cs k.val = 2 ∨ s.dev.cs k.val = 3) ∧ (s.dev.get .REC_CS_CFG_trig_kind k.val = 0))) = true := by decide +kernel

theorem test_hyps_CaptureSlots_2 :
   (let k : CapSlot := 0
    let s : State := mk [(.REC_CS_STAT_cs_state, 0, 4), (.REC_CS_CFG_en, 0, 1), (.CH_MODE_mode, 0, 8), (.REC_STAT_ready, 0, 1), (.CPL_POOL_STAT_pool_ready, 0, 1), (.CPL_Q_CFG_en, 0, 1), (.CPL_Q_CFG_owner_kind, 0, 2), (.CPL_Q_QUOTA_quota, 0, 60000), (.REC_CAP_BUDGET_budget, 0, 400), (.REC_CS_DEPTH_pre, 0, 1), (.REC_CS_DEPTH_post, 0, 1)] (fun d => (((d.setUst .cslot 0 0).setUst .queue 0 0).setPd 94 true).setCap 0 { d.cap 0 with size := 16320, frames := 3, trig := 1 })
    let q : Nat := 0
    decide ((s.dev.cs k.val = 4) ∧ (s.dev.cap k.val).trig + s.dev.get .REC_CS_DEPTH_post k.val < (s.dev.cap k.val).frames ∧ (s.dev.capQueue k.val = some q) ∧ (q < 4096))) = true ∧
   (let k : CapSlot := 0
    let s : State := mk [(.REC_CS_STAT_cs_state, 0, 5), (.REC_CS_CFG_en, 0, 1), (.CH_MODE_mode, 0, 8), (.REC_STAT_ready, 0, 1), (.CPL_POOL_STAT_pool_ready, 0, 1), (.CPL_Q_CFG_en, 0, 1), (.CPL_Q_CFG_owner_kind, 0, 2), (.CPL_Q_QUOTA_quota, 0, 60000), (.REC_CAP_BUDGET_budget, 0, 400), (.REC_CS_DEPTH_pre, 0, 1), (.REC_CS_DEPTH_post, 0, 1)] (fun d => (((d.setUst .cslot 0 0).setUst .queue 0 0).setPd 94 true).setCap 0 { d.cap 0 with size := 16320 })
    decide ((s.dev.cs k.val = 5) ∧ (s.dev.recr.capBox.any (fun i => match i with | .header j _ => j == k.val | .frame f => f.slot == k.val) = false))) = true ∧
   (let k : CapSlot := 0
    let s : State := mk [(.REC_CS_STAT_cs_state, 0, 5), (.REC_CS_CFG_en, 0, 1), (.CH_MODE_mode, 0, 8), (.REC_STAT_ready, 0, 1), (.CPL_POOL_STAT_pool_ready, 0, 1), (.CPL_Q_CFG_en, 0, 1), (.CPL_Q_CFG_owner_kind, 0, 2), (.CPL_Q_QUOTA_quota, 0, 60000), (.REC_CAP_BUDGET_budget, 0, 400), (.REC_CS_DEPTH_pre, 0, 1), (.REC_CS_DEPTH_post, 0, 1)] (fun d => (((d.setUst .cslot 0 0).setUst .queue 0 0).setPd 94 true).setCap 0 { d.cap 0 with size := 16320 })
    decide ((s.dev.running .cslot k.val = true) ∧ (s.dev.bit .REC_CS_CFG_en k.val = true) ∧ (s.dev.pdOn domCapt = true))) = true := by decide +kernel

theorem test_hyps_HostAccesses_1 :
   (let off : BitVec 26 := 0x0008010C
    let s : State := mk [] (fun d => { d with sys := { d.sys with held := false } })
    let r : Reg := .GLB_DTIME_LOAD_LO
    let i : Nat := 0
    decide ((s.dev.sys.held = false ∧ s.dev.host.cfg.d3hot = false ∧ off.toNat % 4 = 0 ∧ s.dev.hostAborts (off.toNat) = false ∧ regAt (off.toNat) = some (r, i) ∧ s.dev.wordDown r i = false) ∧ (r.absent i = false) ∧ (actingRegs.contains r = false))) = true ∧
   (let off : BitVec 26 := 0
    let n : Nat := 3
    let s : State := mk []
    decide ((s.dev.sys.held = false) ∧ (barSize off.toNat n = false ∨ s.dev.takesMem n = false))) = true ∧
   (let off : BitVec 26 := 0x00500000
    let n : Nat := 4
    let s : State := mk [(.GLB_HOST_STAT_host_stalled, 0, 1)]
    decide ((s.dev.sys.held = false) ∧ (barSize off.toNat n = true) ∧ (s.dev.takesMem n = true) ∧ (s.dev.hostAborts off.toNat = true))) = true ∧
   (let off : BitVec 26 := 0x00500000
    let n : Nat := 8
    let s : State := mk [(.GLB_HOST_STAT_host_stalled, 0, 1)]
    decide ((s.dev.sys.held = false) ∧ (barSize off.toNat n = true) ∧ (s.dev.takesMem n = true) ∧ (s.dev.hostAborts off.toNat = true))) = true ∧
   (let s : State := mk []
    decide ((s.dev.sys.held = false))) = true := by decide +kernel

theorem test_hyps_HostAccesses_2 :
   (let c : WriteTarget := .powerState
    let s : State := mk []
    decide ((s.dev.sys.held = false) ∧ (c ∈ [WriteTarget.bar0Base, .bar2Base, .powerState, .maxPayload, .aerStatus]))) = true ∧
   (let off : BitVec 26 := 16777216
    let s : State := mk [] (fun d => { ((List.range 100).foldl (fun d x => d.setPd x true) d) with sys := { d.sys with held := false } })
    let r : Reg := .CH_MODE
    let r' : Reg := .CH_SDS_CTL
    let i : Nat := 0
    let i' : Nat := 0
    decide ((off.toNat % 8 = 0) ∧ (s.dev.sys.held = false ∧ s.dev.host.cfg.d3hot = false ∧ off.toNat % 4 = 0 ∧ s.dev.hostAborts (off.toNat) = false ∧ regAt (off.toNat) = some (r, i) ∧ s.dev.wordDown r i = false) ∧ (s.dev.sys.held = false ∧ s.dev.host.cfg.d3hot = false ∧ (off.toNat + 4) % 4 = 0 ∧ s.dev.hostAborts ((off.toNat + 4)) = false ∧ regAt ((off.toNat + 4)) = some (r', i') ∧ s.dev.wordDown r' i' = false) ∧ (r.absent i = false) ∧ (r'.absent i' = false) ∧ (actingRegs.contains r = false) ∧ (actingRegs.contains r' = false))) = true ∧
   (let off : BitVec 26 := 0x200
    let s : State := mk [] (fun d => { ((List.range 100).foldl (fun d x => d.setPd x true) d) with sys := { d.sys with held := false } })
    let r : Reg := .GLB_DTIME_LO
    let r' : Reg := .GLB_DTIME_HI
    let i : Nat := 0
    let i' : Nat := 0
    decide ((off.toNat % 8 = 0) ∧ (s.dev.sys.held = false ∧ s.dev.host.cfg.d3hot = false ∧ off.toNat % 4 = 0 ∧ s.dev.hostAborts (off.toNat) = false ∧ regAt (off.toNat) = some (r, i) ∧ s.dev.wordDown r i = false) ∧ (s.dev.sys.held = false ∧ s.dev.host.cfg.d3hot = false ∧ (off.toNat + 4) % 4 = 0 ∧ s.dev.hostAborts ((off.toNat + 4)) = false ∧ regAt ((off.toNat + 4)) = some (r', i') ∧ s.dev.wordDown r' i' = false))) = true ∧
   (let off : BitVec 26 := 0x00080110
    let s : State := mk [] (fun d => { d with sys := { d.sys with held := false } })
    let r : Reg := .GLB_DTIME_LOAD_HI
    let i : Nat := 0
    decide ((s.dev.sys.held = false ∧ s.dev.host.cfg.d3hot = false ∧ off.toNat % 4 = 0 ∧ s.dev.hostAborts (off.toNat) = false ∧ regAt (off.toNat) = some (r, i) ∧ s.dev.wordDown r i = false) ∧ (Table.find s.dev.host.latched (r.key i) = none))) = true ∧
   (let off : BitVec 26 := 0x200
    let s : State := mk [] (fun d => { d with sys := { d.sys with held := false } })
    let r : Reg := .GLB_DTIME_LO
    let h : Reg := .GLB_DTIME_HI
    let i : Nat := 0
    decide ((s.dev.sys.held = false ∧ s.dev.host.cfg.d3hot = false ∧ off.toNat % 4 = 0 ∧ s.dev.hostAborts (off.toNat) = false ∧ regAt (off.toNat) = some (r, i) ∧ s.dev.wordDown r i = false) ∧ (Table.find s.dev.host.latched (r.key i) = none) ∧ (r.hiOf = some h))) = true := by decide +kernel

theorem test_hyps_HostAccesses_3 :
   (let off : BitVec 26 := 0x204
    let s : State := mk [] (fun d => { d with sys := { d.sys with held := false }, host := { d.host with latched := [(Reg.GLB_DTIME_HI.key 0, 7)] } })
    let r : Reg := .GLB_DTIME_HI
    let i : Nat := 0
    let v : Word := 7
    decide ((s.dev.sys.held = false ∧ s.dev.host.cfg.d3hot = false ∧ off.toNat % 4 = 0 ∧ s.dev.hostAborts (off.toNat) = false ∧ regAt (off.toNat) = some (r, i) ∧ s.dev.wordDown r i = false) ∧ (Table.find s.dev.host.latched (r.key i) = some v))) = true := by decide +kernel

theorem test_hyps_HostPortEvents_1 :
   (let v : Fin 64 := 0
    let s : State := mk [] (fun d => { d with host := { d.host with modUntil := [(0, 2 * 10 ^ 12)] } })
    decide ((s.dev.moderated v.val = true))) = true ∧
   (let v : Fin 64 := 0
    let s : State := mk [(.GLB_HOST_STAT_bme, 0, 1), (.GLB_HOST_STAT_msix_en, 0, 1)] (fun d => { d with host := { d.host with modWait := [(0, true)] } })
    decide ((Table.get s.dev.host.modWait v.val false = true) ∧ (s.dev.moderated v.val = false) ∧ (s.dev.bit .GLB_HOST_STAT_bme 0 = true) ∧ (s.dev.bit .GLB_HOST_STAT_msix_en 0 = true))) = true ∧
   (let v : Fin 64 := 0
    let s : State := mk []
    decide ((Table.get s.dev.host.modWait v.val false = false) ∧ (s.dev.moderated v.val = false))) = true ∧
   (let x : BitVec 4 := 7
    let s : State := mk [] (fun d => d.onMx (fun x => { x with txns := [⟨0, ⟨0x70000080000, false, 1, 2, true⟩, 7, false, 0, 0, true, false, 0, 0⟩] }))
    decide ((s.dev.hostOverdue x.toNat = true))) = true ∧
   (let s : State := mk []
    decide ((s.dev.sys.held = false))) = true := by decide +kernel

theorem test_hyps_HostPortEvents_2 :
   (let s : State := mk []
    decide ((s.dev.sys.held = false))) = true ∧
   (let s : State := mk [(.GLB_HOST_STAT_link_up, 0, 1)]
    decide ((s.dev.bit .GLB_HOST_STAT_link_up 0 = true))) = true ∧
   (let adr : BitVec 7 := 0x20
    let s : State := mk []
    decide ((s.dev.sys.held = true ∨ adr.toNat ≠ 0x58 + s.dev.sys.mgtAddr.toNat))) = true ∧
   (let adr : BitVec 7 := 0x58
    let s : State := mk []
    decide ((s.dev.i2cMine adr = true))) = true ∧
   (let adr : BitVec 7 := 0x58
    let s : State := mk []
    decide ((s.dev.i2cMine adr = true))) = true := by decide +kernel

theorem test_hyps_UnitOperations_1 :
   (let u : UnitId := ⟨.fctx, 5⟩
    let s : State := mk [] (fun d => d.setUst .fctx 5 0)
    decide ((s.dev.takesOp 1 u = true) ∧ (s.dev.unitExists u false = true) ∧ (s.dev.memberOp u = false))) = true ∧
   (let u : UnitId := ⟨.channel, 192⟩
    let s : State := mk []
    decide ((s.dev.takesOp 1 u = true) ∧ (s.dev.unitExists u false = false))) = true ∧
   (let u : UnitId := ⟨.channel, 192⟩
    let s : State := mk []
    decide ((s.dev.takesOp 2 u = true) ∧ (s.dev.unitExists u true = false))) = true ∧
   (let u : UnitId := ⟨.recorder, 1⟩
    let s : State := mk []
    decide ((s.dev.takesOp 3 u = true) ∧ (s.dev.unitExists u false = false))) = true ∧
   (let u : UnitId := ⟨.channel, 3⟩
    let s : State := mk [(.CH_MODE_mode, 3, 17), (.CH_MODE_bond_size, 3, 1)]
    decide ((s.dev.unitExists u false = true) ∧ (s.dev.memberOp u = true) ∧ (s.dev.takesOp 1 u = true))) = true := by decide +kernel

theorem test_hyps_UnitOperations_2 :
   (let u : UnitId := ⟨.channel, 3⟩
    let s : State := mk [(.CH_MODE_mode, 3, 17), (.CH_MODE_bond_size, 3, 1)]
    decide ((s.dev.unitExists u false = true) ∧ (s.dev.memberOp u = true) ∧ (s.dev.takesOp 2 u = true))) = true ∧
   (let u : UnitId := ⟨.channel, 3⟩
    let s : State := mk [(.CH_MODE_mode, 3, 17), (.CH_MODE_bond_size, 3, 1)]
    decide ((s.dev.unitExists u false = true) ∧ (s.dev.memberOp u = true) ∧ (s.dev.takesOp 3 u = true))) = true ∧
   (let u : UnitId := ⟨.channel, 3⟩
    let s : State := mk [(.GLB_UC_STAT_uc_busy, 0, 1)] (fun d => { d with host := { d.host with ucOp := some (2, ⟨.trib, 3⟩) } })
    decide ((s.dev.ucBusy = true) ∧ (s.dev.host.ucOp ≠ some (1, u)))) = true ∧
   (let u : UnitId := ⟨.channel, 3⟩
    let s : State := mk [(.GLB_UC_STAT_uc_busy, 0, 1)] (fun d => { d with host := { d.host with ucOp := some (2, ⟨.trib, 3⟩) } })
    decide ((s.dev.ucBusy = true) ∧ (s.dev.host.ucOp ≠ some (2, u)))) = true ∧
   (let u : UnitId := ⟨.channel, 3⟩
    let s : State := mk [(.GLB_UC_STAT_uc_busy, 0, 1)] (fun d => { d with host := { d.host with ucOp := some (2, ⟨.trib, 3⟩) } })
    decide ((s.dev.ucBusy = true) ∧ (s.dev.host.ucOp ≠ some (3, u)))) = true := by decide +kernel

theorem test_hyps_UnitOperations_3 :
   (let u : UnitId := ⟨.trib, 3⟩
    let s : State := mk [] (fun d => { (d.setUst .trib 3 1) with host := { d.host with freeing := [3] } })
    decide ((s.dev.devBusy u = true) ∧ (s.dev.ucTakes 1 u = true))) = true ∧
   (let u : UnitId := ⟨.trib, 3⟩
    let s : State := mk [] (fun d => { (d.setUst .trib 3 1) with host := { d.host with freeing := [3] } })
    decide ((s.dev.devBusy u = true) ∧ (s.dev.ucTakes 2 u = true))) = true ∧
   (let u : UnitId := ⟨.trib, 3⟩
    let s : State := mk [] (fun d => { (d.setUst .trib 3 1) with host := { d.host with freeing := [3] } })
    decide ((s.dev.devBusy u = true) ∧ (s.dev.ucTakes 3 u = true))) = true ∧
   (let off : BitVec 26 := 0x00001000
    let v : BitVec 64 := 0x00003001
    let s : State := mk [] (fun d => { d with sys := { d.sys with held := false } })
    let op := Fld.GLB_UC_CMD_op.of (v.setWidth 32)
    decide ((s.dev.sys.held = false ∧ s.dev.host.cfg.d3hot = false ∧ off.toNat % 4 = 0 ∧ s.dev.hostAborts (off.toNat) = false ∧ regAt (off.toNat) = some (.GLB_UC_CMD, 0) ∧ s.dev.wordDown .GLB_UC_CMD 0 = false) ∧ (op ≠ 0))) = true ∧
   (let u : UnitId := ⟨.pairagent, 0⟩
    let s : State := mk []
    let p := s.dev.pin u
    decide ((s.dev.takesOp 2 u = true) ∧ (s.dev.unitExists u true = true) ∧ (s.dev.memberOp u = false) ∧ (s.dev.unitStopped u = true) ∧ (p.unitCheck (p.candidate u) u = none))) = true := by decide +kernel

theorem test_hyps_UnitOperations_4 :
   (let u : UnitId := ⟨.channel, 0⟩
    let s : State := (mk [] (fun d => d.setShWord .CH_MODE 0 0xFF))
    let c : Nat := 1
    let p := s.dev.pin u
    decide ((s.dev.takesOp 2 u = true) ∧ (s.dev.unitExists u true = true) ∧ (s.dev.memberOp u = false) ∧ (s.dev.unitStopped u = true) ∧ (p.unitCheck (p.candidate u) u = some c))) = true ∧
   (let u : UnitId := ⟨.trib, 3071⟩
    let s : State := mk [] (fun d => d.setUst .trib 3071 0)
    decide ((s.dev.takesOp 2 u = true) ∧ (s.dev.unitExists u true = true) ∧ (s.dev.memberOp u = false) ∧ (s.dev.unitStopped u = false))) = true ∧
   (let u : UnitId := ⟨.pgroup, 2047⟩
    let s : State := mk []
    decide ((s.dev.takesOp 3 u = true) ∧ (s.dev.unitExists u false = true) ∧ (s.dev.memberOp u = false))) = true ∧
   (let u : UnitId := ⟨.trib, 3⟩
    let s : State := mk [] (fun d => d.setUst .trib 3 1)
    decide ((u.idx < uclassCount u.cls) ∧ (s.dev.ust u.cls u.idx = 1) ∧ (s.dev.stopDone u = true) ∧ (s.dev.boot.begun = true ∨ (s.dev.inStage 8 = false ∧ s.dev.inStage 9 = false) ∨ (u.cls ≠ .recorder ∧ u.cls ≠ .pairagent)))) = true ∧
   (let u : UnitId := ⟨.queue, 4095⟩
    let s : State := mk [(.CPL_POOL_STAT_pool_ready, 0, 1)] (fun d => d.setUst .queue 4095 3)
    decide ((u.cls = .queue) ∧ (u.idx < 4096) ∧ (s.dev.ust .queue u.idx = 3) ∧ (s.dev.bit .CPL_POOL_STAT_pool_ready 0 = true))) = true := by decide +kernel

theorem test_hyps_UnitOperations_5 :
   (let u : UnitId := ⟨.channel, 191⟩
    let s : State := mk [(.CH_MODE_mode, 191, 8), (.CH_SDS_STAT_quad_pll_lock, 188, 1)] (fun d => (d.setUst .channel 191 3).setChan 191 { d.chan 191 with domReady := true })
    decide ((u.cls = .channel ∨ u.cls = .bond) ∧ (u.idx < 192) ∧ (s.dev.lineUnit u.idx = u) ∧ (s.dev.lineUst u.idx = 3) ∧ (s.dev.chan u.idx).domReady = true ∧ (s.dev.unitQuads u.idx).all s.dev.quadLocked = true)) = true := by decide +kernel

theorem test_hyps_StagesEnd_1 :
   (let w : StageWork := ⟨true, 2 ^ 24, none, 700, true, [], 0, false⟩
    let s : State := mk [(.GLB_CLK_STAT_root_state, 0, 1)]
    decide ((s.dev.inStage 0 = true) ∧ (w.jnlFail = false))) = true ∧
   (let w : StageWork := ⟨true, 2 ^ 24, none, 700, true, [], 0, false⟩
    let s : State := mk [(.BOOT_STAT_stage, 0, 1)]
    decide ((s.dev.inStage 1 = true) ∧ (w.jnlFail = false))) = true ∧
   (let w : StageWork := ⟨true, 2 ^ 24, none, 700, true, [], 0, false⟩
    let s : State := mk [(.BOOT_STAT_stage, 0, 2)]
    decide ((s.dev.inStage 2 = true) ∧ (w.jnlFail = false))) = true ∧
   (let w : StageWork := ⟨true, 2 ^ 24, none, 700, true, [], 0, false⟩
    let s : State := mk [(.BOOT_STAT_stage, 0, 3)] (fun d => d.onBoot (fun b => { b with image := some ⟨0, 1, false, 0, [⟨3, 1, 4, [0x44, 0x33, 0x22, 0x11]⟩]⟩ }))
    let i : Image := ⟨0, 1, false, 0, [⟨3, 1, 4, [0x44, 0x33, 0x22, 0x11]⟩]⟩
    let f : ImgRec := ⟨3, 1, 4, [0x44, 0x33, 0x22, 0x11]⟩
    decide ((s.dev.inStage 3 = true) ∧ (w.jnlFail = false) ∧ (s.dev.boot.image = some i) ∧ (i.recs = [f]) ∧ (f.ty = 3))) = true ∧
   (let w : StageWork := ⟨true, 2 ^ 24, none, 700, true, [], 0, false⟩
    let s : State := mk [(.BOOT_STAT_stage, 0, 4)]
    decide ((s.dev.inStage 4 = true) ∧ (w.jnlFail = false) ∧ (w.ok = true) ∧ (s.dev.bootStalled = false) ∧ (s.dev.sys.pdServing = none) ∧ (s.dev.boot.starts = []) ∧ (Table.get s.dev.boot.actions 5 0 = 0))) = true := by decide +kernel

theorem test_hyps_StagesEnd_2 :
   (let w : StageWork := ⟨true, 2 ^ 24, none, 700, true, [], 0, false⟩
    let s : State := mk [(.BOOT_STAT_stage, 0, 5)]
    decide ((s.dev.inStage 5 = true) ∧ (w.jnlFail = false) ∧ (s.dev.boot.batch = []) ∧ (s.dev.boot.quadsLeft = []) ∧ (Table.get s.dev.boot.actions 6 0 = 0))) = true ∧
   (let w : StageWork := ⟨true, 2 ^ 24, none, 700, true, [], 0, false⟩
    let s : State := mk [(.BOOT_STAT_stage, 0, 6), (.CPL_POOL_STAT_sites_live, 0, 1)]
    decide ((s.dev.inStage 6 = true) ∧ (w.jnlFail = false) ∧ (s.dev.boot.site = none) ∧ (s.dev.get .CPL_POOL_STAT_sites_live 0 ≠ 0) ∧ (Table.get s.dev.boot.actions 7 0 = 0))) = true ∧
   (let w : StageWork := ⟨true, 2 ^ 24, none, 700, true, [], 0, false⟩
    let s : State := mk [(.BOOT_STAT_stage, 0, 7)]
    decide ((s.dev.inStage 7 = true) ∧ (w.jnlFail = false) ∧ (w.ok = true) ∧ (s.dev.boot.starts = []))) = true ∧
   (let w : StageWork := ⟨true, 2 ^ 24, none, 700, true, [], 0, false⟩
    let s : State := mk [(.BOOT_STAT_stage, 0, 8), (.REC_STAT_rec_state, 0, 4)] (fun d => d.onBoot (fun b => { b with begun := true }))
    decide ((s.dev.inStage 8 = true) ∧ (w.jnlFail = false) ∧ (w.drives = 0) ∧ (s.dev.boot.begun = true) ∧ (s.dev.get .REC_STAT_rec_state 0 ≠ 1) ∧ (s.dev.boot.starts = []) ∧ (Table.get s.dev.boot.actions 9 0 = 0))) = true ∧
   (let w : StageWork := ⟨true, 2 ^ 24, none, 700, true, [], 0, false⟩
    let s : State := mk [(.BOOT_STAT_stage, 0, 9), (.PAIR_STAT_agent_state, 0, 2)] (fun d => d.onBoot (fun b => { b with begun := true }))
    decide ((s.dev.inStage 9 = true) ∧ (w.jnlFail = false) ∧ (w.ok = true) ∧ (s.dev.s9Over = true))) = true := by decide +kernel

theorem test_hyps_StartUpItemsAndRestarts_1 :
   (let s : State := mk [(.BOOT_STAT_stage, 0, 5)] (fun d => d.onBoot (fun b => { b with quadsLeft := [8, 9] }))
    decide ((s.dev.inStage 5 = true) ∧ (s.dev.boot.batch.all s.dev.quadReady = true) ∧ (s.dev.boot.starts = []))) = true ∧
   (let k : Site := 0
    let s : State := mk [(.BOOT_STAT_stage, 0, 6)] (fun d => (d.setPd 64 true).onBoot (fun b => { b with site := some 0 }))
    decide ((s.dev.inStage 6 = true) ∧ (s.dev.boot.site = some k.val) ∧ (s.dev.pdOn (domSite k.val) = true))) = true ∧
   (let k : Site := 0
    let s : State := mk [(.BOOT_STAT_stage, 0, 6)] (fun d => (d.setPd 64 true).onBoot (fun b => { b with site := some 0 }))
    decide ((s.dev.inStage 6 = true) ∧ (s.dev.boot.site = some k.val) ∧ (s.dev.pdOn (domSite k.val) = true) ∧ (s.dev.boot.siteTried = 0))) = true ∧
   (let k : Site := 0
    let s : State := mk [(.BOOT_STAT_stage, 0, 6), (.BOOT_HIST_SITE_pin_rate, 0, 40), (.CPL_SITE_STAT_site_state, 3, 2)] (fun d => (d.setPd 64 true).onBoot (fun b => { b with site := some 0, siteTried := 1, policy := List.replicate 20 2 ++ [40, 28] }))
    decide ((s.dev.inStage 6 = true) ∧ (s.dev.boot.site = some k.val) ∧ (s.dev.pdOn (domSite k.val) = true) ∧ (s.dev.boot.siteTried ≠ 0))) = true ∧
   (let q : Quad := 0
    let s : State := mk [(.BOOT_STAT_stage, 0, 5)] (fun d => (d.setPd 0 true).onBoot (fun b => { b with batch := [0] }))
    decide ((s.dev.inStage 5 = true) ∧ (s.dev.boot.batch.contains q.val = true) ∧ (s.dev.pdOn (domQuad q.val) = true) ∧ (s.dev.quadLocked q.val = false) ∧ (s.dev.ticksPast (Table.get s.dev.boot.quadAt q.val 0) 2000000 = true) ∧ (Table.get s.dev.boot.quadTried q.val 0 = 0))) = true := by decide +kernel

theorem test_hyps_StartUpItemsAndRestarts_2 :
   (let q : Quad := 0
    let s : State := mk [(.BOOT_STAT_stage, 0, 5)] (fun d => (d.setPd 0 true).onBoot (fun b => { b with batch := [0], quadTried := [(0, 1)], policy := List.replicate 20 2 ++ [40, 28] }))
    decide ((s.dev.inStage 5 = true) ∧ (s.dev.boot.batch.contains q.val = true) ∧ (s.dev.pdOn (domQuad q.val) = true) ∧ (s.dev.quadLocked q.val = false) ∧ (s.dev.ticksPast (Table.get s.dev.boot.quadAt q.val 0) 2000000 = true) ∧ (Table.get s.dev.boot.quadTried q.val 0 ≠ 0))) = true ∧
   (let q : Quad := 0
    let s : State := mk [(.CH_SDS_STAT_quad_pll_lock, 0, 1)]
    decide ((s.dev.quadLocked q.val = true ∨ s.dev.ticksPast (Table.get s.dev.boot.quadAt q.val 0) 2000000 = false))) = true ∧
   (let s : State := mk [] (fun d => { d with sys := { d.sys with held := true } })
    decide ((s.dev.sys.held = true))) = true ∧
   (let s : State := mk []
    decide ((s.dev.sys.held = false))) = true ∧
   (let s : State := mk [(.BOOT_CTL_wd_en, 0, 1)]
    decide ((s.dev.boot.open_ = true) ∧ (s.dev.bit .BOOT_CTL_wd_en 0 = true) ∧ (s.dev.ticksPast s.dev.boot.openedAt (stageLimit s.dev.stage * 1000000) = true))) = true := by decide +kernel

theorem test_hyps_StartUpItemsAndRestarts_3 :
   (let s : State := mk [(.BOOT_CTL_wd_en, 0, 0)]
    decide ((s.dev.boot.open_ = false ∨ s.dev.bit .BOOT_CTL_wd_en 0 = false ∨ s.dev.ticksPast s.dev.boot.openedAt (stageLimit s.dev.stage * 1000000) = false))) = true ∧
   (let s : State := mk [(.BOOT_STAT_state, 0, 1)]
    decide ((s.dev.get .BOOT_STAT_state 0 = 1) ∧ (s.dev.boot.erased < 32) ∧ (s.dev.bit .BOOT_STAT_jnl_err 0 = false))) = true ∧
   (let s : State := mk [] (fun d => d.onBoot (fun b => { b with flashSize := 2 ^ 24 }))
    decide ((s.dev.boot.flashSize ≠ 0) ∧ (s.dev.bit .BOOT_STAT_jnl_err 0 = false))) = true := by decide +kernel

theorem test_hyps_FlashCommands :
   (let c : Instr := .flashProgram
    let op : Nat := 3
    decide ((c, op) ∈ [(.flashRead, 1), (.flashErase, 2), (.flashProgram, 3)])) = true ∧
   (let s : State := mk [(.BOOT_FLASH_CMD_busy, 0, 1)] (fun d => d.onBoot (fun b => { b with flash := [(8191, 1), (8193, 7), (12288, 2)], flashOp := some (2, 8192, []) }))
    let op : Nat := 2
    let a : Nat := 8192
    let data : List Byte := []
    decide ((s.dev.boot.flashOp = some (op, a, data)))) = true ∧
   (let s : State := mk [(.BOOT_FLASH_CMD_busy, 0, 1)] (fun d => d.onBoot (fun b => { b with flash := [(8191, 1), (8193, 7), (12288, 2)], flashOp := some (1, 8192, []) }))
    let a : Nat := 8192
    let data : List Byte := []
    decide ((s.dev.boot.flashOp = some (1, a, data)) ∧ (s.dev.boot.torn = []))) = true ∧
   (let s : State := mk [(.BOOT_FLASH_CMD_busy, 0, 1)] (fun d => d.onBoot (fun b => { b with flash := [(8191, 1), (8193, 7), (12288, 2)], flashOp := some (2, 8192, []) }))
    let a : Nat := 8192
    let data : List Byte := []
    decide ((s.dev.boot.flashOp = some (2, a, data)) ∧ (flashWf s.dev.boot.flash = true))) = true ∧
   (let s : State := mk [(.BOOT_FLASH_CMD_busy, 0, 1)] (fun d => d.onBoot (fun b => { b with flash := [(8191, 1), (8193, 7), (12288, 2)], flashOp := some (3, 8192, List.replicate 256 0xF0) }))
    let a : Nat := 8192
    let data : List Byte := List.replicate 256 0xF0
    decide ((s.dev.boot.flashOp = some (3, a, data)) ∧ (data.length = 256) ∧ (flashWf s.dev.boot.flash = true))) = true := by decide +kernel

theorem test_hyps_ReferencesAndPlls_1 :
   (let b : Bool := false
    let s : State := mk [(.GLB_CLK_STAT_root_state, 0, 1), (.GLB_CLK_STAT_ref_a_ok, 0, 1), (.GLB_CLK_STAT_ref_b_ok, 0, 1)]
    decide ((s.dev.refOk b = true))) = true ∧
   (let b : Bool := true
    let s : State := mk [(.GLB_CLK_STAT_root_state, 0, 2), (.GLB_CLK_STAT_ref_a_ok, 0, 0), (.GLB_CLK_STAT_ref_b_ok, 0, 0)]
    decide ((s.dev.refOk b = false))) = true ∧
   (let off : BitVec 26 := BitVec.ofNat 26 (Reg.info .GLB_CLK_CTL).base
    let s : State := mk [(.GLB_CLK_STAT_root_state, 0, 2), (.GLB_CLK_STAT_ref_a_ok, 0, 1), (.GLB_CLK_STAT_ref_b_ok, 0, 0)]
    decide ((s.dev.sys.held = false ∧ s.dev.host.cfg.d3hot = false ∧ off.toNat % 4 = 0 ∧ s.dev.hostAborts (off.toNat) = false ∧ regAt (off.toNat) = some (.GLB_CLK_CTL, 0) ∧ s.dev.wordDown .GLB_CLK_CTL 0 = false))) = true ∧
   (let s : State := mk []
    decide ((s.dev.rootState = 0) ∧ (s.dev.sys.rootOn = true) ∧ (s.dev.sys.held = false))) = true ∧
   (let s : State := mk []
    decide ((s.dev.rootState = 0) ∧ (s.dev.sys.rootOn = true) ∧ (s.dev.sys.held = false) ∧ (s.dev.ticksPast s.dev.sys.acquireAt 2000000 = true))) = true := by decide +kernel

theorem test_hyps_ReferencesAndPlls_2 :
   (let s : State := mk [] (fun d => { d with sys := { d.sys with acquireAt := d.ticks } })
    decide ((s.dev.rootState = 0) ∧ (s.dev.sys.rootOn = true) ∧ (s.dev.sys.held = false) ∧ (s.dev.ticksPast s.dev.sys.acquireAt 2000000 = false))) = true ∧
   (let s : State := mk [(.GLB_CLK_STAT_root_state, 0, 3), (.GLB_CLK_STAT_ref_a_ok, 0, 0), (.GLB_CLK_STAT_ref_b_ok, 0, 1)]
    decide ((s.dev.rootState = 3) ∧ (s.dev.refOk false = true ∨ s.dev.refOk true = true))) = true ∧
   (let s : State := mk [(.GLB_CLK_STAT_root_state, 0, 1), (.GLB_CLK_STAT_ref_a_ok, 0, 1), (.GLB_CLK_STAT_ref_b_ok, 0, 1), (.GLB_CLK_STAT_ref_sel, 0, 1)] (fun d => { d with regs := (Reg.GLB_CLK_CTL.key 0, 4) :: d.regs })
    decide ((s.dev.rootState = 1) ∧ (s.dev.bit .GLB_CLK_CTL_rev_en 0 = true) ∧ (s.dev.refOk s.dev.refPref = true) ∧ (s.dev.refSel ≠ s.dev.refPref) ∧ (s.dev.ticksPast (Table.get s.dev.sys.refAt (bitNat s.dev.refPref) 0) (10 ^ 10) = true))) = true ∧
   (let s : State := mk [(.GLB_CLK_STAT_root_state, 0, 2), (.GLB_CLK_STAT_ref_a_ok, 0, 0), (.GLB_CLK_STAT_ref_b_ok, 0, 0)]
    decide ((s.dev.rootState = 1 ∨ s.dev.rootState = 2))) = true ∧
   (let i : Fin 19 := 0
    let s : State := mk []
    decide ((s.dev.phyLocked i.val = false))) = true := by decide +kernel

theorem test_hyps_ReferencesAndPlls_3 :
   (let i : Fin 19 := 0
    let s : State := mk [(.GLB_GDDR_PLL_g_lock, 0, 1)]
    decide ((s.dev.phyLocked i.val = true))) = true := by decide +kernel

theorem test_hyps_DeviceTime_1 :
   (let s : State := mk [(.GLB_TIME_CTL_dtime_src, 0, 1), (.GLB_TIME_CTL_step_thr, 0, 100), (.GLB_TIME_CTL_step_mode, 0, 1)] (fun d => { d with dtime := 9999000000 })
    let k : Int := (((s.dev.now : Int) - (s.dev.get .GLB_PPS_DLY_pps_dly 0 : Nat) + 5 * 10 ^ 8) / 10 ^ 9)
    let e : Int := ((s.dev.now : Int) - (s.dev.get .GLB_PPS_DLY_pps_dly 0 : Nat) - (((s.dev.now : Int) - (s.dev.get .GLB_PPS_DLY_pps_dly 0 : Nat) + 5 * 10 ^ 8) / 10 ^ 9) * 10 ^ 9)
    decide ((∀ x, s.dev.sys.lastPps = some x → s.dev.sys.ppsValid = true → x + 10 ^ 9 ≤ s.dev.now + 10000 ∧ s.dev.now ≤ x + 10 ^ 9 + 10000) ∧ (s.dev.sys.loadArmed = false) ∧ (s.dev.now : Int) - (s.dev.get .GLB_PPS_DLY_pps_dly 0 : Nat) = k * 10 ^ 9 + e ∧ (-(5 * 10 ^ 8) ≤ e) ∧ (e < 5 * 10 ^ 8))) = true ∧
   (let s : State := mk [(.GLB_TIME_CTL_dtime_src, 0, 0), (.GLB_TIME_STAT_slew, 0, 2)]
    decide ((s.dev.sys.held = false) ∧ (s.dev.sys.rootOn = true) ∧ (s.dev.corrects = false))) = true ∧
   (let s : State := mk [(.GLB_TIME_CTL_dtime_src, 0, 1), (.GLB_TIME_STAT_slew, 0, 1)] (fun d => { d with ticks := 3, sys := { d.sys with slewLeft := 7, stepDue := none } })
    decide ((s.dev.sys.held = false) ∧ (s.dev.sys.rootOn = true) ∧ (s.dev.corrects = true) ∧ (s.dev.sys.stepDue = none) ∧ (s.dev.get .GLB_TIME_STAT_slew 0 = 1) ∧ (s.dev.ticks % 2500 ≠ 0))) = true ∧
   (let s : State := mk [(.GLB_TIME_CTL_dtime_src, 0, 1), (.GLB_TIME_STAT_slew, 0, 1)] (fun d => { d with  sys := { d.sys with slewLeft := 1, stepDue := none } })
    let left := s.dev.sys.slewLeft
    decide ((s.dev.sys.held = false) ∧ (s.dev.sys.rootOn = true) ∧ (s.dev.corrects = true) ∧ (s.dev.sys.stepDue = none) ∧ (s.dev.get .GLB_TIME_STAT_slew 0 = 1) ∧ (s.dev.ticks % 2500 = 0) ∧ (0 < left))) = true ∧
   (let s : State := mk [(.GLB_TIME_CTL_dtime_src, 0, 1), (.GLB_TIME_STAT_slew, 0, 1)] (fun d => { d with  sys := { d.sys with slewLeft := -1, stepDue := none } })
    let left := s.dev.sys.slewLeft
    decide ((s.dev.sys.held = false) ∧ (s.dev.sys.rootOn = true) ∧ (s.dev.corrects = true) ∧ (s.dev.sys.stepDue = none) ∧ (s.dev.get .GLB_TIME_STAT_slew 0 = 1) ∧ (s.dev.ticks % 2500 = 0) ∧ (left < 0))) = true := by decide +kernel

theorem test_hyps_DeviceTime_2 :
   (let s : State := mk [(.GLB_TIME_CTL_dtime_src, 0, 1), (.GLB_TIME_STAT_slew, 0, 1)] (fun d => { d with  sys := { d.sys with slewLeft := -1, stepDue := none } })
    decide ((s.dev.sys.held = false) ∧ (s.dev.sys.rootOn = true) ∧ (s.dev.corrects = true) ∧ (s.dev.sys.stepDue = none) ∧ (s.dev.get .GLB_TIME_STAT_slew 0 = 1))) = true ∧
   (let s : State := mk [(.GLB_TIME_CTL_dtime_src, 0, 1), (.GLB_TIME_STAT_slew, 0, 2)] (fun d => { d with  sys := { d.sys with slewLeft := 2000000, stepDue := none } })
    let left := s.dev.sys.slewLeft
    decide ((s.dev.sys.held = false) ∧ (s.dev.sys.rootOn = true) ∧ (s.dev.corrects = true) ∧ (s.dev.sys.stepDue = none) ∧ (s.dev.get .GLB_TIME_STAT_slew 0 = 2) ∧ (0 < left))) = true ∧
   (let s : State := mk [(.GLB_TIME_CTL_dtime_src, 0, 1), (.GLB_TIME_STAT_slew, 0, 2)] (fun d => { d with  sys := { d.sys with slewLeft := -2000000, stepDue := none } })
    let left := s.dev.sys.slewLeft
    decide ((s.dev.sys.held = false) ∧ (s.dev.sys.rootOn = true) ∧ (s.dev.corrects = true) ∧ (s.dev.sys.stepDue = none) ∧ (s.dev.get .GLB_TIME_STAT_slew 0 = 2) ∧ (left < 0))) = true ∧
   (let s : State := mk [(.GLB_TIME_CTL_dtime_src, 0, 1), (.GLB_TIME_STAT_slew, 0, 2)] (fun d => { d with  sys := { d.sys with slewLeft := -2000000, stepDue := none } })
    let thr : Int := (1000 * s.dev.get .GLB_TIME_CTL_step_thr 0 : Nat)
    decide ((s.dev.sys.held = false) ∧ (s.dev.sys.rootOn = true) ∧ (s.dev.corrects = true) ∧ (s.dev.sys.stepDue = none) ∧ (s.dev.get .GLB_TIME_STAT_slew 0 = 2) ∧ (thr ≤ (s.tick.dev.sys.slewLeft.natAbs : Int)))) = true ∧
   (let s : State := mk [(.GLB_TIME_CTL_dtime_src, 0, 1), (.GLB_TIME_STAT_slew, 0, 2)] (fun d => { d with  sys := { d.sys with slewLeft := (-999), stepDue := none } })
    let thr : Int := (1000 * s.dev.get .GLB_TIME_CTL_step_thr 0 : Nat)
    decide ((s.dev.sys.held = false) ∧ (s.dev.sys.rootOn = true) ∧ (s.dev.corrects = true) ∧ (s.dev.sys.stepDue = none) ∧ (s.dev.get .GLB_TIME_STAT_slew 0 = 2) ∧ (s.tick.dev.sys.slewLeft.natAbs : Int) < thr ∧ (s.tick.dev.sys.slewLeft ≠ 0))) = true := by decide +kernel

theorem test_hyps_DeviceTime_3 :
   (let s : State := mk [(.GLB_TIME_CTL_dtime_src, 0, 1), (.GLB_TIME_STAT_slew, 0, 0)] (fun d => { d with  sys := { d.sys with slewLeft := 0, stepDue := some (-5000) } })
    let e : Int := -5000
    decide ((s.dev.sys.held = false) ∧ (s.dev.sys.rootOn = true) ∧ (s.dev.sys.stepDue = some e) ∧ (s.dev.corrects = true) ∧ (s.dev.get .GLB_TIME_STAT_slew 0 = 0))) = true ∧
   (let s : State := mk [] (fun d => { d with dtime := 5, sys := { d.sys with ppsValid := true, lastPps := some 3 } })
    let x : Nat := 3
    decide ((s.dev.sys.ppsValid = true) ∧ (s.dev.sys.lastPps = some x) ∧ (x + 10 ^ 9 + 10000 < s.dev.now ∨ s.dev.now + 10000 < x + 10 ^ 9))) = true ∧
   (let s : State := mk [(.GLB_DTIME_LOAD_LO_load, 0, 9)] (fun d => { d with dtime := 5, sys := { d.sys with loadArmed := true } })
    decide ((∀ x, s.dev.sys.lastPps = some x → s.dev.sys.ppsValid = true → x + 10 ^ 9 ≤ s.dev.now + 10000 ∧ s.dev.now ≤ x + 10 ^ 9 + 10000) ∧ (s.dev.sys.loadArmed = true))) = true ∧
   (let s : State := mk [(.GLB_TIME_CTL_load_now, 0, 1)]
    decide ((s.dev.sys.held = false))) = true := by decide +kernel

theorem test_hyps_ResetsOfTheDevice :
   (let c : Instr := .tapDisturb .extest
    let i : TapInstr := .extest
    decide ((c = .systemReset .assert ∨ (c = .tapDisturb i ∧ i.disturbs = true)))) = true ∧
   (let s : State := mk [] (fun d => { d with sys := { d.sys with rstPin := true, held := true } })
    decide ((s.dev.sys.rstPin = true) ∧ (s.dev.sys.tap = false))) = true ∧
   (let i : TapInstr := .bypass
    let s : State := mk []
    decide ((i.disturbs = false) ∧ (s.dev.sys.tap = false))) = true ∧
   (let i : TapInstr := .samplePreload
    let s : State := mk [] (fun d => { d with sys := { d.sys with tap := true, held := true } })
    decide ((i.disturbs = false) ∧ (s.dev.sys.tap = true) ∧ (s.dev.sys.rstPin = false))) = true ∧
   (let i : TapInstr := .bypass
    let s : State := mk [] (fun d => { d with sys := { d.sys with tap := true, rstPin := true, held := true } })
    decide ((i.disturbs = false) ∧ (s.dev.sys.tap = true) ∧ (s.dev.sys.rstPin = true) ∧ (s.dev.sys.held = true))) = true := by decide +kernel

theorem test_hyps_DomainsAndResets_1 :
   (let s : State := mk [(.STR_HEAT_STAT_heat_state, 0, 3), (.STR_HEAT_CTL_heat_en, 0, 1)] (fun d => d.setPd 48 true)
    decide ((s.dev.sys.pdQueue = []))) = true ∧
   (let x : Dom := 95
    let on : Bool := true
    let s : State := mk [] (fun d => { d with sys := { d.sys with pdServing := some (95, true) } })
    decide ((s.dev.sys.pdServing = some (x.val, on)) ∧ (s.dev.sys.pdQueue = []) ∧ (s.dev.pdMayEnd x.val on = true))) = true ∧
   (let key : BitVec 16 := 0
    decide ((key ≠ 0x5253))) = true ∧
   (let x : BitVec 7 := 88
    let s : State := mk [] (fun d => d.setUst .recorder 0 0)
    decide ((x.toNat < 96) ∧ (s.dev.pdRefused x.toNat = true))) = true ∧
   (let x : BitVec 7 := 93
    let s : State := mk [] (fun d => d.setPd 93 true)
    decide ((93 ≤ x.toNat) ∧ (x.toNat < 95) ∧ (s.dev.pdRefused x.toNat = false) ∧ (s.dev.pdOn x.toNat = true))) = true := by decide +kernel

theorem test_hyps_DomainsAndResets_2 :
   (let key : BitVec 16 := 0
    decide ((key ≠ 0x5253))) = true ∧
   (let cls : BitVec 4 := 0
    decide ((uclassOfCode cls.toNat = none))) = true ∧
   (let cls : BitVec 4 := 7
    let idx : BitVec 12 := 63
    let s : State := mk []
    let c : UClass := .cslot
    decide ((uclassOfCode cls.toNat = some c) ∧ (s.dev.unitExists ⟨c, idx.toNat⟩ false = true) ∧ (s.dev.memberOp ⟨c, idx.toNat⟩ = false))) = true := by decide +kernel

theorem test_hyps_VoltageAndTemperature_1 :
   (let up : Option Bool := some true
    let s : State := mk [(.GLB_AVS_CTL_avs_en, 0, 1), (.GLB_AVS_STAT_vdd_cmd, 0, 700), (.GLB_AVS_CTL_avs_max, 0, 800)]
    decide ((s.dev.bit .GLB_AVS_CTL_avs_en 0 = true) ∧ (s.dev.avsDue = true) ∧ (s.dev.avsNext up ≠ s.dev.get .GLB_AVS_STAT_vdd_cmd 0))) = true ∧
   (let up : Option Bool := some false
    let s : State := mk [(.GLB_AVS_CTL_avs_en, 0, 1), (.GLB_AVS_STAT_vdd_cmd, 0, 700), (.GLB_AVS_CTL_avs_min, 0, 680)]
    decide ((s.dev.bit .GLB_AVS_CTL_avs_en 0 = true) ∧ (s.dev.avsDue = true) ∧ (s.dev.avsNext up ≠ s.dev.get .GLB_AVS_STAT_vdd_cmd 0))) = true ∧
   (let s : State := mk [(.GLB_AVS_CTL_avs_en, 0, 0)]
    decide ((s.dev.bit .GLB_AVS_CTL_avs_en 0 = false ∨ s.dev.avsDue = false))) = true ∧
   (let temps : List (BitVec 16) := (List.replicate 15 100) ++ [420]
    let s : State := mk []
    let k : Nat := 15
    decide ((s.dev.sys.held = false) ∧ (temps.length = 16) ∧ (k < 16) ∧ (List.range 16).all (fun j => decide ((temps.getD j 0).toInt ≤ (temps.getD k 0).toInt)) = true)) = true ∧
   (let s : State := mk [] (fun d => { d with sys := { d.sys with held := true } })
    decide ((s.dev.sys.held = true))) = true := by decide +kernel

theorem test_hyps_VoltageAndTemperature_2 :
   (let s : State := mk []
    decide ((s.dev.sys.thermTripPin = false))) = true ∧
   (let s : State := mk [] (fun d => { d with sys := { d.sys with thermTripPin := true } })
    decide ((s.dev.sys.thermTripPin = true))) = true := by decide +kernel

theorem test_hyps_StepRunsFrontCommand :
   (let c : Instr := .perst
    let rest : List Instr := [.restart]
    let s : State := { State.reset with pending := [.perst, .restart] }
    decide ((s.pending = c :: rest))) = true := by decide +kernel

theorem test_hyps_EmptyQueueTicks :
   (let s : State := mk []
    decide ((s.pending = []))) = true ∧
   (let s : State := mk [] (fun d => { d with sys := { d.sys with held := true } })
    decide ((s.pending = []) ∧ (s.dev.sys.held = true ∨ s.dev.sys.rootOn = false))) = true ∧
   (let s : State := mk []
    decide ((s.pending = []) ∧ (s.dev.sys.held = false) ∧ (s.dev.sys.rootOn = true))) = true ∧
   (let s : State := mk []
    decide ((s.pending = []) ∧ (s.dev.sys.held = false) ∧ (s.dev.sys.rootOn = true) ∧ (s.dev.get .GLB_TIME_STAT_slew 0 = 0 ∧ s.dev.sys.stepDue = none) ∨ s.dev.corrects = false)) = true := by decide +kernel

theorem test_hyps_ResetState :
   (let x : Nat := 0
    decide ((x < 96))) = true ∧
   (let u : UnitId := ⟨.channel, 0⟩
    decide ((u.idx < uclassCount u.cls))) = true := by decide +kernel

theorem test_hyps_AlignmentEventLimits :
   (let n : Chan := 0
    let s : State := mk [(.CH_ALN_STAT_aln_state, 0, 3)] (fun d => d.setAln 0 { d.aln 0 with errRun := 5 })
    let l := s.dev.leader n.val
    decide ((s.dev.alnState l = 3) ∧ (s.dev.alnM l ≤ (s.dev.aln l).errRun))) = true ∧
   (let n : Chan := 0
    let s : State := mk [(.CH_MODE_mode, 0, 8), (.CH_ALN_STAT_aln_state, 0, 1)] (fun d => d.setAln 0 { d.aln 0 with slots := [some ⟨5, 2, 7, false, false, false, 0, true, 0, true, false⟩, none, none, none] })
    let c : Instr := .candidateQualify 0 0
    let l := s.dev.leader n.val
    decide ((∃ k : Fin 4, c = .candidateQualify n k) ∨ (c = .tieEnd n ∧ ((s.dev.aln l).live.filter (fun e => e.2.contender)).length ≤ 1) ∧ (s.dev.alnState l ≠ 3))) = true := by decide +kernel

theorem test_hyps_StealingStaysWithinStealMax :
   (let a : Nat := 0
    let b : Nat := 0
    decide ((a < 16) ∧ (b < 16))) = true := by decide +kernel

theorem test_hyps_CellPointers :
   (let j : Nat := 0
    decide ((j < 448))) = true ∧
   (let x : Pool := Pool.init
    let data : List Byte := List.replicate 448 1
    decide ((data.length = 448) ∧ (memWf x.mem = true))) = true := by decide +kernel

end Sys2Proof.Tests
end

section
/-! The limits of R61 on the events of frame alignment (O58). Both transitions that raise a limited event, out of
INFRAME (`Dev.oof`) and into it (`Dev.enterInframe`), change the device silently, count, and raise the event last; the
counts of R61 follow from what raising does to the counts of events in a DTIME second. -/
namespace Sys2Proof.Machine

/-! ### Changes that raise no event -/

/-- From d to e no event was raised: the host port and DTIME are the same, and so is every register word but those of rs. -/
structure Silent (rs : List Reg) (d e : Dev) : Prop where
  host : e.host = d.host
  dtime : e.dtime = d.dtime
  word : ∀ r i, r ∉ rs → e.word r i = d.word r i

namespace Silent
variable {rs : List Reg} {d e c : Dev}

theorem refl (rs : List Reg) (d : Dev) : Silent rs d d := ⟨rfl, rfl, fun _ _ _ => rfl⟩

theorem trans (h : Silent rs d e) (k : Silent rs e c) : Silent rs d c :=
  ⟨k.host.trans h.host, k.dtime.trans h.dtime, fun r i hr => (k.word r i hr).trans (h.word r i hr)⟩

theorem mono {qs : List Reg} (h : Silent rs d e) (hs : rs ⊆ qs) : Silent qs d e :=
  ⟨h.host, h.dtime, fun r i hr => h.word r i fun hm => hr (hs hm)⟩

theorem setWord (h : Silent rs d e) (r : Reg) (i : Nat) (w : Word) (hm : r ∈ rs := by decide) :
    Silent rs d (e.setWord r i w) :=
  h.trans ⟨rfl, rfl, fun _ _ hq => Dev.word_setWord_reg e _ _ w fun he => hq (he ▸ hm)⟩

theorem set (h : Silent rs d e) (f : Fld) (i v : Nat) (hm : f.reg ∈ rs := by decide) : Silent rs d (e.set f i v) :=
  h.setWord f.reg i _ hm

theorem setB (h : Silent rs d e) (f : Fld) (i : Nat) (b : Bool) (hm : f.reg ∈ rs := by decide) :
    Silent rs d (e.setB f i b) := h.set f i _ hm

theorem bump (h : Silent rs d e) (f : Fld) (i n : Nat) (hm : f.reg ∈ rs := by decide) : Silent rs d (e.bump f i n) :=
  h.set f i _ hm

theorem setChan (h : Silent rs d e) (n : Nat) (x : ChanSt) : Silent rs d (e.setChan n x) :=
  h.trans ⟨rfl, rfl, fun _ _ _ => rfl⟩

theorem windowBroken (h : Silent rs d e) (n : Nat) : Silent rs d (e.windowBroken n) := h.setChan _ _

theorem alnIntegrate (h : Silent rs d e) (l : Nat) : Silent rs d (e.alnIntegrate l) := h.setChan _ _

theorem get (h : Silent rs d e) (f : Fld) (i : Nat) (hf : f.reg ∉ rs := by decide) : e.get f i = d.get f i := by
  simp only [Dev.get, h.word f.reg i hf]

theorem raised (h : Silent rs d e) (id i : Nat) : e.raised id i = d.raised id i := by
  unfold Dev.raised Dev.second Dev.now
  rw [h.host, h.dtime]

end Silent

/-- Storing the aligner shows its errored run and its live slots in CH_ALN_STAT and its slots in CH_ALN_CAND. -/
theorem Dev.setAln_shows (d : Dev) (l : Nat) (a : AlignerSt) : ∃ v, Silent [.CH_ALN_CAND]
    (((d.setChan l { d.chan l with aln := a }).set .CH_ALN_STAT_err_run l (min a.errRun 15)).set
      .CH_ALN_STAT_live_slots l v) (d.setAln l a) := by
  refine ⟨_, List.foldlRecOn _ _ (Silent.refl _ _) fun e he k _ => ?_⟩
  dsimp only
  split
  · exact he.setWord .CH_ALN_CAND _ _
  · exact (((((he.set .CH_ALN_CAND_pos _ _).set .CH_ALN_CAND_run _ _).set .CH_ALN_CAND_live _ _).setB
      .CH_ALN_CAND_mimic _ _).setB .CH_ALN_CAND_contender _ _).setB .CH_ALN_CAND_held _ _

theorem Silent.setAln {rs : List Reg} {d e : Dev} (h : Silent rs d e) (l : Nat) (a : AlignerSt)
    (hs : [.CH_ALN_STAT, .CH_ALN_CAND] ⊆ rs := by decide) : Silent rs d (e.setAln l a) := by
  obtain ⟨v, hv⟩ := e.setAln_shows l a
  have hstat : Reg.CH_ALN_STAT ∈ rs := hs (by decide)
  exact (((h.setChan l _).set .CH_ALN_STAT_err_run l _ hstat).set .CH_ALN_STAT_live_slots l v hstat).trans
    (hv.mono fun r hr => hs (List.mem_cons_of_mem _ hr))

theorem Dev.alnState_setAln (d : Dev) {l : Nat} (a : AlignerSt) (hl : l < 2 ^ 20) :
    (d.setAln l a).alnState l = d.alnState l := by
  obtain ⟨v, hv⟩ := d.setAln_shows l a
  unfold Dev.alnState
  rw [hv.get .CH_ALN_STAT_aln_state l, Dev.get_set_apart _ _ _ _ _ _ hl hl (by decide),
    Dev.get_set_apart _ _ _ _ _ _ hl hl (by decide), Dev.get_setChan]

@[simp] theorem Dev.alnState_set_same (d : Dev) (l v : Nat) : (d.set .CH_ALN_STAT_aln_state l v).alnState l = v % 4 :=
  Dev.get_set_same d _ l v (by decide)

@[simp] theorem Dev.alnState_alnIntegrate (d : Dev) (l : Nat) : (d.alnIntegrate l).alnState l = d.alnState l :=
  ((Silent.refl [] d).alnIntegrate l).get .CH_ALN_STAT_aln_state l

/-- The leader of a channel's unit is no later channel. -/
theorem Dev.leader_lt (d : Dev) (n : Chan) : d.leader n.val < 2 ^ 20 := by
  have : d.leader n.val ≤ n.val := Nat.div_mul_le_self _ _
  omega

/-! ### The counts of events raised in a DTIME second -/

theorem evKey_ne {id id' i j : Nat} (h : id ≠ id') (hi : i < 2 ^ 20) (hj : j < 2 ^ 20) : evKey id i ≠ evKey id' j := by
  unfold evKey
  omega

/-- The count of an event reads its own entry of `seen` and the DTIME second alone. -/
theorem Dev.raised_of_seen {d e : Dev} {id i : Nat}
    (hs : Table.get e.host.seen (evKey id i) (0, 0) = Table.get d.host.seen (evKey id i) (0, 0))
    (ht : e.dtime = d.dtime) : e.raised id i = d.raised id i := by
  unfold Dev.raised Dev.second Dev.now
  rw [hs, ht]

/-- A limit admits an event while fewer have been raised in the second. -/
theorem Dev.admits_iff (d : Dev) {id i cap : Nat} (hc : 0 < cap) :
    d.admits (evKey id i) cap = true ↔ d.raised id i < cap := by
  unfold Dev.admits Dev.raised
  by_cases h : (Table.get d.host.seen (evKey id i) (0, 0)).1 = d.second + 1 <;> simp [h, hc]

theorem Dev.raised_note_same (d : Dev) (id i : Nat) : (d.note (evKey id i)).raised id i = d.raised id i + 1 := by
  have hsec : (d.note (evKey id i)).second = d.second := rfl
  unfold Dev.raised
  rw [hsec]
  by_cases h : (Table.get d.host.seen (evKey id i) (0, 0)).1 = d.second + 1 <;> simp [Dev.note, h]

/-- Counting one event leaves the entries of the others. -/
theorem note_seen_ne (d : Dev) {j k : Nat} (h : j ≠ k) :
    Table.get (d.note k).host.seen j (0, 0) = Table.get d.host.seen j (0, 0) := Table.get_ins_ne _ _ _ h

theorem Dev.raised_note_ne (d : Dev) {id i k : Nat} (h : evKey id i ≠ k) :
    (d.note k).raised id i = d.raised id i :=
  Dev.raised_of_seen (note_seen_ne d h) rfl

theorem sendMsix_seen (d : Dev) (v : Nat) : (d.sendMsix v).host.seen = d.host.seen := by
  unfold Dev.sendMsix
  split
  · rfl
  · split <;> rfl

theorem msixDue_seen (d : Dev) (v : Nat) : (d.msixDue v).host.seen = d.host.seen := by
  unfold Dev.msixDue
  split
  · rfl
  · exact sendMsix_seen d v

theorem interrupt_seen (d : Dev) (a : Nat) : (d.interrupt a).host.seen = d.host.seen := by
  unfold Dev.interrupt
  dsimp only
  split
  · rfl
  · exact msixDue_seen _ _

theorem ringAdvance_seen (d : Dev) : d.ringAdvance.host.seen = d.host.seen := by
  have hh : ∀ n, (d.hostAdvance n).host = d.host := by
    intro n; unfold Dev.hostAdvance; split <;> rfl
  have hi : ∀ (e : Dev) m, (e.i2cAdvance m).host.seen = e.host.seen := by
    intro e m; unfold Dev.i2cAdvance; split <;> rfl
  obtain ⟨n, m, h⟩ := ringAdvance_eq d
  rw [h, hi, hh]

/-- A record that enters the ring, with its interrupt and the read counts that follow it, counts no event. -/
theorem ringEntry_seen (d : Dev) (r : EvRec) (a : Nat) : ((d.ringPut r).interrupt a).ringAdvance.host.seen = d.host.seen :=
  (ringAdvance_seen _).trans (interrupt_seen _ a)

/-- A record that enters the ring counts no event but the overrun's 0x0E04. -/
theorem raiseRec_seen (d : Dev) (r : EvRec) {k : Nat} (hk : k ≠ evKey 0x0E04 0) :
    Table.get (d.raiseRec r).host.seen k (0, 0) = Table.get d.host.seen k (0, 0) := by
  unfold Dev.raiseRec Dev.ringOverrun
  dsimp only
  split
  · rw [ringEntry_seen]
  · split
    · rw [ringEntry_seen, ← ringEntry_seen d r (r.id.toNat / 256)]
      exact note_seen_ne _ hk
    · rw [ringEntry_seen]

/-- Raising counts no event but the overrun's 0x0E04: the limits of the others are kept by `note`. -/
theorem raised_raise (d : Dev) (id arg : Nat) {id' i : Nat} (hk : evKey id' i ≠ evKey 0x0E04 0) :
    (d.raise id arg).raised id' i = d.raised id' i := by
  refine Dev.raised_of_seen ?_ (Dev.raise_dtime d id arg)
  unfold Dev.raise
  split
  · exact raiseRec_seen d _ hk
  · rfl

/-! ### An event under its limit -/

/-- From d to e event id was raised for channel l where fewer than 16 had been raised in the DTIME second, and counted;
from the 17th on nothing was raised (R61). -/
def RaisedWithin (id l : Nat) (d e : Dev) : Prop :=
  (d.raised id l < 16 → Logged d e id l ∧ e.raised id l = d.raised id l + 1) ∧
  (16 ≤ d.raised id l → e.host = d.host ∧ e.word .GLB_EVT_WR 0 = d.word .GLB_EVT_WR 0)

theorem raisedWithin_raiseUpTo (d : Dev) {id l : Nat} (hk : evKey id l ≠ evKey 0x0E04 0) :
    RaisedWithin id l d (d.raiseUpTo 16 id l l) := by
  have ha := d.admits_iff (id := id) (i := l) (cap := 16) (by decide)
  unfold Dev.raiseUpTo
  refine ⟨fun h => ?_, fun h => ?_⟩
  · rw [if_pos (ha.mpr h), raised_raise _ _ _ hk, Dev.raised_note_same]
    exact ⟨logged_raise (d.note (evKey id l)) id l, rfl⟩
  · rw [if_neg fun hadm => absurd (ha.mp hadm) (by omega)]
    exact ⟨rfl, rfl⟩

/-- An event under its limit leaves the counts of all others but the overrun's 0x0E04. -/
theorem raised_raiseUpTo_ne (d : Dev) (cap arg : Nat) {id i id' j : Nat} (h : evKey id' j ≠ evKey id i)
    (hk : evKey id' j ≠ evKey 0x0E04 0) : (d.raiseUpTo cap id i arg).raised id' j = d.raised id' j := by
  unfold Dev.raiseUpTo
  split
  · rw [raised_raise _ _ _ hk, Dev.raised_note_ne d h]
  · rfl

/-- A silent change before the event does not matter. -/
theorem RaisedWithin.before {rs : List Reg} {id l : Nat} {d c e : Dev} (h : RaisedWithin id l c e) (hs : Silent rs d c)
    (hw : .GLB_EVT_WR ∉ rs) (hr : .GLB_READY_FN ∉ rs) : RaisedWithin id l d e := by
  obtain ⟨hlog, hnone⟩ := h
  rw [hs.raised id l] at hlog hnone
  have hwr := hs.word .GLB_EVT_WR 0 hw
  refine ⟨fun hlt => ?_, fun hge => ?_⟩
  · obtain ⟨h1, h2⟩ := hlog hlt
    exact ⟨h1.before hs.host hs.dtime hwr (hs.word .GLB_READY_FN 0 hr), h2⟩
  · obtain ⟨h1, h2⟩ := hnone hge
    exact ⟨h1.trans hs.host, h2.trans hwr⟩

/-! ### The transitions that raise a limited event -/

/-- A transition of the aligner of channel l from d to e: event id is raised within its limit, the transition is counted in
cnt whether or not it raises the event, and the counts of all other events of the channel, the overrun's 0x0E04 apart, stay
as they are. -/
structure LimitedTransition (id : Nat) (cnt : Fld) (l : Nat) (d e : Dev) : Prop where
  within : RaisedWithin id l d e
  counted : e.get cnt l = min (d.get cnt l + 1) (2 ^ cnt.w - 1)
  others : ∀ id', id' ≠ id → id' ≠ 0x0E04 → e.raised id' l = d.raised id' l

/-- The registers of the aligner that a transition writes before it counts. -/
def alnMoveRegs : List Reg := [.CH_ALN_STAT, .CH_ALN_CAND, .CH_ALN_EVT]

/-- What both transitions end with: after a silent change c of the aligner they count, set their flag and raise their
event. -/
theorem limitedTransition_of_silent {d c : Dev} {id l : Nat} {cnt flag : Fld} (hc : Silent alnMoveRegs d c)
    (hl : l < 2 ^ 20) (hid : id ≠ 0x0E04) (hev : cnt.reg ∉ .GLB_READY_FN :: evRegs) (haln : cnt.reg ∉ alnMoveRegs)
    (hfits : cnt.fits = true) (hflag : flag.reg = .CH_ALN_EVT) :
    LimitedTransition id cnt l d (((c.bump cnt l 1).set flag l 1).raiseUpTo 16 id l l) := by
  have hkey : ∀ {id'}, id' ≠ 0x0E04 → evKey id' l ≠ evKey 0x0E04 0 := fun h => evKey_ne h hl (by decide)
  have hread : ∀ q ∈ .GLB_READY_FN :: evRegs, q ∉ alnMoveRegs → q ∉ cnt.reg :: alnMoveRegs := fun q hq hm =>
    List.not_mem_cons_of_ne_of_not_mem (fun he => hev (he ▸ hq)) hm
  have hcf : cnt.reg ≠ flag.reg := fun h => haln (by rw [h, hflag]; decide)
  have hs : Silent (cnt.reg :: alnMoveRegs) d ((c.bump cnt l 1).set flag l 1) :=
    ((hc.mono (List.subset_cons_self _ _)).bump cnt l 1 (List.mem_cons_self ..)).set flag l 1
      (List.mem_cons_of_mem _ (by rw [hflag]; decide))
  refine ⟨(raisedWithin_raiseUpTo _ (hkey hid)).before hs (hread _ (by decide) (by decide))
    (hread _ (by decide) (by decide)), ?_, fun id' hne hov => ?_⟩
  · rw [Dev.get_raiseUpTo _ _ _ _ _ _ _ (by simpa using fun h => hev (List.mem_cons_of_mem _ h)),
      Dev.get_set_reg _ _ _ _ hcf, Dev.get_bump_same _ _ _ _ hfits, hc.get cnt l haln]
  · rw [raised_raiseUpTo_ne _ _ _ (evKey_ne hne hl hl) (hkey hov), hs.raised]

/-- R60, R61: the M-th consecutive errored frame. -/
theorem Dev.oof_limited (d : Dev) {n : Nat} (hl : d.leader n < 2 ^ 20) (h3 : d.alnState (d.leader n) = 3)
    (hm : d.alnM (d.leader n) ≤ (d.aln (d.leader n)).errRun) :
    LimitedTransition 0x0301 .CH_ALN_OOF_CNT_oof_cnt (d.leader n) d (d.oof n) := by
  unfold Dev.oof
  dsimp only
  rw [if_pos (by simp [h3, hm])]
  refine limitedTransition_of_silent ?_ hl (by decide) (by decide) (by decide) (by decide) rfl
  have hfreed : ∀ a, Silent alnMoveRegs d ((d.setAln (d.leader n) a).windowBroken (d.leader n)) := fun a =>
    ((Silent.refl _ d).setAln _ a).windowBroken _
  refine ((((Silent.set ?_ .CH_ALN_STAT_aln_state _ _).set .CH_ALN_STAT_oof _ _).set .CH_ALN_STAT_mf_state _ _).set
    .CH_ALN_STAT_oom _ _).alnIntegrate _
  split
  · exact (hfreed _).set .CH_ALN_EVT_oom_set _ _
  · exact hfreed _

/-- R60, R61: an entry to INFRAME at a slot that holds a candidate; at an empty one nothing changes. -/
theorem Dev.enterInframe_limited (d : Dev) {l : Nat} (k : Nat) (hl : l < 2 ^ 20) :
    d.enterInframe l k = d ∨ LimitedTransition 0x0302 .CH_ALN_ACQ_CNT_acq_cnt l d (d.enterInframe l k) := by
  unfold Dev.enterInframe
  dsimp only
  split
  · exact .inl rfl
  · refine .inr (limitedTransition_of_silent ?_ hl (by decide) (by decide) (by decide) (by decide) rfl)
    exact (((((Silent.refl _ d).setAln l _).set .CH_ALN_STAT_aln_state _ _).set .CH_ALN_STAT_oof _ _).setB
      .CH_ALN_STAT_mf_state _ _).alnIntegrate l

/-! ### The commands that may enter INFRAME -/

/-- What a command that may enter INFRAME keeps of the limits of R61 for channel l: the limit of event 0x0301, and, where it
entered INFRAME, event 0x0302 within its own limit, with the entry counted. -/
def InframeLimits (l : Nat) (d e : Dev) : Prop :=
  e.raised 0x0301 l = d.raised 0x0301 l ∧
  (e.alnState l = 3 →
    (d.raised 0x0302 l < 16 → Logged d e 0x0302 l ∧ e.raised 0x0302 l = d.raised 0x0302 l + 1) ∧
    (16 ≤ d.raised 0x0302 l → e.host = d.host ∧ e.word .GLB_EVT_WR 0 = d.word .GLB_EVT_WR 0) ∧
    e.get .CH_ALN_ACQ_CNT_acq_cnt l = min (d.get .CH_ALN_ACQ_CNT_acq_cnt l + 1) (2 ^ Fld.CH_ALN_ACQ_CNT_acq_cnt.w - 1))

theorem inframeLimits_of_silent {rs : List Reg} {l : Nat} {d e : Dev} (hs : Silent rs d e) (h3 : e.alnState l ≠ 3) :
    InframeLimits l d e := ⟨hs.raised _ _, fun h => absurd h h3⟩

theorem inframeLimits_refl {l : Nat} {d : Dev} (h3 : d.alnState l ≠ 3) : InframeLimits l d d :=
  inframeLimits_of_silent (Silent.refl [] d) h3

theorem Dev.enterInframe_limits (d : Dev) {l : Nat} (k : Nat) (hl : l < 2 ^ 20) (h3 : d.alnState l ≠ 3) :
    InframeLimits l d (d.enterInframe l k) := by
  obtain h | ⟨⟨hlog, hnone⟩, hcount, hothers⟩ := d.enterInframe_limited k hl
  · rw [h]; exact inframeLimits_refl h3
  · exact ⟨hothers 0x0301 (by decide) (by decide), fun _ => ⟨hlog, hnone, hcount⟩⟩

/-- Entry to TIE raises 0x0309 alone, which has no limit. -/
theorem Dev.enterTie_limits (d : Dev) {l : Nat} (p : Nat → CandSlot → Bool) (hl : l < 2 ^ 20) :
    InframeLimits l d (d.enterTie l p) := by
  unfold Dev.enterTie
  dsimp only
  refine ⟨?_, fun h => ?_⟩
  · rw [raised_raise _ _ _ (evKey_ne (by decide) hl (by decide))]
    exact (((((Silent.refl (.CH_ALN_TIE_CNT :: alnMoveRegs) d).setAln l _).set .CH_ALN_STAT_aln_state l 2).bump
      .CH_ALN_TIE_CNT_tie_cnt l 1).set .CH_ALN_EVT_tie l 1).raised _ _
  · unfold Dev.alnState at h
    rw [Dev.get_raise _ _ _ _ _ (by decide), Dev.get_set_reg _ _ _ _ (by decide), Dev.bump,
      Dev.get_set_reg _ _ _ _ (by decide), Dev.get_set_same _ _ _ _ (by decide)] at h
    exact absurd h (by decide)

/-- R56: a candidate that qualifies. -/
theorem Dev.candidateQualify_limits (d : Dev) {n : Nat} (k : Nat) (hl : d.leader n < 2 ^ 20)
    (h3 : d.alnState (d.leader n) ≠ 3) : InframeLimits (d.leader n) d (d.candidateQualify n k) := by
  unfold Dev.candidateQualify
  dsimp only
  split
  · exact inframeLimits_refl h3
  split_ifs with hshort hsearch hflexo hrival hmimic hjoin
  · exact inframeLimits_refl h3
  · exact d.enterInframe_limits k hl h3
  · exact d.enterTie_limits _ hl
  · exact d.enterTie_limits _ hl
  · exact d.enterInframe_limits k hl h3
  · exact inframeLimits_of_silent ((Silent.refl alnMoveRegs d).setAln _ _) ((d.alnState_setAln _ hl).trans_ne h3)
  · exact inframeLimits_refl h3

/-- R59: the end of TIE with at most one contender left. -/
theorem Dev.tieEnd_limits (d : Dev) {n : Nat} (hl : d.leader n < 2 ^ 20) (h3 : d.alnState (d.leader n) ≠ 3)
    (hone : ((d.aln (d.leader n)).live.filter (fun e => e.2.contender)).length ≤ 1) :
    InframeLimits (d.leader n) d (d.tieEnd n) := by
  unfold Dev.tieEnd
  dsimp only
  split
  case isFalse => exact inframeLimits_refl h3
  case isTrue =>
    split
    case h_1 =>
      refine inframeLimits_of_silent (((Silent.refl alnMoveRegs d).set .CH_ALN_STAT_aln_state _ 1).alnIntegrate _) ?_
      simp
    case h_2 =>
      split
      · exact d.enterInframe_limits _ hl h3
      · exact inframeLimits_refl h3
    case h_3 hnil hsingle =>
      obtain hzero | hone := Nat.le_one_iff_eq_zero_or_eq_one.mp hone
      · exact absurd (List.length_eq_zero_iff.mp hzero) hnil
      · obtain ⟨e, he⟩ := List.length_eq_one_iff.mp hone
        exact absurd he (hsingle e)

/-- Settles O58: both transitions raise their event last and under its own count (`LimitedTransition`); the commands that
may enter INFRAME otherwise change the device silently or raise 0x0309, which has no limit. -/
theorem alignmentEventLimits : Obligations.AlignmentEventLimits := by
  refine ⟨fun n s => ?_, fun n s c => ?_⟩
  · intro l h3 hm
    obtain ⟨⟨hlog, hnone⟩, hcount, hothers⟩ := s.dev.oof_limited (s.dev.leader_lt n) h3 hm
    exact ⟨_, rfl, hlog, hnone, hothers 0x0302 (by decide) (by decide), hcount⟩
  · intro l hc h3
    obtain ⟨k, rfl⟩ | ⟨rfl, hone⟩ := hc
    · exact ⟨_, rfl, s.dev.candidateQualify_limits k.val (s.dev.leader_lt n) h3⟩
    · exact ⟨_, rfl, s.dev.tieEnd_limits (s.dev.leader_lt n) h3 hone⟩

end Sys2Proof.Machine
end

section
/-! The ring of heats and the reach of stealing (O59, R103, R104). A task is taken from a queue that `Dev.takeFrom` names;
that queue is within the effective steal_max on the ring, what is discarded at dispatch leaves steal_max as it is, and the
start of a task leaves every queue. -/
namespace Sys2Proof.Machine

/-! ### Distances on the ring (R103) -/

theorem ringDist_eq_min_natAbs (a b : Nat) :
    ringDist a b = min ((a : Int) - b).natAbs (16 - ((a : Int) - b).natAbs) := by
  have hdiff : max a b - min a b = ((a : Int) - b).natAbs := by omega
  rw [ringDist, hdiff]

@[simp] theorem ringDist_self (a : Nat) : ringDist a a = 0 := by simp [ringDist]

/-- The heat m places up the ring, which wraps from H15 to H0, is at distance m. -/
theorem ringDist_up {h m : Nat} (hh : h < 16) (hm : m ≤ 8) : ringDist h ((h + m) % 16) = m := by
  unfold ringDist
  omega

/-- The heat m places down the ring, which wraps from H0 to H15, is at distance m. -/
theorem ringDist_down {h m : Nat} (hh : h < 16) (hm : m ≤ 8) : ringDist h ((h + 16 - m) % 16) = m := by
  unfold ringDist
  omega

/-! ### The queue an idle engine takes from (R104) -/

theorem Dev.stealMax_le_two (d : Dev) : d.stealMax ≤ 2 := Nat.min_le_right _ _

theorem Dev.stealMax_le_get (d : Dev) : d.stealMax ≤ d.get .STR_CTL_steal_max 0 := Nat.min_le_left _ _

/-- The pair p names a queue of the ring with its distance from heat h, a distance that steal_max allows. -/
structure Dev.Reaches (d : Dev) (h : Nat) (p : Nat × Nat) : Prop where
  onRing : p.1 < 16
  dist : ringDist h p.1 = p.2
  within : p.2 ≤ d.stealMax

theorem Dev.reaches_home (d : Dev) {h : Nat} (hh : h < 16) : d.Reaches h (h, 0) := ⟨hh, ringDist_self h, Nat.zero_le _⟩

theorem Dev.reaches_up (d : Dev) {h j : Nat} (hh : h < 16) (hj : j < d.stealMax) :
    d.Reaches h ((h + j + 1) % 16, j + 1) :=
  ⟨Nat.mod_lt _ (by decide), ringDist_up (m := j + 1) hh (by have := d.stealMax_le_two; omega), hj⟩

theorem Dev.reaches_down (d : Dev) {h j : Nat} (hh : h < 16) (hj : j < d.stealMax) :
    d.Reaches h ((h + 16 - (j + 1)) % 16, j + 1) :=
  ⟨Nat.mod_lt _ (by decide), ringDist_down hh (by have := d.stealMax_le_two; omega), hj⟩

/-- An engine takes from its own queue, or from the two queues at one distance after the other up to steal_max. -/
theorem Dev.takeFrom_reaches (d : Dev) {h : Nat} (hh : h < 16) : ∀ p ∈ d.takeFrom h, d.Reaches h p := by
  unfold Dev.takeFrom
  dsimp only
  split
  · nofun
  split
  · rintro _ ⟨⟩
    exact d.reaches_home hh
  split
  · refine List.foldlRecOn (motive := fun r => ∀ p ∈ r, d.Reaches h p) _ _ nofun fun r hr j hj => ?_
    have hup := d.reaches_up hh (List.mem_range.mp hj)
    have hdown := d.reaches_down hh (List.mem_range.mp hj)
    split
    · exact hr
    split
    · nofun
    · rintro _ ⟨⟩
      exact hup
    · rintro _ ⟨⟩
      exact hdown
    · rintro _ ⟨⟩
      split
      · exact hup
      · exact hdown
  · nofun

/-! ### Removing a task from a queue, and starting it -/

theorem Dev.heat_setHeat_ne (d : Dev) {n m : Nat} (c : HeatSt) (h : m ≠ n) : (d.setHeat n c).heat m = d.heat m :=
  Table.get_put_ne _ _ _ _ h

theorem Dev.heat_setQueue_ne (d : Dev) {h q : Nat} (ts : List Task) (hne : h ≠ q) :
    (d.setQueue q ts).heat h = d.heat h := d.heat_setHeat_ne _ hne

theorem Dev.stealMax_setQueue (d : Dev) (q : Nat) (ts : List Task) : (d.setQueue q ts).stealMax = d.stealMax := by
  unfold Dev.stealMax Dev.setQueue
  dsimp only
  rw [Dev.get_set_reg _ _ _ _ (by decide), Dev.get_set_reg _ _ _ _ (by decide), Dev.get_setHeat]

/-- Removing a task is storing the rest of its queue. -/
theorem Dev.dequeue_eq {d e : Dev} {q : Nat} {t : Task} (h : d.dequeue q = some (t, e)) : ∃ ts, e = d.setQueue q ts := by
  unfold Dev.dequeue at h
  split at h
  · contradiction
  split at h
  · contradiction
  · obtain ⟨rfl, rfl⟩ := h
    exact ⟨_, rfl⟩

@[simp] theorem Dev.pmIncomplete_heats (d : Dev) (k : Nat) : (d.pmIncomplete k).heats = d.heats := by
  simp [Dev.pmIncomplete, Dev.oset]

theorem Dev.pmWrite_heats (d : Dev) (k l : Nat) (ws : List Nat) : (d.pmWrite k l ws).heats = d.heats :=
  List.foldlRecOn (motive := fun e : Dev => e.heats = d.heats) _ _ rfl fun _ he _ _ => he

@[simp] theorem Dev.shedP2_heats (d : Dev) (k : Nat) : (d.shedP2 k).heats = d.heats := by
  simp only [Dev.shedP2, Dev.pmIncomplete_heats, Dev.setOh_heats]
  refine List.foldlRecOn (motive := fun e : Dev => e.heats = d.heats) _ _ rfl fun e he l _ => ?_
  split
  · exact (e.pmWrite_heats ..).trans he
  · exact he

/-- A task that starts leaves the heats' own state, their queues with it. -/
theorem Dev.startTask_heats (d : Dev) (e dist : Nat) (t : Task) : (d.startTask e dist t).heats = d.heats := by
  simp [Dev.startTask, apply_ite Dev.heats]

/-! ### Taking a task -/

/-- From d to e only queues of heats within distance m of heat a have changed. -/
def TakenWithin (a m : Nat) (d e : Dev) : Prop :=
  ∀ h, (e.heat h).queue ≠ (d.heat h).queue → h < 16 ∧ ringDist a h ≤ m

theorem TakenWithin.of_heats {a m : Nat} {d e : Dev} (h : e.heats = d.heats) : TakenWithin a m d e :=
  fun k hk => absurd (by rw [Dev.heat, h, Dev.heat]) hk

theorem TakenWithin.trans {a m : Nat} {d e c : Dev} (h : TakenWithin a m d e) (k : TakenWithin a m e c) :
    TakenWithin a m d c := fun j hj => by
  by_cases he : (e.heat j).queue = (d.heat j).queue
  · exact k j (he ▸ hj)
  · exact h j he

theorem Dev.setQueue_takenWithin (d : Dev) {a m q : Nat} (ts : List Task) (hq : q < 16) (hm : ringDist a q ≤ m) :
    TakenWithin a m d (d.setQueue q ts) := fun h hh => by
  by_cases he : h = q
  · exact he ▸ ⟨hq, hm⟩
  · exact absurd (by rw [d.heat_setQueue_ne ts he]) hh

/-- However many tasks are discarded at dispatch first (R101), every one comes from within steal_max. -/
theorem Dev.takeTask_takenWithin {e : Nat} (he : e / 16 < 16) (n : Nat) :
    ∀ d : Dev, TakenWithin (e / 16) d.stealMax d (d.takeTask e n) := by
  induction n with
  | zero => exact fun d => .of_heats rfl
  | succ n ih =>
    intro d
    unfold Dev.takeTask
    split
    · exact .of_heats rfl
    next q dist hfrom =>
      obtain ⟨hq, hdist, hle⟩ := d.takeFrom_reaches he _ hfrom
      split
      · exact .of_heats rfl
      next t c hdeq =>
        obtain ⟨ts, rfl⟩ := Dev.dequeue_eq hdeq
        have hout := d.setQueue_takenWithin ts hq (hdist.trans_le hle)
        split
        · exact hout.trans (.of_heats (Dev.startTask_heats ..))
        · exact hout.trans (d.stealMax_setQueue q ts ▸ ih _)

theorem Dev.taskTake_takenWithin (d : Dev) {e : Nat} (he : e / 16 < 16) :
    TakenWithin (e / 16) d.stealMax d (d.taskTake e) := by
  unfold Dev.taskTake
  split
  · exact .of_heats rfl
  · exact Dev.takeTask_takenWithin he _ d

/-- Settles O59: the queues an engine takes from lie within the effective steal_max (`Dev.taskTake_takenWithin`), which
is at most the field. -/
theorem stealingStaysWithinStealMax : Obligations.StealingStaysWithinStealMax := by
  refine ⟨fun a b _ _ => ringDist_eq_min_natAbs a b, by decide, fun e s t h hexec hqueue => ?_⟩
  obtain rfl : s.onDev (·.taskTake e.val) = t := Host.Outcome.next.inj hexec
  obtain ⟨hlt, hdist⟩ := s.dev.taskTake_takenWithin (e := e.val) (by omega) h hqueue
  exact ⟨hlt, hdist.trans s.dev.stealMax_le_get⟩

end Sys2Proof.Machine
end

section
/-! The pointers of cells and the bytes they name (O60, R186). The data of cell p lies from byte p × 512 on; reading and
writing it go through the laws of a run of bytes (`byteAt_memSlice`, `memRead_memWriteAll`). -/
namespace Sys2Proof.Machine

/-! ### The fields of a pointer -/

/-- Bits [28:25] of a pointer are its site. -/
theorem ptrSite_eq_extractLsb' (p : BitVec 29) : ptrSite p.toNat = (p.extractLsb' 25 4).toNat := by
  have hsite : p.toNat / 2 ^ 25 < 2 ^ 4 := by omega
  rw [BitVec.extractLsb'_toNat, Nat.shiftRight_eq_div_pow, Nat.mod_eq_of_lt hsite, ptrSite]

/-- Bits [24:0] of a pointer are its index in the site. -/
theorem ptrIdx_eq_extractLsb' (p : BitVec 29) : ptrIdx p.toNat = (p.extractLsb' 0 25).toNat := by
  rw [BitVec.extractLsb'_toNat, Nat.shiftRight_zero, ptrIdx]

theorem Pool.hole_iff (x : Pool) (p : Nat) : x.hole p = true ↔ (x.site (ptrSite p)).size ≤ ptrIdx p ∨ 2 ^ 29 ≤ p := by
  rw [Pool.hole, Bool.or_eq_true, decide_eq_true_iff, decide_eq_true_iff]

/-! ### The bytes of a cell -/

theorem Pool.byteAt_data (x : Pool) (p : Nat) {j : Nat} (hj : j < 448) :
    byteAt (x.data p) j = memRead x.mem (p * 512 + j) :=
  byteAt_memSlice x.mem (p * 512) 448 j hj

theorem Pool.cellByte_data (x : Pool) (p : Nat) {j : Nat} (hj : j < 448) :
    x.cellByte p j = memRead x.mem (p * 512 + j) := if_pos hj

theorem byteAt_map_range (f : Nat → Byte) {n j : Nat} (hj : j < n) : byteAt ((List.range n).map f) j = f j := by
  simp [byteAt, hj]

/-- A cell written holds the data in its 448 bytes, and no other byte of the pool moves. -/
theorem Pool.memRead_writeCell (x : Pool) (p : Nat) (data : List Byte) (next : Nat) (seq : BitVec 16) (a : Nat) :
    memRead (x.writeCell p data next seq).mem a =
      if p * 512 ≤ a ∧ a < p * 512 + 448 then byteAt data (a - p * 512) else memRead x.mem a := by
  have hrun := memRead_memWriteAll x.mem (p * 512) ((List.range 448).map (byteAt data)) a
  rw [List.length_map, List.length_range] at hrun
  refine hrun.trans (if_ctx_congr Iff.rfl (fun ha => ?_) (fun _ => rfl))
  exact byteAt_map_range (byteAt data) (by omega)

/-- Settles O60: the fields of a pointer, the null pointer, the holes, and the bytes at p × 512 as they are read and
written. -/
theorem cellPointers : Obligations.CellPointers := by
  refine ⟨fun p => ⟨ptrSite_eq_extractLsb' p, ptrIdx_eq_extractLsb' p⟩, rfl, Pool.hole_iff,
    fun x p j hj => ⟨x.byteAt_data p hj, x.cellByte_data p hj⟩, fun x p next data seq a _ _ => ?_⟩
  exact x.memRead_writeCell p data next seq a

end Sys2Proof.Machine
end
